-- ==== Sys2Proof/Word.lean ====
section
/-! DEFINITION. The word types of the TRT96 (00_scope, Numbers and units) and the carrier of sparse tables.

A table indexed by a number (registers by offset, cords by number, lines by address) is a list of pairs in one
canonical form: keys strictly rising, no entry equal to what an unlisted key reads as. Its operations stand in
Sys2Proof/Machine/Maps.lean. -/

namespace Sys2Proof

/-- A 64-bit register, stack entry or memory word (R7, R64). -/
abbrev Word := BitVec 64

/-- A byte of memory. -/
abbrev Byte := BitVec 8

/-- A 32-bit instruction word (R75). -/
abbrev InsnWord := BitVec 32

/-- The 256 bytes of a line, byte 0 in the low bits (R150). -/
abbrev LineData := BitVec 2048

/-- The byte mask of a line (R130). -/
abbrev LineMask := BitVec 256

/-- A sparse table: pairs of a key and an entry. -/
abbrev SMap (α : Type) := List (Nat × α)

end Sys2Proof
end

