-- ==== Sys2Proof/Syntax.lean ====
section
/-! DEFINITION. The commands of the TRT96: one constructor of Instr for each row of spec/opcode_table.json.

The table gives its rows no operands. An operand here names what the step acts on (a cord, a triad, a register
value) and whatever the outside of the module decides: a fetched word, the voter's comparison, a device's answer
(log 2). Each constructor's docstring names its row and the rule the table gives it. -/

namespace Sys2Proof

/-- Privilege levels, U lowest (R64). -/
inductive Level where
  | U | S | H
  deriving DecidableEq, Repr

/-- What executes a stack instruction: a cord, or a Shuttle running the subset of R100. -/
inductive Agent where
  | cord (c : Nat)
  | shuttle (n : Nat)
  deriving DecidableEq, Repr

/-- Format O of R76 with COND and S of R75. -/
structure FO where
  cond : BitVec 3
  s : Bool
  opnd : BitVec 16
  deriving DecidableEq, Repr

/-- Format I (R76). -/
structure FI where
  cond : BitVec 3
  s : Bool
  imm : BitVec 22
  deriving DecidableEq, Repr

/-- Format H (R76); `rz` is bit 21, reserved-zero. -/
structure FH where
  cond : BitVec 3
  s : Bool
  rz : Bool
  imm : BitVec 21
  deriving DecidableEq, Repr

/-- Format M (R76, R86). -/
structure FM where
  cond : BitVec 3
  s : Bool
  sz : BitVec 2
  am : BitVec 3
  ag : BitVec 3
  disp : BitVec 14
  deriving DecidableEq, Repr

/-- Format A (R76, R87). -/
structure FA where
  cond : BitVec 3
  s : Bool
  sz : BitVec 2
  am : BitVec 3
  ag : BitVec 3
  aop : BitVec 4
  disp : BitVec 10
  deriving DecidableEq, Repr

/-- Format L (R76, R88); `rz` is bits [15:14], reserved-zero. -/
structure FL where
  cond : BitVec 3
  s : Bool
  rz : BitVec 2
  disp : BitVec 14
  deriving DecidableEq, Repr

/-- Format F (R76, R89); `p` is 1 for binary64, `rz` bits [11:0]. -/
structure FF where
  cond : BitVec 3
  s : Bool
  rm : BitVec 3
  p : Bool
  rz : BitVec 12
  deriving DecidableEq, Repr

/-- Format B (R76). -/
structure FB where
  cond : BitVec 3
  s : Bool
  off : BitVec 22
  deriving DecidableEq, Repr

/-- A register write that lands in the same fclk as another (R12). -/
structure RegWrite where
  off : Nat
  v : Word
  deriving DecidableEq, Repr

/-- The privilege level and tenant that a request carries (R8, R19). -/
structure Who where
  level : Level
  tenant : Nat
  deriving DecidableEq, Repr

/-- What the active spliced module meets in a house beat: the serial its uncached read of the claim word returns
when another module wrote it (R323), and whether a checkpoint write fails (R326). -/
structure HouseInputs where
  claim : Option Nat
  ckFail : Bool
  deriving DecidableEq, Repr

/-- What a comparison of the voter was of (TRI_LASTDIS.KIND, R44). -/
inductive CmpKind where
  | signature | addressOrType | dataOrMask
  deriving DecidableEq, Repr

/-- The outcome at the comparator: all strands in use agree, one of three differs, or no two agree (R45). -/
inductive CmpResult where
  | agree
  | oneOut (strand : Nat)
  | noMajority
  deriving DecidableEq, Repr

/-- A comparison of the voter; `detected` are the strands whose internal checks reported (R47). -/
structure Comparison where
  kind : CmpKind
  result : CmpResult
  detected : List Nat
  deriving DecidableEq, Repr

/-- What a strand's internal check found in Split execution (R51, R52). -/
inductive ErrKind where
  | singleBit
  | residueOrParity
  | uncorrectable
  | checkpointUncorrectable
  deriving DecidableEq, Repr

/-- A detection at strand 0 (A), 1 (B) or 2 (C); `bothHard` when strands A and B decide a hard fault in the same
sclk (R52). An error of the checkpoint names the word of its image (R48, R73). -/
structure StrandError where
  strand : Nat
  kind : ErrKind
  bothHard : Bool
  word : Nat
  deriving DecidableEq, Repr

/-- A failed test of the voter self-test: lane, pattern (N, DA, DB, DC, DABC) and polarity (R59). -/
structure LaneFail where
  lane : Nat
  pattern : Nat
  pol : Bool
  deriving DecidableEq, Repr

/-- What a debugger names of a cord's architected state, an instruction breakpoint set or cleared, or memory at tenant 0x000
(R374). -/
inductive DebugReg where
  | pc
  | cr (n : Nat)
  | ag (i part : Nat)
  | stack (i : Nat)
  | brk (i : Nat) (on : Bool)
  | mem (addr : Nat)
  deriving DecidableEq, Repr

/-- Coherence states of a line (R152). -/
inductive Moesi where
  | I | S | E | O | M
  deriving DecidableEq, Repr

/-- The cache-maintenance requests of class REQ (R165). -/
inductive CmoOp where
  | clean | flush | inval | icinv
  deriving DecidableEq, Repr

/-- How a request ends at its home: carried out, carried out after a failed handover between fabric and memory (R203), refused as a hole
(R183), met by a dark block (R345), or without an answer in the fabric's time (R137). -/
inductive CmpEnd where
  | good | failed | hole | dark | silent
  deriving DecidableEq, Repr

/-- A CMP: the state granted and how the request has ended (R165). -/
structure GrantMsg where
  st : Moesi
  fate : CmpEnd
  deriving DecidableEq, Repr

/-- The request has not been carried out. -/
def CmpEnd.refuses (e : CmpEnd) : Bool := e == .hole || e == .dark || e == .silent

/-- A request at a home. `src` is the wheel source of R167: 0 to 47 an L2, 48 the descriptor cache, 49 to 56 engines,
57 to 60 channel DMA, 64 + m the warp-link proxy of module m. `stamp` is the rclk at which the requester's knot
opened (R173). `bad` are the sectors whose old check fails at the handover between fabric and memory (R203). `house` marks a write of
the flush reserve, made at the device in house and unowned beats (R419). -/
structure Req where
  src : Nat
  line : Nat
  tenant : Nat
  stamp : Option Nat
  bad : BitVec 4
  house : Bool := false
  deriving DecidableEq, Repr

/-- The data of a write at a home: bytes of the line and the poison of its sectors (R165, R200). -/
structure WrData where
  bytes : LineData
  poison : BitVec 4
  deriving DecidableEq, Repr

/-- A WB_D: the eviction-buffer entry and its line, with the sectors it brings from another module (R165, R171). -/
structure WbData where
  entry : Nat
  line : Nat
  dirty : BitVec 4
  poison : BitVec 4
  bytes : LineData
  deriving DecidableEq, Repr

/-- A WB_C: the eviction-buffer entry and its line (R165, R169). -/
structure WbNote where
  entry : Nat
  line : Nat
  deriving DecidableEq, Repr

/-- A snoop at agent `agent` (an L2, or 48) for `line` on behalf of requester `req` (R170). -/
structure Snoop where
  agent : Nat
  line : Nat
  req : Nat
  deriving DecidableEq, Repr

/-- What answers behind a port at BIND (R420, R266); `mdts` is the blocks that one command of the controller moves at most, 0 for no
limit (R234). -/
structure BindProbe where
  answers : Bool
  active : Bool
  formatOk : Bool
  blkLog2 : Nat
  mdts : Nat
  deriving DecidableEq, Repr

/-- The end of an NVMe command: status field, the bytes moved beside those that INBOUND_TLP commands moved, and the completion queue entry
(R212, R234); `abort` marks the confirmation of an Abort. -/
structure NvmeEnd where
  status : BitVec 16
  bytes : Nat
  cqe0 : Word
  cqe1 : Word
  abort : Bool
  deriving DecidableEq, Repr

/-- An acceptance at a doorbell slot, and what comes in its fclk and acts before it (R217): a write of the VI's CHS_VI_v_CFG, a HALT
written to CHS_SCCMD, and the retirement of an operation, by its cell. -/
structure AcceptWith where
  slot : Nat
  cfg : Option Word
  cmd : Option Word
  retire : Option Nat
  deriving DecidableEq, Repr

/-- A dispatch to a Shuttle, and what comes in its fclk (R217, R264): a write of a port's CHP_CTL, which acts before it, and a write of
a VI's CHS_VI_v_CFG, which acts after it. -/
structure DispatchWith where
  shuttle : Nat
  port : Option (Nat × Word)
  cfg : Option (Nat × Word)
  deriving DecidableEq, Repr

/-- The INIT control message of R247. -/
structure InitMsg where
  version : Nat
  credits : Nat
  fseq : Nat
  kind : Nat
  mid : Nat
  ident : Word
  deriving DecidableEq, Repr

/-- A Weft frame: the header of R254, its payload and the result of its CRC-32C. `rzOk` says that every
reserved-zero field is zero. -/
structure Frame where
  typ : Nat
  smid : Nat
  ver : Nat
  session : Nat
  subch : Nat
  device : Nat
  seq : Nat
  len : Nat
  poison : Bool
  last : Bool
  count : Nat
  cmd : Nat
  md : Nat
  ccwno : Nat
  dstat : BitVec 16
  rzOk : Bool
  crcOk : Bool
  payload : List Byte
  deriving DecidableEq, Repr

/-- What comes from the device in the fclk of a timeout and stands over it (R217, R264). -/
inductive FinalStatus where
  | nvme (c : NvmeEnd)
  | frame (p : Nat) (f : Frame)
  deriving DecidableEq, Repr

/-- The timeout of the operation in a cell, and the final status of its device when that comes in the same fclk (R217, R218). -/
structure TimeoutWith where
  cell : Nat
  final : Option FinalStatus
  deriving DecidableEq, Repr

/-- A data frame received, and the sector of its data whose check fails at the handover to the fabric (R202, R203). -/
structure DataFrame where
  frame : Frame
  bad : Option Nat
  deriving DecidableEq, Repr

/-- Slot events of a PCIe port (R265). -/
inductive HotPlug where
  | presence (present : Bool)
  | attention
  | linkState (up : Bool)
  | power (on : Bool)
  deriving DecidableEq, Repr

/-- TLPs that a PCIe port receives (R242, R245): requests of the device, and the completion of an MMIO read. -/
inductive Tlp where
  | memRead (addr len : Nat)
  | memWrite (addr : Nat) (bytes : List Byte) (ep : Bool)
  | mmioCpl (cord : Nat) (v : Word)
  deriving DecidableEq, Repr

/-- A TLP received, and the sector of its data whose check fails at the handover to the fabric (R202, R203). -/
structure TlpIn where
  tlp : Tlp
  bad : Option Nat
  deriving DecidableEq, Repr

/-- Severity classes, lowest first (R295). -/
inductive Severity where
  | CE | DE | UC | UF
  deriving DecidableEq, Repr

/-- The rails of one signal pair when not idle (R296). -/
inductive Rails where
  | fault | bothLow | bothHigh
  deriving DecidableEq, Repr

/-- A report on a source's pair of class `sev`; `cord` is the cord whose read met the failed data and `line` the
clean or dirty line, for the reaction RETRY (R305). -/
structure Report where
  src : Nat
  sev : Severity
  rails : Rails
  far : Nat
  info : Word
  cord : Option Nat
  line : Option Nat
  deriving DecidableEq, Repr

/-- An announcement that reaches the manager: its link and bytes 0 to 159 of the identity record as words (R314). -/
structure Announcement where
  link : Nat
  ident : List Word
  deriving DecidableEq, Repr

/-- A heartbeat (R327). -/
structure Beat where
  mid : Nat
  pick : Nat
  epoch : Nat
  yields : Bool
  deriving DecidableEq, Repr

/-- A record of a configuration copy (R368); `crcOk` is its CRC check, `body` its 64-bit words. -/
structure ImgRecord where
  typ : Nat
  index : Nat
  crcOk : Bool
  bytes : Nat
  body : List Word
  deriving DecidableEq, Repr

/-- A configuration copy as the boot ROM reads it (R368, R369). -/
structure FlashCopy where
  readOk : Bool
  magic : Word
  format : Nat
  zeroOk : Bool
  length : Nat
  headerCrcOk : Bool
  imgver : Nat
  records : List ImgRecord
  endsAt : Nat
  keyOk : Bool
  sigOk : Bool
  deriving DecidableEq, Repr

/-- What a cold boot meets: the PROF pins, the two flash copies and whether a monitored rail is below its warning
threshold (R363, R372, R409). -/
structure BootInputs where
  prof : BitVec 2
  copyA : FlashCopy
  copyB : FlashCopy
  railLow : Bool
  deriving DecidableEq, Repr

/-- What a boot stage finds: channels that fail training, carry x8 devices or differ from the profile (R179), CXL
ports whose device is not enumerated (R267), and the delay increases of the tiles (R416). -/
structure StageResult where
  badChannels : List Nat
  notEnumerated : List Nat
  age : List Nat
  deriving DecidableEq, Repr

/-- What a warm reset meets: the SECDED check of the kept copy, the PROF pins, whether the claim word holds another module's
serial, and domains whose retention seals fail at the wake (R338, R359, R361, R372). -/
structure ResetInputs where
  copyOk : Bool
  prof : BitVec 2
  claim : Bool
  badSeals : List Nat
  deriving DecidableEq, Repr

/-- Journal states (R216). -/
inductive JState where
  | accepted | dispatched | active | ending | posted | retired
  deriving DecidableEq, Repr

/-- Where a channel operation's data-moving command stands on its device (R218, R258); `reading` says that its first data are being read
and nothing has been sent. -/
inductive DevState where
  | none | reading | sent | aborting | ended
  deriving DecidableEq, Repr

/-- A CCW of the command at hand: its address, COUNT and SUPL (R211). -/
structure RunCcw where
  addr : Nat
  count : Nat
  supl : Bool
  deriving DecidableEq, Repr

/-- A run of data bytes: module-physical and tenant-physical address and length. -/
structure Span where
  pa : Nat
  tpa : Nat
  len : Nat
  deriving DecidableEq, Repr

/-- A journal record and what its completion cell holds (R216, R220). `order`, `xform` and `notify` are the ORB's; `opened`
is the rclk of acceptance, `age` counts acceptances, `door` is the doorbell slot that still reads PENDING (R209). `first` is the program's first CCW. The command at
hand: `cmd` and its modifier `md`, its CCWs `run`, whether the program goes on after it (`more`), its data `spans`, the bytes moved
(`got`), of which `skip` are no data of the operation. `mark` is the rclk of the abort or of the Busy status.
`goal` is the status a confirmed abort gives, `status` with `faddr` a failure to report when the command ends, `cmds` the NVMe commands
of a split transfer that are still at the controller (R234), `stale` says that its data was laid out by translations invalidated since
(R205), `sense` the completion queue entry of one that failed, `past` the data of the commands that have ended, `half` that words 0 to 6
of the ring entry have gone to memory and `wrote` that word 7 has too. -/
structure JRec where
  state : JState
  vi : Nat
  orb : Nat
  subch : Nat
  seq : Nat
  prio : Nat
  tag : Nat
  notify : Bool
  ncord : Nat
  order : Bool
  xform : Bool
  xjob : Nat
  tmo : Nat
  opened : Nat
  age : Nat
  comp : Nat
  door : Option Nat
  first : Nat
  ccw : Nat
  ccwCount : Nat
  ccwno : Nat
  afterJump : Bool
  cmd : Nat
  md : Nat
  run : List RunCcw
  more : Bool
  spans : List Span
  got : Nat
  skip : Nat
  lba : Nat
  dev : DevState
  mark : Nat
  goal : Option Nat
  cmds : Nat
  stale : Bool
  sense : List Word
  past : List Span
  xdone : Bool
  endCcw : Nat
  resid : Nat
  moved : Nat
  status : Nat
  lenx : Bool
  dstat : BitVec 16
  faddr : Nat
  slot : Option Nat
  phase : Bool
  half : Bool
  wrote : Bool
  mirrored : Bool
  epoch : Nat
  shut : Option Nat
  deriving DecidableEq, Repr

/-- Checks that fail at an engine's handovers: the input sector that arrives bad and the output sector that leaves poisoned,
as tenant-physical addresses (R293). -/
structure EngBad where
  inp : Option Nat
  out : Option Nat
  deriving DecidableEq, Repr

/-- A commit word of the checkpoint region (R324). -/
structure CommitWord where
  epoch : Nat
  valid : Bool
  crcOk : Bool
  pick : Nat
  deriving DecidableEq, Repr

/-- An undo record (R322). -/
structure UndoRec where
  epoch : Nat
  line : Nat
  bytes : LineData
  poison : BitVec 4
  deriving DecidableEq, Repr

/-- A journal-mirror entry: the cell, the epoch of the capture that last wrote it, and the record (R324). -/
structure MirrorEntry where
  cell : Nat
  epoch : Nat
  crcOk : Bool
  jrec : JRec
  deriving DecidableEq, Repr

/-- What the twin reads from the checkpoint region (R323, R324, R332). Cords are context slot images of 512 words, `doors` the
ORB addresses of PENDING doorbells (VI × 64 + slot). -/
structure Checkpoint where
  wordA : CommitWord
  wordB : CommitWord
  undo : List UndoRec
  stores : List (Nat × LineMask × LineData)
  cords : List (Nat × List Word)
  halted : List Nat
  regs : List (Nat × Word)
  scbs : List (Nat × List Word)
  laps : List (Nat × Nat)
  ledger : List (Nat × Nat)
  doors : List (Nat × Nat)
  journal : List MirrorEntry
  deriving DecidableEq, Repr


/-- The commands: one constructor for each row of spec/opcode_table.json. -/
inductive Instr where
  /-- REGISTER_WRITE (R11). A host write to a control-window register that has no row of its own updates its fields,
      and refuses reserved encodings. -/
  | registerWrite (off : Nat) (v : Word) (same : List RegWrite)
  /-- PICK_BOUNDARY (R13). Every 12,800 rclk a pick ends and a new pick begins at beat 0. -/
  | pickBoundary
  /-- BEAT_BOUNDARY (R13). Every 200 rclk a beat ends and the next beat begins, under the ownership of the active
      heddle tables. -/
  | beatBoundary (h : HouseInputs)
  /-- MINUTE_BOUNDARY (R33). When the pick count reaches a multiple of 468,750, the ledger swaps banks, clears the
      new live bank and increments MINUTE. -/
  | minuteBoundary (age : List Nat)
  /-- PICKSYNC_IN_EDGE (R17). A worker takes a rising PICKSYNC_IN edge, accepts it or leaves it unused, and counts
      slips and synchronisation loss. -/
  | picksyncInEdge (dev : Int)
  /-- PICKSYNC_PULSE_CLASSIFIED (R17). A worker classifies a PICKSYNC pulse by its width as a pick or minute pulse,
      and places or withholds the minute boundary. -/
  | picksyncPulseClassified (width : Nat)
  /-- LOOM_SYNC_READ (R17). A read of LOOM_SYNC returns its fields and clears SLIPCNT. -/
  | loomSyncRead
  /-- LOOM_COMMIT (R21). A write of LOOM_COMMIT marks shadow heddle tables and the cord assignment table for loading
      at a chosen pick boundary. -/
  | loomCommit (v : Word)
  /-- FLUSH_STORE_BUFFER_MOVE (R419). Two microseconds after the boundary, store-buffer entries not yet performed
      move to the cord's flush claims and the outgoing state is saved. -/
  | flushStoreBufferMove (c : Nat)
  /-- FLUSH_DIRTY_WRITTEN (R27). The dirty lines of the cord's L1s and L2 share have been written to the tile's
      flush reserve. -/
  | flushDirtyWritten (c : Nat)
  /-- FLUSH_CACHES_INVALIDATED (R27). The L1s and the L2 share are invalidated, and the predictors and TLB entries
      of the outgoing tenant are cleared. -/
  | flushCachesInvalidated (c : Nat)
  /-- FLUSH_INCOMING_LOADED (R27). The incoming state has been loaded from the incoming CTX slot. -/
  | flushIncomingLoaded (c : Nat)
  /-- FLUSH_RELEASE (R27). Exactly 4,000 rclk after the boundary the cord is released to its new tenant or left
      idle. -/
  | flushRelease (c : Nat)
  /-- RESERVE_LINE_DRAIN (R31). In a house beat or an unowned beat, the flush reserve writes a line to its home, and
      returns the claim once the claim's lines and moved stores have all completed. -/
  | reserveLineDrain (tile claim : Nat)
  /-- RESERVE_STORE_PERFORM (R419). The reserve performs a store moved into a flush claim, in program order, under
      the outgoing tenant's ID. -/
  | reserveStorePerform (tile claim : Nat)
  /-- WAITING_REQUEST_ISSUE (R25). A request that waited for a beat its tenant owns or borrows is issued to the
      device when that beat comes. -/
  | waitingRequestIssue (table tenant : Nat)
  /-- RETIRE_GROUP_VOTE (R45). The voter compares a retire group's signatures or an outgoing request across the
      strands, and passes, resynchronises, retries or halts. -/
  | retireGroupVote (t : Nat) (cmp : Comparison)
  /-- RESYNC_RESTART (R46). The checkpoint and store-buffer contents have been loaded into the minority strand, and
      all three strands restart with their stagger. -/
  | resyncRestart (t : Nat)
  /-- CONTEXT_SAVE_TIMEOUT (R418). A context-slot write that is not acknowledged within 8,000 fclk makes the save
      incomplete, with UC and CTXV left at 0. -/
  | contextSaveTimeout (c addr : Nat)
  /-- STRAND_CHECK_ERROR (R51). A strand's internal check in Split execution detects an error, which is corrected,
      retried, or declared a hard fault. -/
  | strandCheckError (t : Nat) (e : StrandError)
  /-- MIGRATION_STORES_DRAINED (R53). The failing strand's retired stores have drained to the L2, and entries that
      fail ECC are poisoned. -/
  | migrationStoresDrained (t : Nat) (bad : List Nat)
  /-- MIGRATION_SPARE_ON (R53). Strand C is powered on and released from reset, and its L1s are invalidated. -/
  | migrationSpareOn (t : Nat)
  /-- MIGRATION_STATE_COPIED (R53). The retire checkpoint, cord number, tenant and retire count have been copied to
      strand C. -/
  | migrationStateCopied (t : Nat)
  /-- MIGRATION_COMPLETE (R53). The failing strand is fenced, SPARE and TSTATE are updated, CE is reported, and C
      resumes the cord. -/
  | migrationComplete (t : Nat)
  /-- TRI_RESUME (R57). A write of a RESUME bit of TRI_CTL requests the restart of a halted cord from its context
      slot at the next eligible pick boundary. -/
  | triResume (t : Nat) (v : Word)
  /-- VOTER_SELF_TEST_DONE (R60). The voter self-test ends and sets DONE and PASS, or marks the triad UNUSABLE and
      reports UC. -/
  | voterSelfTestDone (t : Nat) (bad : List LaneFail)
  /-- DEBUG_HALT (R374). A management-port HALT command stops a cord for the debugger. -/
  | debugHalt (c : Nat)
  /-- DEBUG_RESUME (R61). A debugger RESUME command restarts a stopped cord, and the action is logged for strands B
      and C. -/
  | debugResume (c : Nat)
  /-- DEBUG_STEP (R62). A debugger STEP command retires one retire group on all three strands. -/
  | debugStep (c : Nat)
  /-- DEBUG_STATE_WRITE (R61). A debugger write of strand A's architected state is logged for B and C at its retire
      count. -/
  | debugStateWrite (c : Nat) (what : DebugReg) (v : Word)
  /-- DEBUG_MEMORY_WRITE (R62). A debugger memory write leaves the triad once through the voter, and the L2
      invalidates the line in the three L1Ds. -/
  | debugMemoryWrite (c addr : Nat) (bytes : List Byte)
  /-- DEBUG_STATE_READ (R374). A debugger command reads a cord's architected state or memory at tenant 0x000. -/
  | debugStateRead (c : Nat) (what : DebugReg)
  /-- DEBUG_LOG_READ (R374). A debugger command reads the triad's debug action log. -/
  | debugLogRead (t : Nat)
  /-- TRI_CNT_READ (R63). A read of TRI_CNT returns the saturating counters and clears them. -/
  | triCntRead (t : Nat)
  /-- EVENT_TRAP (R97). Between two instructions, the cord takes EVENT when EE is 1, its event queue is non-empty
      and its level allows it. -/
  | eventTrap (c : Nat)
  /-- FP_IMPRECISE_DELIVERY (R113). The cord takes FP_IMPRECISE before an FSYNC, before the sixteenth instruction
      after the PEND bit was set, or after a context load that found PEND set. -/
  | fpImpreciseDelivery (c : Nat)
  /-- NOP (R82). The instruction does nothing. -/
  | nop (a : Agent) (f : FO)
  /-- WAITE (R82). The cord waits until its event queue is non-empty. -/
  | waite (a : Agent) (f : FO)
  /-- WAITE_WAKE (R82). A waiting WAITE retires when a record enters the cord's event queue. -/
  | waiteWake (c : Nat)
  /-- RDCR (R72). The instruction reads a control register and pushes it. -/
  | rdcr (a : Agent) (f : FO)
  /-- WRCR (R72). The instruction pops a value and writes a control register, refusing reserved encodings with
      ILLEGAL. -/
  | wrcr (a : Agent) (f : FO)
  /-- TRET (R95). A trap return restores the level and EE from ESTAT, clears ACTIVE and resumes at EPC. -/
  | tret (a : Agent) (f : FO)
  /-- RDTIME (R82). The instruction pushes the rclk time derived from LOOM_PICK. -/
  | rdtime (a : Agent) (f : FO)
  /-- SSYNC (R70). The instruction spills the whole stack cache. -/
  | ssync (a : Agent) (f : FO)
  /-- EVPOP (R97). The instruction removes the oldest event record and pushes its value and descriptor, or 0 and 0. -/
  | evpop (a : Agent) (f : FO)
  /-- SIGNAL (R82). The instruction queues an inter-cord signal record to a target cord. -/
  | signal (a : Agent) (f : FO)
  /-- RETG (R96). A gate return checks and pops the results, return address and old PSTATE, and returns to the
      caller's level. -/
  | retg (a : Agent) (f : FO)
  /-- RDAG (R82). The instruction pushes one part of an address generator. -/
  | rdag (a : Agent) (f : FO)
  /-- WRAG (R82). The instruction writes one part of an address generator. -/
  | wrag (a : Agent) (f : FO)
  /-- TLBI_VA (R125). The instruction invalidates the current tenant's TLB entries for one page in every TLB of the
      bolt. -/
  | tlbiVa (a : Agent) (f : FO)
  /-- TLBI_ASID (R125). The instruction invalidates the current tenant's non-global TLB entries of one ASID. -/
  | tlbiAsid (a : Agent) (f : FO)
  /-- TLBI_S1ALL (R125). The instruction invalidates every TLB entry of the current tenant. -/
  | tlbiS1all (a : Agent) (f : FO)
  /-- TLBI_IPA (R125). The instruction invalidates a tenant's TLB entries derived from one stage-2 page. -/
  | tlbiIpa (a : Agent) (f : FO)
  /-- TLBI_TENANT (R125). The instruction invalidates every TLB entry of a tenant. -/
  | tlbiTenant (a : Agent) (f : FO)
  /-- TLBSYNC (R125). The instruction waits until the cord's earlier TLBIs have been applied everywhere. -/
  | tlbsync (a : Agent) (f : FO)
  /-- TLBSYNC_COMPLETE (R125). TLBSYNC retires once every earlier TLBI of the cord is applied in every TLB and every
      affected walk has ended. -/
  | tlbsyncComplete (c : Nat)
  /-- DROP (R83). The instruction pops one entry. -/
  | drop (a : Agent) (f : FO)
  /-- DUP (R83). The instruction duplicates the top entry. -/
  | dup (a : Agent) (f : FO)
  /-- SWAP (R83). The instruction exchanges the two top entries. -/
  | swap (a : Agent) (f : FO)
  /-- OVER (R83). The instruction pushes a copy of the second entry. -/
  | over (a : Agent) (f : FO)
  /-- ROT (R83). The instruction rotates the three top entries. -/
  | rot (a : Agent) (f : FO)
  /-- NIP (R83). The instruction removes the second entry. -/
  | nip (a : Agent) (f : FO)
  /-- DUPN (R83). The instruction pushes a copy of entry N. -/
  | dupn (a : Agent) (f : FO)
  /-- XCHN (R83). The instruction exchanges entry 0 with entry N. -/
  | xchn (a : Agent) (f : FO)
  /-- DROPN (R83). The instruction pops N entries. -/
  | dropn (a : Agent) (f : FO)
  /-- DEPTH (R83). The instruction pushes the stack depth. -/
  | depth (a : Agent) (f : FO)
  /-- GETSP (R83). The instruction pushes SP. -/
  | getsp (a : Agent) (f : FO)
  /-- SETSP (R71). The instruction sets SP to a popped value, within SL and SB, after spilling the stack cache. -/
  | setsp (a : Agent) (f : FO)
  /-- PUSH (R83). The instruction pushes a sign-extended 22-bit immediate. -/
  | push (a : Agent) (f : FI)
  /-- PUSHH (R83). The instruction shifts the top entry left by 21 and ORs in a 21-bit immediate. -/
  | pushh (a : Agent) (f : FH)
  /-- ADD (R84). The instruction adds two entries. -/
  | add (a : Agent) (f : FO)
  /-- SUB (R84). The instruction subtracts two entries. -/
  | sub (a : Agent) (f : FO)
  /-- ADC (R84). The instruction adds with carry. -/
  | adc (a : Agent) (f : FO)
  /-- SBC (R84). The instruction subtracts with borrow. -/
  | sbc (a : Agent) (f : FO)
  /-- AND (R84). The instruction performs a bitwise AND. -/
  | and (a : Agent) (f : FO)
  /-- OR (R84). The instruction performs a bitwise OR. -/
  | or (a : Agent) (f : FO)
  /-- XOR (R84). The instruction performs a bitwise XOR. -/
  | xor (a : Agent) (f : FO)
  /-- ANDN (R84). The instruction performs a AND NOT b. -/
  | andn (a : Agent) (f : FO)
  /-- NOT (R84). The instruction inverts the top entry. -/
  | not (a : Agent) (f : FO)
  /-- NEG (R84). The instruction negates the top entry. -/
  | neg (a : Agent) (f : FO)
  /-- SXB (R84). The instruction sign-extends the low byte. -/
  | sxb (a : Agent) (f : FO)
  /-- SXH (R84). The instruction sign-extends the low 16 bits. -/
  | sxh (a : Agent) (f : FO)
  /-- SXW (R84). The instruction sign-extends the low 32 bits. -/
  | sxw (a : Agent) (f : FO)
  /-- ZXW (R84). The instruction zero-extends the low 32 bits. -/
  | zxw (a : Agent) (f : FO)
  /-- POPC (R84). The instruction counts the 1 bits. -/
  | popc (a : Agent) (f : FO)
  /-- CLZ (R84). The instruction counts the leading zeros. -/
  | clz (a : Agent) (f : FO)
  /-- ADDI (R84). The instruction adds a sign-extended immediate. -/
  | addi (a : Agent) (f : FO)
  /-- ANDI (R84). The instruction ANDs a zero-extended immediate. -/
  | andi (a : Agent) (f : FO)
  /-- ORI (R84). The instruction ORs a zero-extended immediate. -/
  | ori (a : Agent) (f : FO)
  /-- XORI (R84). The instruction XORs a zero-extended immediate. -/
  | xori (a : Agent) (f : FO)
  /-- SHL (R85). The instruction shifts left. -/
  | shl (a : Agent) (f : FO)
  /-- SHR (R85). The instruction shifts right logically. -/
  | shr (a : Agent) (f : FO)
  /-- SAR (R85). The instruction shifts right arithmetically. -/
  | sar (a : Agent) (f : FO)
  /-- ROL (R85). The instruction rotates left. -/
  | rol (a : Agent) (f : FO)
  /-- ROR (R85). The instruction rotates right. -/
  | ror (a : Agent) (f : FO)
  /-- MUL (R101). The instruction pushes the low 64 bits of the product. -/
  | mul (a : Agent) (f : FO)
  /-- MULHS (R101). The instruction pushes the high 64 bits of the signed product. -/
  | mulhs (a : Agent) (f : FO)
  /-- MULHU (R101). The instruction pushes the high 64 bits of the unsigned product. -/
  | mulhu (a : Agent) (f : FO)
  /-- DIVS (R103). The instruction performs a signed division, trapping DIVZERO on zero and saturating MIN ÷ −1. -/
  | divs (a : Agent) (f : FO)
  /-- DIVU (R101). The instruction performs an unsigned division, trapping DIVZERO on zero. -/
  | divu (a : Agent) (f : FO)
  /-- REMS (R101). The instruction computes a signed remainder. -/
  | rems (a : Agent) (f : FO)
  /-- REMU (R101). The instruction computes an unsigned remainder. -/
  | remu (a : Agent) (f : FO)
  /-- CMP (R85). The instruction sets FLAGS as a subtraction. -/
  | cmp (a : Agent) (f : FO)
  /-- TST (R85). The instruction sets N and Z as an AND. -/
  | tst (a : Agent) (f : FO)
  /-- CMPI (R85). The instruction compares with an immediate. -/
  | cmpi (a : Agent) (f : FO)
  /-- SETF (R85). The instruction pushes 1 when a condition holds, and 0 otherwise. -/
  | setf (a : Agent) (f : FO)
  /-- LOAD (R86). The instruction forms an address, translates and checks it, and pushes the zero-extended data. -/
  | load (a : Agent) (f : FM)
  /-- STORE (R86). The instruction forms an address, translates it, and enters the store into the store buffer. -/
  | store (a : Agent) (f : FM)
  /-- LOAD_RESERVED (R133). The instruction loads and sets the cord's reservation on the granule. -/
  | loadReserved (a : Agent) (f : FM)
  /-- STORE_CONDITIONAL (R135). The instruction stores and pushes 1 when the reservation holds, and otherwise pushes
      0. -/
  | storeConditional (a : Agent) (f : FM)
  /-- FAR_ATOMIC (R175). The instruction performs an atomic operation at the line's home and pushes the old value. -/
  | farAtomic (a : Agent) (f : FA)
  /-- ZLINE (R158). The instruction allocates a line in M with all its sectors zero and dirty. -/
  | zline (a : Agent) (f : FL)
  /-- CLEAN (R158). The instruction writes every dirty sector of the line to its home and keeps the copies clean. -/
  | clean (a : Agent) (f : FL)
  /-- FLUSH (R158). The instruction cleans the line and then invalidates every copy. -/
  | flush (a : Agent) (f : FL)
  /-- INVAL (R158). The instruction invalidates every copy of the line and discards dirty data. -/
  | inval (a : Agent) (f : FL)
  /-- PFR (R158). The instruction prefetches the line for reading, and does nothing when that would fault. -/
  | pfr (a : Agent) (f : FL)
  /-- PFW (R158). The instruction prefetches the line with write intent, and does nothing when that would fault. -/
  | pfw (a : Agent) (f : FL)
  /-- ICINV (R158). The instruction invalidates the line in every L1I of the bolt. -/
  | icinv (a : Agent) (f : FL)
  /-- FADD (R106). The instruction performs a floating-point add. -/
  | fadd (a : Agent) (f : FF)
  /-- FSUB (R106). The instruction performs a floating-point subtract. -/
  | fsub (a : Agent) (f : FF)
  /-- FMUL (R106). The instruction performs a floating-point multiply. -/
  | fmul (a : Agent) (f : FF)
  /-- FDIV (R106). The instruction performs a floating-point divide. -/
  | fdiv (a : Agent) (f : FF)
  /-- FSQRT (R106). The instruction computes a floating-point square root. -/
  | fsqrt (a : Agent) (f : FF)
  /-- FMA (R106). The instruction computes a fused multiply-add. -/
  | fma (a : Agent) (f : FF)
  /-- FNMA (R106). The instruction computes a negated fused multiply-add. -/
  | fnma (a : Agent) (f : FF)
  /-- FMIN (R110). The instruction computes minimumNumber. -/
  | fmin (a : Agent) (f : FF)
  /-- FMAX (R110). The instruction computes maximumNumber. -/
  | fmax (a : Agent) (f : FF)
  /-- FNEG (R110). The instruction flips the sign bit. -/
  | fneg (a : Agent) (f : FF)
  /-- FABS (R110). The instruction clears the sign bit. -/
  | fabs (a : Agent) (f : FF)
  /-- FCPYS (R110). The instruction copies a sign. -/
  | fcpys (a : Agent) (f : FF)
  /-- F2I (R110). The instruction converts to a signed 64-bit integer. -/
  | f2i (a : Agent) (f : FF)
  /-- F2U (R110). The instruction converts to an unsigned 64-bit integer. -/
  | f2u (a : Agent) (f : FF)
  /-- I2F (R106). The instruction converts a signed integer to floating point. -/
  | i2f (a : Agent) (f : FF)
  /-- U2F (R106). The instruction converts an unsigned integer to floating point. -/
  | u2f (a : Agent) (f : FF)
  /-- FCVT (R110). The instruction converts between binary32 and binary64. -/
  | fcvt (a : Agent) (f : FF)
  /-- FRINT (R110). The instruction rounds to an integral value. -/
  | frint (a : Agent) (f : FF)
  /-- FCMP (R111). The instruction compares quietly and sets FLAGS. -/
  | fcmp (a : Agent) (f : FF)
  /-- FCMPE (R111). The instruction compares, signals on any NaN, and sets FLAGS. -/
  | fcmpe (a : Agent) (f : FF)
  /-- FCLASS (R111). The instruction pushes a class mask. -/
  | fclass (a : Agent) (f : FF)
  /-- B (R90). The instruction branches relative to the PC. -/
  | b (a : Agent) (f : FB)
  /-- CALL (R90). The instruction pushes the return address and branches. -/
  | call (a : Agent) (f : FB)
  /-- JMP (R90). The instruction jumps to a popped target. -/
  | jmp (a : Agent) (f : FO)
  /-- CALLI (R90). The instruction pushes the return address and jumps to a popped target. -/
  | calli (a : Agent) (f : FO)
  /-- RET (R90). The instruction returns to a popped target. -/
  | ret (a : Agent) (f : FO)
  /-- KNOT (R141). The instruction checks stack room, orders as FBAR, records the handler and the stack copy, and
      opens a knot. -/
  | knot (a : Agent) (f : FO)
  /-- CINCH (R145). The instruction waits for the knot stores to leave the store buffer, in order to commit the
      knot. -/
  | cinch (a : Agent) (f : FO)
  /-- CINCH_COMMIT (R145). All knot marks clear in one fclk, which makes the write set visible, releases the read
      set and closes the knot. -/
  | cinchCommit (c : Nat)
  /-- SLIP (R147). The instruction retires and slips the open knot with cause EXPLICIT. -/
  | slip (a : Agent) (f : FO)
  /-- KTEST (R90). The instruction pushes 1 inside a knot, and 0 otherwise. -/
  | ktest (a : Agent) (f : FO)
  /-- KNOT_AGE_EXPIRY (R148). A knot open 25,600 rclk after KNOT slips with cause AGE. -/
  | knotAgeExpiry (c : Nat)
  /-- LBAR (R129). The barrier orders earlier loads before later loads. -/
  | lbar (a : Agent) (f : FO)
  /-- SBAR (R138). The barrier waits for earlier stores to be performed or to bounce. -/
  | sbar (a : Agent) (f : FO)
  /-- FBAR (R138). The barrier waits for every earlier access to be performed or to bounce. -/
  | fbar (a : Agent) (f : FO)
  /-- FSYNC (R114). The instruction waits for earlier floating-point operations, and traps FP_IMPRECISE when PEND is
      set. -/
  | fsync (a : Agent) (f : FO)
  /-- BARRIER_RETIRE (R138). A waiting barrier retires once its accesses are performed, or traps STORE_BOUNCED for
      the oldest bounced store. -/
  | barrierRetire (c : Nat)
  /-- SYSCALL (R93). The instruction traps SYSCALL. -/
  | syscall (a : Agent) (f : FO)
  /-- GATE (R96). The instruction checks a gate entry and enters the higher level with its arguments. -/
  | gate (a : Agent) (f : FO)
  /-- BREAK (R90). The instruction traps DEBUG. -/
  | break (a : Agent) (f : FO)
  /-- STORE_BOUNCE_TIMEOUT (R137). A store without an acknowledgement 8,000 fclk after leaving the store buffer
      bounces. -/
  | storeBounceTimeout (c : Nat)
  /-- RD_S (R169). A home serves a shareable read request by its directory state. -/
  | rdS (q : Req)
  /-- RD_O (R169). A home serves a read with write intent and grants M. -/
  | rdO (q : Req)
  /-- RD_OZ (R169). A home grants ownership without data and discards the other copies. -/
  | rdOz (q : Req)
  /-- UPG (R169). A home upgrades a sharer or owner to M. -/
  | upg (q : Req)
  /-- RD_ONCE (R169). A home serves a read without caching. -/
  | rdOnce (q : Req)
  /-- WR_LINE (R176). A home invalidates every copy and writes a full line. -/
  | wrLine (q : Req) (bytes : LineData) (poison : BitVec 4)
  /-- WR_PART (R176). A home takes a merge-buffer entry, obtains the line, merges the bytes and writes it. -/
  | wrPart (q : Req) (mask : LineMask) (bytes : WrData)
  /-- ATOM (R175). A home snoops the line, applies the atomic operation in its ALU, writes the line and returns the
      old value. -/
  | atom (q : Req) (addr : Nat) (wide : Bool) (aop : BitVec 4) (x y : Word)
  /-- CMO (R158). A home performs a cache-maintenance request on every copy of the line. -/
  | cmo (q : Req) (op : CmoOp)
  /-- SNP_S (R170). A cache forwards the line and keeps a shared or owned copy. -/
  | snpS (m : Snoop)
  /-- SNP_C (R170). A cache forwards the line and keeps its state. -/
  | snpC (m : Snoop)
  /-- SNP_O (R170). A cache forwards the line and invalidates it. -/
  | snpO (m : Snoop)
  /-- SNP_I (R170). A cache sends its dirty sectors to the home and invalidates the line. -/
  | snpI (m : Snoop)
  /-- SNP_IZ (R170). A cache invalidates the line and discards it. -/
  | snpIz (m : Snoop)
  /-- SNP_L1I (R170). A cache invalidates the line in its L1I only. -/
  | snpL1i (m : Snoop)
  /-- HITCH_TIME_EXPIRY (R168). After 64 sclk of hitch time, a snoop waiting in the L2 snoop queue proceeds. -/
  | hitchTimeExpiry (agent line : Nat)
  /-- WB_D (R171). A home takes a dirty writeback, or holds it while a snoop is outstanding, and acknowledges it.
      The line and its sectors come with it from another module; this module's stand in the eviction buffer. -/
  | wbD (agent : Nat) (entry : WbData)
  /-- WB_C (R169). A home takes a clean eviction notice and updates its directory. -/
  | wbC (agent : Nat) (entry : WbNote)
  /-- CMP_GRANT (R165). A requester receives its CMP grant and installs the line in the granted state. -/
  | cmpGrant (agent line : Nat) (st : GrantMsg)
  /-- RSP_I (R170). A home receives an invalid response to a snoop. -/
  | rspI (agent line : Nat)
  /-- RSP_S (R170). A home receives a shared response and supplies the data itself. -/
  | rspS (agent line : Nat)
  /-- RSP_FWD (R170). A home receives notice that the owner forwarded the data. -/
  | rspFwd (agent line : Nat) (dirty : BitVec 4)
  /-- RSP_EVICTING (R172). A home sets the pending-eviction bit, completes the transaction and discards the crossing
      WB later. -/
  | rspEvicting (agent line entry : Nat) (dirty : BitVec 4)
  /-- WB_ACK (R172). An L2 receives WB_ACK and frees its eviction-buffer entry. -/
  | wbAck (agent entry : Nat)
  /-- DATA (R165). A requester receives data sectors into the buffer it reserved. -/
  | data (agent line : Nat) (bytes : LineData) (valid dirty poison : BitVec 4) (victim : Option Nat)
  /-- SHARED_WRITE_THROUGH (R321). On an active spliced module a dirty sector of a SHARED line is sent to its home
      within 64 fclk, and the line stays clean. -/
  | sharedWriteThrough (agent line : Nat)
  /-- RANGE_CLEAN (R161). A CRD_RNGCTL GO with OP CLEAN starts cleaning a range of lines in the triad's L1s and L2. -/
  | rangeClean (t : Nat) (v : Word)
  /-- RANGE_FLUSH (R161). A CRD_RNGCTL GO with OP FLUSH starts invalidation by range. -/
  | rangeFlush (t : Nat) (v : Word)
  /-- RANGE_OP_DONE (R161). The range operation ends when every writeback is acknowledged, and BUSY clears. -/
  | rangeOpDone (t : Nat)
  /-- CACHE_DISABLE (R163). A CRD_CTL write disables or re-enables a cord's L1I, L1D or L2 share. -/
  | cacheDisable (t : Nat) (v : Word)
  /-- CRD_LOCKINV_READ (R160). A read of CRD_LOCKINV returns its count and clears it. -/
  | crdLockinvRead (t : Nat)
  /-- COH_CNT_READ (R174). A read of COH_CNT returns the counters and clears them. -/
  | cohCntRead (h : Nat)
  /-- MEM_SELV_READ (R183). A read of MEM_SELV returns the refusal count and clears it. -/
  | memSelvRead (ctl : Nat)
  /-- KEY_LOAD (R186). MEM_KEYCMD LOAD loads a memory key slot in every controller from MEM_KEYDATA. -/
  | keyLoad (v : Word)
  /-- KEY_GENERATE (R186). MEM_KEYCMD GENERATE creates a memory key slot internally. -/
  | keyGenerate (v : Word)
  /-- KEY_ERASE (R186). MEM_KEYCMD ERASE empties a memory key slot. -/
  | keyErase (v : Word)
  /-- MEM_KEYCMD_DONE (R186). A memory key command completes, and BUSY clears. -/
  | memKeycmdDone
  /-- DEVICE_MARK (R191). A write of MEM_MARK_k marks or unmarks a failed device for later reads. -/
  | deviceMark (ctl rank : Nat) (v : Word)
  /-- FILL_DONE (R192). A controller finishes writing zero code words to its memory and sets DONE. -/
  | fillDone (ctl : Nat)
  /-- SHARED_MARKER_POLL (R193). A non-holder reads a SHARED region's marker every 1 ms until it is valid. -/
  | sharedMarkerPoll (ctl region : Nat) (seen : Bool)
  /-- SHARED_FILL_TIMEOUT (R193). When the FILLWAIT seconds expire, the SHARED region is left unfilled as a hole,
      SHWAIT is set and UC is reported. -/
  | sharedFillTimeout (ctl region : Nat)
  /-- MERGE_ENTRY_CLOSE (R195). A controller merge entry closes and performs a read-modify-write, 64 fclk after its
      first write or at the closed-weave cut-off. -/
  | mergeEntryClose (ctl sector : Nat)
  /-- VI_DOORBELL (R208). A write of an ORB address to a doorbell slot starts acceptance, or sets COLLIDE while
      PENDING. -/
  | viDoorbell (vi slot : Nat) (v : Word) (w : Who)
  /-- ACCEPTANCE (R208). With the ORB data in hand, the acceptor checks it, takes cells, assigns SEQ, journals and
      queues the operation, or refuses it. -/
  | acceptance (vi : Nat) (slot : AcceptWith)
  /-- ACCEPTANCE_MIRRORED (R209). On a spliced module an acceptance reads ACCEPTED at the end of the house beat that
      mirrored its record. -/
  | acceptanceMirrored (vi slot : Nat)
  /-- SC_READ (R219). CHS_SCCMD READ copies an SCB into CHS_SCDATA. -/
  | scRead (v : Word)
  /-- SC_BIND (R420). CHS_SCCMD BIND binds a FREE subchannel to a VI, port and target, possibly setting it LOST. -/
  | scBind (v : Word) (probe : BindProbe)
  /-- SC_UNBIND (R219). CHS_SCCMD UNBIND frees a subchannel with no open operation. -/
  | scUnbind (v : Word)
  /-- SC_HALT (R219). CHS_SCCMD HALT moves a BOUND subchannel to HALTED. -/
  | scHalt (v : Word)
  /-- SC_CLEARHALT (R219). CHS_SCCMD CLEARHALT returns a HALTED subchannel to BOUND. -/
  | scClearhalt (v : Word)
  /-- SHUTTLE_DISPATCH (R224). A Shuttle takes the highest-priority oldest journal record of its subchannels and
      moves it to DISPATCHED. -/
  | shuttleDispatch (n : DispatchWith)
  /-- CCW_READ (R212). A Shuttle runs a READ command that moves device data to memory. -/
  | ccwRead (cell : Nat)
  /-- CCW_WRITE (R212). A Shuttle runs a WRITE command that moves memory data to the device. -/
  | ccwWrite (cell : Nat)
  /-- CCW_CONTROL (R234). A Shuttle runs a CONTROL command such as LOCATE, Flush or Deallocate. -/
  | ccwControl (cell : Nat)
  /-- CCW_SENSE (R212). A Shuttle returns the subchannel's sense record. -/
  | ccwSense (cell : Nat)
  /-- CCW_NOP (R212). A Shuttle passes a NOP command. -/
  | ccwNop (cell : Nat)
  /-- CCW_JUMP (R212). A Shuttle continues the channel program at ADDR. -/
  | ccwJump (cell : Nat)
  /-- NVME_COMPLETION (R234). An NVMe completion ends a command and gives the operation its status. -/
  | nvmeCompletion (cell : Nat) (c : NvmeEnd)
  /-- OPERATION_POSTED (R216). Once the final status is known and all writes and dirty-log bits are acknowledged,
      the completion record is made in its cell. -/
  | operationPosted (cell : Nat)
  /-- COMPLETION_RING_WRITE (R221). A POSTED record is written to the VI's completion ring when there is room, dirty
      bit first and PHASE last. -/
  | completionRingWrite (vi : Nat)
  /-- OPERATION_RETIRE (R216). On acknowledgement of the ring write both cells are freed, OPEN decreases, and a
      notify event is sent. -/
  | operationRetire (cell : Nat)
  /-- OPERATION_TIMEOUT (R218). An operation's timeout expires: it completes TIMEOUT, or its command is aborted. -/
  | operationTimeout (cell : TimeoutWith)
  /-- ABORT_CONFIRM_TIMEOUT (R218). With no abort confirmation within 100 ms, the operation completes TIMEOUT and
      the subchannel is set LOST. -/
  | abortConfirmTimeout (cell : Nat)
  /-- CQ_TAIL_WRITE (R221). Tenant software advances VI_CQTAIL, freeing ring entries for waiting POSTED records. -/
  | cqTailWrite (vi : Nat) (v : Word) (w : Who)
  /-- RINGFAULT_CLEAR (R421). A write of 1 to RINGFAULT rewrites the failed entry and resumes posting. -/
  | ringfaultClear (vi : Nat) (v : Word)
  /-- VI_ENABLE (R236). A write of CHS_VI_v_CFG.EN enables the VI and resets its ring pointers and lap, or disables
      it when nothing is queued. -/
  | viEnable (vi : Nat) (v : Word)
  /-- VI_SUSPEND (R237). A write of SUSPEND makes acceptances refuse with SUSPENDED. -/
  | viSuspend (vi : Nat) (v : Word)
  /-- VI_CANCEL (R237). SUSPEND written with CANCEL completes every ACCEPTED operation of the VI with SUSPENDED. -/
  | viCancel (vi : Nat) (v : Word)
  /-- VI_QUOTA_WRITE (R225). A write of a VI's quota changes its pool reservation, or is refused with QREFUSE. -/
  | viQuotaWrite (vi : Nat) (v : Word)
  /-- EVQ_QUOTA_WRITE (R225). A write of CHS_EVQ_c.QUOTA changes the event-queue reservation, or is refused with
      QREFUSE. -/
  | evqQuotaWrite (c : Nat) (v : Word)
  /-- DC_INVALIDATE (R235). CHS_DCINV GO starts an invalidation of the descriptor cache. -/
  | dcInvalidate (v : Word)
  /-- DC_INVALIDATE_DONE (R235). The descriptor-cache invalidation completes after 8,192 fclk, and BUSY clears. -/
  | dcInvalidateDone
  /-- DESCRIPTOR_CACHE_ENABLE (R164). A write of CHS_CFG.DCEN disables or re-enables the descriptor cache. -/
  | descriptorCacheEnable (v : Word)
  /-- SHUTTLE_BEAT_STOP (R231). At rclk 190 of a tenant's last owned beat the Shuttle stops its firmware and saves
      the running context. -/
  | shuttleBeatStop (n : Nat)
  /-- SHUTTLE_RESTART (R233). A halted or UC Shuttle is block-reset and reloaded, or becomes FAILED after three
      restarts within 60 s. -/
  | shuttleRestart (n : Nat)
  /-- SHUTTLE_RESTART_DONE (R233). The restarted Shuttle redispatches or resends its operations, or completes PCIe
      ones DEVICE_LOST. -/
  | shuttleRestartDone (n : Nat)
  /-- PORT_DISABLE (R241). CHP_CTL DISABLE takes a port out of service, or is refused when operations are open. -/
  | portDisable (p : Nat) (v : Word)
  /-- PORT_DISABLE_FORCE (R241). DISABLE written with FORCE cancels or aborts the port's open operations and
      releases the link. -/
  | portDisableForce (p : Nat) (v : Word)
  /-- PORT_ENABLE (R241). A write of DISABLE 0 retrains the port's link. -/
  | portEnable (p : Nat) (v : Word)
  /-- PORT_RETRAIN (R241). CHP_CTL RETRAIN retrains the link. -/
  | portRetrain (p : Nat) (v : Word)
  /-- INIT (R247). A Weft port receives an INIT control flit, and the link is UP once INIT has been received and its
      own INIT acknowledged. -/
  | init (p : Nat) (m : InitMsg)
  /-- INIT_RESEND (R246). Every 1 µs after equalisation each end sends INIT until the link is UP. -/
  | initResend (p : Nat)
  /-- LINK_RELEASE (R247). A received release message makes the port stop sending frames and idle until electrical
      idle. -/
  | linkRelease (p : Nat)
  /-- FLIT_RECEIVE (R249). A Weft flit is FEC-corrected, CRC-checked, accepted in FSEQ order, or dropped with a NAK. -/
  | flitReceive (p : Nat) (bytes : List Byte)
  /-- REPLAY_TIMEOUT (R250). A flit unacknowledged for 200 rclk causes a replay, and four replays without progress
      retrain the link. -/
  | replayTimeout (p : Nat)
  /-- LINK_HOLD_EXPIRY (R251). A link not UP again HOLDMS after leaving UP goes DOWN, its window and targets die,
      and its subchannels are set LOST. -/
  | linkHoldExpiry (p : Nat)
  /-- SESS_ACCEPT (R256). A control unit's answer accepts the session with or without dedupe state, or refuses it. -/
  | sessAccept (p session : Nat) (dstat : BitVec 16)
  /-- SESS_CLOSE (R255). A session is closed by either end. -/
  | sessClose (p session : Nat)
  /-- DATA_IN (R262). A data frame from the unit is written to memory, poisoned when flagged. -/
  | dataIn (p : Nat) (f : DataFrame)
  /-- STATUS (R260). A unit's ending status ends a command as OK, BAD_PROGRAM, DEVICE_LOST, DATA_CHECK or Busy. -/
  | status (p : Nat) (f : Frame)
  /-- DUPACK (R263). A DUPACK completes the operation DUPLICATE_ACK. -/
  | dupack (p : Nat) (f : Frame)
  /-- ABORT_DONE (R261). The unit confirms an abort, and later frames of that SEQ are discarded. -/
  | abortDone (p : Nat) (f : Frame)
  /-- REG_RSP (R255). The unit's register response completes a REG_RD or REG_WR. -/
  | regRsp (p : Nat) (f : Frame)
  /-- BUSY_RETRY (R260). 100 µs after a Busy status, the CMD is sent again. -/
  | busyRetry (cell : Nat)
  /-- CHP_WERR_READ (R250). A read of CHP_WERR returns its counters and clears them. -/
  | chpWerrRead (p : Nat)
  /-- DPC_CONTAINMENT (R265). DPC containment or device removal completes the port's operations DEVICE_LOST, sets
      subchannels LOST and reports UC. -/
  | dpcContainment (p : Nat)
  /-- PCIE_HOTPLUG_EVENT (R265). A PCIe slot event such as presence detect, an attention button or a data-link state
      change is taken. -/
  | pcieHotplugEvent (p : Nat) (ev : HotPlug)
  /-- ENGINE_RING_POLL (R270). At the first rclk of an owned or borrowed beat, or when idle, the engine reads the
      tenant's rings and starts the next job. -/
  | engineRingPoll (e : Nat)
  /-- ENGINE_JOB_END (R271). A job ends, and the engine writes the result words, saves context, sets DONE, advances
      CONS and notifies. -/
  | engineJobEnd (e : Nat) (bad : EngBad)
  /-- JOB_SUSPEND (R277). A job cut off at its tenant's run end or a slice boundary saves half 1 and clears the
      engine's state. -/
  | jobSuspend (e upTo : Nat)
  /-- RING_ENABLE (R270). A write of EN to an engine ring's configuration starts or stops polling, waking the engine
      when needed. -/
  | ringEnable (e ring : Nat) (v : Word)
  /-- RING_RESTART (R273). RESTART clears HALTED and runs the job at CONS again. -/
  | ringRestart (e ring : Nat) (v : Word)
  /-- KEYSLOT_LOAD (R283). CIP_KSCMD LOAD loads a cipher key slot and clears its counters. -/
  | keyslotLoad (v : Word)
  /-- KEYSLOT_GENERATE (R283). CIP_KSCMD GENERATE creates a cipher key internally and clears its counters. -/
  | keyslotGenerate (v : Word)
  /-- KEYSLOT_ERASE (R294). CIP_KSCMD ERASE empties a cipher key slot. -/
  | keyslotErase (v : Word)
  /-- WRAP_KEY_LOAD (R280). CIP_KSCMD LOAD with TARGET 1 replaces the engine wrap key. -/
  | wrapKeyLoad (v : Word)
  /-- WRAP_KEY_GENERATE (R280). CIP_KSCMD GENERATE with TARGET 1 generates a new wrap key. -/
  | wrapKeyGenerate (v : Word)
  /-- KSCMD_DONE (R283). A key-slot command completes, and BUSY clears. -/
  | kscmdDone
  /-- KEYSLOT_GRANT_WRITE (R294). A write of a key slot's GRANT or OWNER changes its use, and a GRANT 0 ends a
      running job KEY_SPENT. -/
  | keyslotGrantWrite (k : Nat) (v : Word)
  /-- ENGINE_PARITY_ERROR (R292). A parity error in engine state ends the job STATE_PARITY, clears state and reports
      CE. -/
  | engineParityError (e : Nat) (half : Option Nat)
  /-- FAULT_REPORT (R300). The FCU samples a source's report, writes or merges the record, counts it and applies the
      reaction. -/
  | faultReport (rs : List Report)
  /-- BLOCK_RESET_RELEASE (R306). After 100 rclk the block is released and initialises itself, with its work treated
      per block. -/
  | blockResetRelease (dom : Nat)
  /-- CONSEQ_WINDOW_CLOSE (R307). A reaction's consequential window closes at its end condition. -/
  | conseqWindowClose (i : Nat)
  /-- SAFE_STATE_COMPLETE (R308). Links are idle and DDR is in self-refresh, within 3,000 fclk of the UF. -/
  | safeStateComplete
  /-- FCU_RECORD_CLEAR (R302). A write of 1 to FCU_REC.VALID ends the record and clears MERGED and CONSEQ. -/
  | fcuRecordClear (v : Word) (same : List Report)
  /-- FCU_WIRE_CLEAR (R297). A write of 1 to FCU_SRC_k.WIRE resumes sampling of the source's pairs. -/
  | fcuWireClear (k : Nat) (v : Word)
  /-- FCU_CNT_READ (R303). A read of FCU_CNT_k returns the counts and clears them. -/
  | fcuCntRead (k : Nat)
  /-- FAULT_INJECT (R310). FCU_INJ GO in FACTORY drives a pattern onto a source's pair for 1 fclk. -/
  | faultInject (v : Word)
  /-- WARP_LINK_DOWN (R313). A warp link not UP 10 ms after leaving UP becomes DOWN, its messages move to another
      link, or the peer is lost. -/
  | warpLinkDown (link : Nat)
  /-- ADMISSION_ANNOUNCE (R314). Every millisecond an unadmitted worker sends its identity announcement on every UP
      link. -/
  | admissionAnnounce (src : Option Announcement)
  /-- NONCE_SEND (R315). A write of SPL_NONCE_3 sends the nonce to the presented candidate. -/
  | nonceSend (v : Word)
  /-- SIGNATURE_RECEIVED (R315). The candidate's signature arrives in SPL_IDENT, and SIGV is set. -/
  | signatureReceived (link : Nat) (sig : List Word)
  /-- ADMIT (R316). SPL_ADMIT OP ADMIT sends the candidate its MID, the member mask and the pick. -/
  | admitModule (v : Word)
  /-- ADMIT_STANDBY (R316). SPL_ADMIT OP ADMIT_STANDBY admits the candidate as the standby of a splice pair. -/
  | admitStandby (v : Word)
  /-- REJECT (R316). SPL_ADMIT OP REJECT refuses the candidate until its links retrain. -/
  | reject (v : Word)
  /-- ADMISSION_RECEIVED (R316). A worker takes its MID, adopts the pick at the next edge, releases its boot cord or
      enters STANDBY. -/
  | admissionReceived (mid : Nat) (members : BitVec 16) (pick : Nat) (standby : Bool)
  /-- CHECKPOINT_COMMIT (R324). Once all increment, write-through and undo writes are acknowledged, the commit word
      is written and EPOCH advances. -/
  | checkpointCommit
  /-- HEARTBEAT (R327). The arbitrator receives a heartbeat and clears MISSED, or decides on YIELD. -/
  | heartbeat (b : Beat)
  /-- HEARTBEAT_CHECK (R327). At rclk 12,750 a pick without a heartbeat counts as missed, and the third one decides
      a takeover. -/
  | heartbeatCheck
  /-- SPL_DECIDE (R328). A write of SPL_CTL.DECIDE decides a takeover at once. -/
  | splDecide (v : Word)
  /-- FENCE_OUT_RELEASE (R328). FENCE_OUT_n returns high 100 rclk after it was driven low. -/
  | fenceOutRelease
  /-- FENCE_IN (R329). FENCE_IN_n low fences an active module with UF, or wakes a STANDBY module. -/
  | fenceIn (low : Nat)
  /-- WARP_FENCE (R329). A received warp FENCE command makes the active module raise UF and take FENCE. -/
  | warpFence
  /-- FENCED (R336). A member receiving FENCED marks the MID dead and handles its loss. -/
  | fenced (mid : Nat)
  /-- TAKEOVER_WAKE_DONE (R330). The woken twin has its domains, DDR and links up, and writes its claim word. -/
  | takeoverWakeDone
  /-- CLAIM_WAIT_EXPIRY (R333). Two picks after its claim the twin loads the last committed checkpoint. -/
  | claimWaitExpiry (ck : Checkpoint)
  /-- CHECKPOINT_LOAD_DONE (R331). With the load complete, the twin sends REJOIN to every member. -/
  | checkpointLoadDone
  /-- REJOIN (R331). A member accepts or discards REJOIN, reroutes the alias to the twin and acknowledges. -/
  | rejoin (twin served : Nat) (epoch : Nat)
  /-- REJOIN_ACK (R331). Once all members have acknowledged, the twin sets ALIASV and releases protected cords at
      the next boundary. -/
  | rejoinAck (mid : Nat)
  /-- PLANNED_SWITCHOVER (R334). SPL_CTL.SWITCH refuses acceptances, commits a capture, yields and fences the active
      module. -/
  | plannedSwitchover (v : Word)
  /-- LEAVE (R335). SPL_LEAVE GO starts a worker's departure, or is refused. -/
  | leave (v : Word)
  /-- LEAVE_DRAIN_DONE (R335). After writeback and the home drain the module sends LEAVE, enters QUIESCE and sets
      DONE. -/
  | leaveDrainDone
  /-- LEAVE_MESSAGE (R335). A member receiving LEAVE clears the MID's membership and treats its addresses as holes. -/
  | leaveMessage (mid : Nat)
  /-- DOMAIN_REQUEST (R342). A write of PWR_DOM_d.REQ requests a domain state, or is ignored. -/
  | domainRequest (dom : Nat) (v : Word)
  /-- DOMAIN_TRANSITION_START (R342). Within 16 rclk of the request the domain begins its pre-exit steps or its
      switching. -/
  | domainTransitionStart (dom : Nat)
  /-- DOMAIN_DRAIN_TIMEOUT (R341). A pre-exit step not done within its bound refuses the entry and records the
      refuser. -/
  | domainDrainTimeout (dom : Nat)
  /-- DOMAIN_TRANSITION_DONE (R340). The domain reaches its new state, and BUSY clears. -/
  | domainTransitionDone (dom : Nat) (sealOk : Bool)
  /-- PWR_DARK_READ (R345). A read of PWR_DARK returns its count and clears it. -/
  | pwrDarkRead
  /-- PWR_REFCNT_READ (R343). A read of PWR_REFCNT_i returns its count and clears it. -/
  | pwrRefcntRead (i : Nat)
  /-- LIFECYCLE_RETAIN (R347). PWR_MODCMD RETAIN checks refusals and starts the module's entry into RETAIN. -/
  | lifecycleRetain (v : Word)
  /-- RETAIN_ENTERED (R347). With caches written back and domains sealed, the uncore clocks stop and the module is
      in RETAIN. -/
  | retainEntered
  /-- RETAIN_WAKE (R348). PWR_WAKE.GO ends RETAIN, restores domains with seal checks and releases cords within 2 ms. -/
  | retainWake (badSeals : List Nat)
  /-- PAD_RELEASE (R358). PWR_PADREL GO releases the latched pads of an I/O domain that is ON. -/
  | padRelease (v : Word)
  /-- RCLK_FREQ_ERROR (R351). An rclk frequency error beyond ±300 ppm raises CE. -/
  | rclkFreqError (ppm : Int)
  /-- CLOCK_LOSS (R351). A missing rclk edge for 50 ns, or a PLL lock loss, raises UF. -/
  | clockLoss (pll : Option Nat)
  /-- SUPPLY_WARN (R353). A rail below its warning threshold for 20 rclk raises CE and halves the affected sclk. -/
  | supplyWarn (rail : Nat)
  /-- HALVING_EXPIRY (R353). At the sixteenth pick boundary after the warning, or after 204,800 rclk before picks,
      the sclk returns to full rate. -/
  | halvingExpiry (tile : Nat)
  /-- RAIL_RESET (R353). A rail below its reset threshold for 100 rclk causes a cold reset. -/
  | railReset (rail : Nat)
  /-- STANDING_BROWNOUT (R356). The standing output below 0.69 V for 100 rclk causes a standing reset. -/
  | standingBrownout
  /-- THERMAL_THROTTLE (R412). A sensor at 95 °C or more raises CE and halves a tile's sclk. -/
  | thermalThrottle (sensor : Nat) (celsius : Nat)
  /-- THERMAL_TRIP (R412). A sensor at 100 °C raises UF and forces the safe state. -/
  | thermalTrip (sensor : Nat) (celsius : Nat)
  /-- POWER_ON (R360). VSTBY applied from absent brings the standing domain up and clears it. -/
  | powerOn
  /-- COLD_BOOT (R363). PWRGOOD rising starts the cold boot: image read, profile, self-tests, training and Fill. -/
  | coldBoot (b : BootInputs)
  /-- PWRGOOD_FALL (R360). PWRGOOD going low causes a cold reset. -/
  | pwrgoodFall
  /-- RAIL_WAIT_DONE (R409). When PWRGOOD rose with a rail low, the boot begins after all rails have been above
      warning for 1 ms. -/
  | railWaitDone
  /-- BOOT_STAGE_DONE (R363). A timed boot stage such as image read, training or reset invalidation completes and
      the next begins. -/
  | bootStageDone (r : StageResult)
  /-- BOOT_CORD_RELEASE (R365). At the first pick boundary after boot the boot cord is released at H, and PICK is 0. -/
  | bootCordRelease
  /-- WARM_RESET (R360). RESET_n held low resets the module warm, or promotes the reset to cold. -/
  | warmReset (low : Nat) (r : ResetInputs)
  /-- MOD_RST_WARM (R360). MOD_RST OP WARM requests a warm reset. -/
  | modRstWarm (v : Word) (r : ResetInputs)
  /-- MOD_RST_COLD (R360). MOD_RST OP COLD requests a cold reset. -/
  | modRstCold (v : Word)
  /-- I3C_ENTDAA (R373). The module takes a dynamic I3C address. -/
  | i3cEntdaa (addr : BitVec 7)
  /-- I3C_READ (R373). An I3C READ operation sets up an 8-byte register read. -/
  | i3cRead (off : Nat)
  /-- I3C_WRITE (R373). An I3C WRITE operation writes a reachable register. -/
  | i3cWrite (off : Nat) (v : Word)
  /-- I3C_WARM_RESET (R373). An I3C operation requests a warm reset. -/
  | i3cWarmReset (r : ResetInputs)
  /-- I3C_COLD_RESET (R373). An I3C operation requests a cold reset. -/
  | i3cColdReset
  /-- OWNER_OPEN (R376). SEC_CMD OWNER_OPEN checks the password and opens debug access after zeroizing. -/
  | ownerOpen
  /-- CHALLENGE (R377). SEC_CMD CHALLENGE draws a fresh 32-byte challenge. -/
  | challenge
  /-- FACTORY (R377). SEC_CMD FACTORY verifies the vendor signature over the challenge and enters FACTORY after
      zeroizing. -/
  | factory
  /-- SEAL (R374). SEC_CMD SEAL returns OWNER_OPEN to SEALED. -/
  | seal
  /-- SET_PASSWORD (R375). SEC_CMD SET_PASSWORD fuses a new salted password hash. -/
  | setPassword
  /-- CHALLENGE_EXPIRY (R377). A challenge older than 60 s becomes invalid. -/
  | challengeExpiry
  /-- AUTH_DELAY_EXPIRY (R376). One second after a failed password, SEC_CMD commands are accepted again. -/
  | authDelayExpiry
  /-- RECORD (R387). RPL_CMD RECORD holds the recorded cords at the next boundary, or refuses with NOT_QUIET. -/
  | record (v : Word)
  /-- RELEASE (R387). RPL_CMD RELEASE writes START and releases the cords into recording at the next boundary. -/
  | release (v : Word)
  /-- STOP (R387). RPL_CMD STOP ends a recording with a STOP record, or leaves REPLAY. -/
  | stop (v : Word)
  /-- REPLAY (R389). RPL_CMD REPLAY checks START and the configuration digest and enters REPLAY at the next
      boundary. -/
  | replay (v : Word)
  /-- REPLAY_APPLY_INPUT (R390). In REPLAY a journal record is applied at its recorded time or retire count. -/
  | replayApplyInput
  /-- WARP_LINK_UP (R312). A warp link finishes training or retraining and is UP, joining the list of links to its
      peer, carrying announcements and letting a rejected candidate be presented again. -/
  | warpLinkUp (link peer : Nat)
  /-- INBOUND_TLP (R242). A PCIe port receives a TLP from its device, either a memory read or write request that
      becomes channel DMA or host-device traffic, or the completion of an MMIO read. -/
  | inboundTlp (p : Nat) (t : TlpIn)
  /-- UNDEFINED_ENCODING (R81). A fetched instruction word with an undefined MAJOR traps ILLEGAL at decode. -/
  | undefinedEncoding (a : Agent) (w : InsnWord)
  /-- SILENT_TARGET_LOAD (R137). A load to a target that gives no answer traps MACHINE_CHECK when the fabric times
      it out. -/
  | silentTargetLoad (a : Agent)
  /-- WARM_RESET_RELEASE (R360). RESET_n rises after being held low and the warm boot proceeds from the release. -/
  | warmResetRelease
  /-- THERMAL_HALVING_EXPIRY (R412). Before the Loom's first pick, a thermally halved tile returns to full sclk once
      204,800 rclk have passed since the latest crossing and all its sensors read 92 °C or less. -/
  | thermalHalvingExpiry (tile : Nat)
  deriving DecidableEq, Repr

end Sys2Proof
end

