-- ==== Sys2Proof/Decode.lean ====
section
/-! DEFINITION. The encodings of the stack instruction set (R75, R76, R80 to R90) and the table's own numbering.

`wordOf` is the word of an instruction, `rawInsn` the instruction a word spells before its fields are checked, `Instr.ok` the
checks and `insnOf` the instruction that is left. spec/opcode_table.json gives no row any bits, so no table word spells a command. -/

namespace Sys2Proof

/-- A table word: the table of this block gives no encodings. -/
def decodeTableWord (nbits w : Nat) : Option Instr :=
  match nbits, w with
  | _, _ => none

/-! ### Words from fields (R75, R76) -/

/-- [31:29] COND, [28] S, [27:22] MAJOR, [21:0] the format's. -/
def wordTop (cond : BitVec 3) (s : Bool) (major : BitVec 6) (low : BitVec 22) : InsnWord :=
  cond ++ BitVec.ofBool s ++ major ++ low

def FO.word (f : FO) (major minor : BitVec 6) : InsnWord := wordTop f.cond f.s major (minor ++ f.opnd)
def FI.word (f : FI) (major : BitVec 6) : InsnWord := wordTop f.cond f.s major f.imm
def FH.word (f : FH) (major : BitVec 6) : InsnWord := wordTop f.cond f.s major (BitVec.ofBool f.rz ++ f.imm)
def FM.word (f : FM) (major : BitVec 6) : InsnWord := wordTop f.cond f.s major (f.sz ++ f.am ++ f.ag ++ f.disp)
def FA.word (f : FA) (major : BitVec 6) : InsnWord :=
  wordTop f.cond f.s major (f.sz ++ f.am ++ f.ag ++ f.aop ++ f.disp)
def FL.word (f : FL) (major minor : BitVec 6) : InsnWord := wordTop f.cond f.s major (minor ++ f.rz ++ f.disp)
def FF.word (f : FF) (major minor : BitVec 6) : InsnWord :=
  wordTop f.cond f.s major (minor ++ f.rm ++ BitVec.ofBool f.p ++ f.rz)
def FB.word (f : FB) (major : BitVec 6) : InsnWord := wordTop f.cond f.s major f.off

/-! ### Fields of a word -/

def InsnWord.major (w : InsnWord) : BitVec 6 := w.extractLsb' 22 6
def InsnWord.minor (w : InsnWord) : BitVec 6 := w.extractLsb' 16 6

def FO.of (w : InsnWord) : FO := { cond := w.extractLsb' 29 3, s := w.getLsbD 28, opnd := w.extractLsb' 0 16 }
def FI.of (w : InsnWord) : FI := { cond := w.extractLsb' 29 3, s := w.getLsbD 28, imm := w.extractLsb' 0 22 }
def FH.of (w : InsnWord) : FH :=
  { cond := w.extractLsb' 29 3, s := w.getLsbD 28, rz := w.getLsbD 21, imm := w.extractLsb' 0 21 }
def FM.of (w : InsnWord) : FM :=
  { cond := w.extractLsb' 29 3, s := w.getLsbD 28, sz := w.extractLsb' 20 2, am := w.extractLsb' 17 3
    ag := w.extractLsb' 14 3, disp := w.extractLsb' 0 14 }
def FA.of (w : InsnWord) : FA :=
  { cond := w.extractLsb' 29 3, s := w.getLsbD 28, sz := w.extractLsb' 20 2, am := w.extractLsb' 17 3
    ag := w.extractLsb' 14 3, aop := w.extractLsb' 10 4, disp := w.extractLsb' 0 10 }
def FL.of (w : InsnWord) : FL :=
  { cond := w.extractLsb' 29 3, s := w.getLsbD 28, rz := w.extractLsb' 14 2, disp := w.extractLsb' 0 14 }
def FF.of (w : InsnWord) : FF :=
  { cond := w.extractLsb' 29 3, s := w.getLsbD 28, rm := w.extractLsb' 13 3, p := w.getLsbD 12
    rz := w.extractLsb' 0 12 }
def FB.of (w : InsnWord) : FB := { cond := w.extractLsb' 29 3, s := w.getLsbD 28, off := w.extractLsb' 0 22 }

/-! ### Minors (R82 to R90) -/

/-- System (R82), major 0x00. -/
def minors00 (a : Agent) (f : FO) : Nat → Option Instr
  | 0 => some (.nop a f)
  | 1 => some (.waite a f)
  | 2 => some (.rdcr a f)
  | 3 => some (.wrcr a f)
  | 4 => some (.tret a f)
  | 5 => some (.rdtime a f)
  | 6 => some (.ssync a f)
  | 7 => some (.evpop a f)
  | 8 => some (.signal a f)
  | 9 => some (.retg a f)
  | 10 => some (.rdag a f)
  | 11 => some (.wrag a f)
  | 16 => some (.tlbiVa a f)
  | 17 => some (.tlbiAsid a f)
  | 18 => some (.tlbiS1all a f)
  | 19 => some (.tlbiIpa a f)
  | 20 => some (.tlbiTenant a f)
  | 21 => some (.tlbsync a f)
  | _ => none

/-- Stack manipulation (R83), major 0x01. -/
def minors01 (a : Agent) (f : FO) : Nat → Option Instr
  | 0 => some (.drop a f)
  | 1 => some (.dup a f)
  | 2 => some (.swap a f)
  | 3 => some (.over a f)
  | 4 => some (.rot a f)
  | 5 => some (.nip a f)
  | 6 => some (.dupn a f)
  | 7 => some (.xchn a f)
  | 8 => some (.dropn a f)
  | 9 => some (.depth a f)
  | 10 => some (.getsp a f)
  | 11 => some (.setsp a f)
  | _ => none

/-- Integer ALU (R84), major 0x04. -/
def minors04 (a : Agent) (f : FO) : Nat → Option Instr
  | 0 => some (.add a f)
  | 1 => some (.sub a f)
  | 2 => some (.adc a f)
  | 3 => some (.sbc a f)
  | 4 => some (.and a f)
  | 5 => some (.or a f)
  | 6 => some (.xor a f)
  | 7 => some (.andn a f)
  | 8 => some (.not a f)
  | 9 => some (.neg a f)
  | 10 => some (.sxb a f)
  | 11 => some (.sxh a f)
  | 12 => some (.sxw a f)
  | 13 => some (.zxw a f)
  | 14 => some (.popc a f)
  | 15 => some (.clz a f)
  | 16 => some (.addi a f)
  | 17 => some (.andi a f)
  | 18 => some (.ori a f)
  | 19 => some (.xori a f)
  | _ => none

/-- Shift (R85), major 0x05. -/
def minors05 (a : Agent) (f : FO) : Nat → Option Instr
  | 0 => some (.shl a f)
  | 1 => some (.shr a f)
  | 2 => some (.sar a f)
  | 3 => some (.rol a f)
  | 4 => some (.ror a f)
  | _ => none

/-- Multiply and divide (R85), major 0x06. -/
def minors06 (a : Agent) (f : FO) : Nat → Option Instr
  | 0 => some (.mul a f)
  | 1 => some (.mulhs a f)
  | 2 => some (.mulhu a f)
  | 3 => some (.divs a f)
  | 4 => some (.divu a f)
  | 5 => some (.rems a f)
  | 6 => some (.remu a f)
  | _ => none

/-- Compare (R85), major 0x07. -/
def minors07 (a : Agent) (f : FO) : Nat → Option Instr
  | 0 => some (.cmp a f)
  | 1 => some (.tst a f)
  | 2 => some (.cmpi a f)
  | 3 => some (.setf a f)
  | _ => none

/-- Indirect jumps (R90), major 0x1A. -/
def minors1A (a : Agent) (f : FO) : Nat → Option Instr
  | 0 => some (.jmp a f)
  | 1 => some (.calli a f)
  | 2 => some (.ret a f)
  | _ => none

/-- Knots (R90), major 0x1C. -/
def minors1C (a : Agent) (f : FO) : Nat → Option Instr
  | 0 => some (.knot a f)
  | 1 => some (.cinch a f)
  | 2 => some (.slip a f)
  | 3 => some (.ktest a f)
  | _ => none

/-- Barriers (R90), major 0x1D. -/
def minors1D (a : Agent) (f : FO) : Nat → Option Instr
  | 0 => some (.lbar a f)
  | 1 => some (.sbar a f)
  | 2 => some (.fbar a f)
  | 3 => some (.fsync a f)
  | _ => none

/-- Traps and gates (R90), major 0x1E. -/
def minors1E (a : Agent) (f : FO) : Nat → Option Instr
  | 0 => some (.syscall a f)
  | 1 => some (.gate a f)
  | 2 => some (.break a f)
  | _ => none

/-- Line operations (R88), major 0x0D. -/
def minors0D (a : Agent) (f : FL) : Nat → Option Instr
  | 0 => some (.zline a f)
  | 1 => some (.clean a f)
  | 2 => some (.flush a f)
  | 3 => some (.inval a f)
  | 4 => some (.pfr a f)
  | 5 => some (.pfw a f)
  | 6 => some (.icinv a f)
  | _ => none

/-- Floating point arithmetic (R89), major 0x10. -/
def minors10 (a : Agent) (f : FF) : Nat → Option Instr
  | 0 => some (.fadd a f)
  | 1 => some (.fsub a f)
  | 2 => some (.fmul a f)
  | 3 => some (.fdiv a f)
  | 4 => some (.fsqrt a f)
  | 5 => some (.fma a f)
  | 6 => some (.fnma a f)
  | _ => none

/-- Floating point selection (R89), major 0x11. -/
def minors11 (a : Agent) (f : FF) : Nat → Option Instr
  | 0 => some (.fmin a f)
  | 1 => some (.fmax a f)
  | 2 => some (.fneg a f)
  | 3 => some (.fabs a f)
  | 4 => some (.fcpys a f)
  | _ => none

/-- Conversions (R89), major 0x12. -/
def minors12 (a : Agent) (f : FF) : Nat → Option Instr
  | 0 => some (.f2i a f)
  | 1 => some (.f2u a f)
  | 2 => some (.i2f a f)
  | 3 => some (.u2f a f)
  | 4 => some (.fcvt a f)
  | 5 => some (.frint a f)
  | _ => none

/-- Floating point compares (R89), major 0x13. -/
def minors13 (a : Agent) (f : FF) : Nat → Option Instr
  | 0 => some (.fcmp a f)
  | 1 => some (.fcmpe a f)
  | 2 => some (.fclass a f)
  | _ => none

/-- The instruction a word spells by MAJOR and minor alone (R80); none for an undefined one. -/
def rawInsn (a : Agent) (w : InsnWord) : Option Instr :=
  let m := (InsnWord.minor w).toNat
  match (InsnWord.major w).toNat with
  | 0 => minors00 a (FO.of w) m
  | 1 => minors01 a (FO.of w) m
  | 2 => some (.push a (FI.of w))
  | 3 => some (.pushh a (FH.of w))
  | 4 => minors04 a (FO.of w) m
  | 5 => minors05 a (FO.of w) m
  | 6 => minors06 a (FO.of w) m
  | 7 => minors07 a (FO.of w) m
  | 8 => some (.load a (FM.of w))
  | 9 => some (.store a (FM.of w))
  | 10 => some (.loadReserved a (FM.of w))
  | 11 => some (.storeConditional a (FM.of w))
  | 12 => some (.farAtomic a (FA.of w))
  | 13 => minors0D a (FL.of w) m
  | 16 => minors10 a (FF.of w) m
  | 17 => minors11 a (FF.of w) m
  | 18 => minors12 a (FF.of w) m
  | 19 => minors13 a (FF.of w) m
  | 24 => some (.b a (FB.of w))
  | 25 => some (.call a (FB.of w))
  | 26 => minors1A a (FO.of w) m
  | 28 => minors1C a (FO.of w) m
  | 29 => minors1D a (FO.of w) m
  | 30 => minors1E a (FO.of w) m
  | _ => none

/-- The word of an instruction; none for a command that is no instruction. -/
def wordOf (i : Instr) : Option InsnWord :=
  match i with
  | .nop _ f => some (f.word 0 0)
  | .waite _ f => some (f.word 0 1)
  | .rdcr _ f => some (f.word 0 2)
  | .wrcr _ f => some (f.word 0 3)
  | .tret _ f => some (f.word 0 4)
  | .rdtime _ f => some (f.word 0 5)
  | .ssync _ f => some (f.word 0 6)
  | .evpop _ f => some (f.word 0 7)
  | .signal _ f => some (f.word 0 8)
  | .retg _ f => some (f.word 0 9)
  | .rdag _ f => some (f.word 0 10)
  | .wrag _ f => some (f.word 0 11)
  | .tlbiVa _ f => some (f.word 0 16)
  | .tlbiAsid _ f => some (f.word 0 17)
  | .tlbiS1all _ f => some (f.word 0 18)
  | .tlbiIpa _ f => some (f.word 0 19)
  | .tlbiTenant _ f => some (f.word 0 20)
  | .tlbsync _ f => some (f.word 0 21)
  | .drop _ f => some (f.word 1 0)
  | .dup _ f => some (f.word 1 1)
  | .swap _ f => some (f.word 1 2)
  | .over _ f => some (f.word 1 3)
  | .rot _ f => some (f.word 1 4)
  | .nip _ f => some (f.word 1 5)
  | .dupn _ f => some (f.word 1 6)
  | .xchn _ f => some (f.word 1 7)
  | .dropn _ f => some (f.word 1 8)
  | .depth _ f => some (f.word 1 9)
  | .getsp _ f => some (f.word 1 10)
  | .setsp _ f => some (f.word 1 11)
  | .add _ f => some (f.word 4 0)
  | .sub _ f => some (f.word 4 1)
  | .adc _ f => some (f.word 4 2)
  | .sbc _ f => some (f.word 4 3)
  | .and _ f => some (f.word 4 4)
  | .or _ f => some (f.word 4 5)
  | .xor _ f => some (f.word 4 6)
  | .andn _ f => some (f.word 4 7)
  | .not _ f => some (f.word 4 8)
  | .neg _ f => some (f.word 4 9)
  | .sxb _ f => some (f.word 4 10)
  | .sxh _ f => some (f.word 4 11)
  | .sxw _ f => some (f.word 4 12)
  | .zxw _ f => some (f.word 4 13)
  | .popc _ f => some (f.word 4 14)
  | .clz _ f => some (f.word 4 15)
  | .addi _ f => some (f.word 4 16)
  | .andi _ f => some (f.word 4 17)
  | .ori _ f => some (f.word 4 18)
  | .xori _ f => some (f.word 4 19)
  | .shl _ f => some (f.word 5 0)
  | .shr _ f => some (f.word 5 1)
  | .sar _ f => some (f.word 5 2)
  | .rol _ f => some (f.word 5 3)
  | .ror _ f => some (f.word 5 4)
  | .mul _ f => some (f.word 6 0)
  | .mulhs _ f => some (f.word 6 1)
  | .mulhu _ f => some (f.word 6 2)
  | .divs _ f => some (f.word 6 3)
  | .divu _ f => some (f.word 6 4)
  | .rems _ f => some (f.word 6 5)
  | .remu _ f => some (f.word 6 6)
  | .cmp _ f => some (f.word 7 0)
  | .tst _ f => some (f.word 7 1)
  | .cmpi _ f => some (f.word 7 2)
  | .setf _ f => some (f.word 7 3)
  | .jmp _ f => some (f.word 26 0)
  | .calli _ f => some (f.word 26 1)
  | .ret _ f => some (f.word 26 2)
  | .knot _ f => some (f.word 28 0)
  | .cinch _ f => some (f.word 28 1)
  | .slip _ f => some (f.word 28 2)
  | .ktest _ f => some (f.word 28 3)
  | .lbar _ f => some (f.word 29 0)
  | .sbar _ f => some (f.word 29 1)
  | .fbar _ f => some (f.word 29 2)
  | .fsync _ f => some (f.word 29 3)
  | .syscall _ f => some (f.word 30 0)
  | .gate _ f => some (f.word 30 1)
  | .break _ f => some (f.word 30 2)
  | .zline _ f => some (f.word 13 0)
  | .clean _ f => some (f.word 13 1)
  | .flush _ f => some (f.word 13 2)
  | .inval _ f => some (f.word 13 3)
  | .pfr _ f => some (f.word 13 4)
  | .pfw _ f => some (f.word 13 5)
  | .icinv _ f => some (f.word 13 6)
  | .fadd _ f => some (f.word 16 0)
  | .fsub _ f => some (f.word 16 1)
  | .fmul _ f => some (f.word 16 2)
  | .fdiv _ f => some (f.word 16 3)
  | .fsqrt _ f => some (f.word 16 4)
  | .fma _ f => some (f.word 16 5)
  | .fnma _ f => some (f.word 16 6)
  | .fmin _ f => some (f.word 17 0)
  | .fmax _ f => some (f.word 17 1)
  | .fneg _ f => some (f.word 17 2)
  | .fabs _ f => some (f.word 17 3)
  | .fcpys _ f => some (f.word 17 4)
  | .f2i _ f => some (f.word 18 0)
  | .f2u _ f => some (f.word 18 1)
  | .i2f _ f => some (f.word 18 2)
  | .u2f _ f => some (f.word 18 3)
  | .fcvt _ f => some (f.word 18 4)
  | .frint _ f => some (f.word 18 5)
  | .fcmp _ f => some (f.word 19 0)
  | .fcmpe _ f => some (f.word 19 1)
  | .fclass _ f => some (f.word 19 2)
  | .load _ f => some (f.word 8)
  | .store _ f => some (f.word 9)
  | .loadReserved _ f => some (f.word 10)
  | .storeConditional _ f => some (f.word 11)
  | .push _ f => some (f.word 2)
  | .pushh _ f => some (f.word 3)
  | .farAtomic _ f => some (f.word 12)
  | .b _ f => some (f.word 24)
  | .call _ f => some (f.word 25)
  | _ => none

/-- The agent of an instruction. -/
def agentOf (i : Instr) : Option Agent :=
  match i with
  | .nop a _ => some a
  | .waite a _ => some a
  | .rdcr a _ => some a
  | .wrcr a _ => some a
  | .tret a _ => some a
  | .rdtime a _ => some a
  | .ssync a _ => some a
  | .evpop a _ => some a
  | .signal a _ => some a
  | .retg a _ => some a
  | .rdag a _ => some a
  | .wrag a _ => some a
  | .tlbiVa a _ => some a
  | .tlbiAsid a _ => some a
  | .tlbiS1all a _ => some a
  | .tlbiIpa a _ => some a
  | .tlbiTenant a _ => some a
  | .tlbsync a _ => some a
  | .drop a _ => some a
  | .dup a _ => some a
  | .swap a _ => some a
  | .over a _ => some a
  | .rot a _ => some a
  | .nip a _ => some a
  | .dupn a _ => some a
  | .xchn a _ => some a
  | .dropn a _ => some a
  | .depth a _ => some a
  | .getsp a _ => some a
  | .setsp a _ => some a
  | .add a _ => some a
  | .sub a _ => some a
  | .adc a _ => some a
  | .sbc a _ => some a
  | .and a _ => some a
  | .or a _ => some a
  | .xor a _ => some a
  | .andn a _ => some a
  | .not a _ => some a
  | .neg a _ => some a
  | .sxb a _ => some a
  | .sxh a _ => some a
  | .sxw a _ => some a
  | .zxw a _ => some a
  | .popc a _ => some a
  | .clz a _ => some a
  | .addi a _ => some a
  | .andi a _ => some a
  | .ori a _ => some a
  | .xori a _ => some a
  | .shl a _ => some a
  | .shr a _ => some a
  | .sar a _ => some a
  | .rol a _ => some a
  | .ror a _ => some a
  | .mul a _ => some a
  | .mulhs a _ => some a
  | .mulhu a _ => some a
  | .divs a _ => some a
  | .divu a _ => some a
  | .rems a _ => some a
  | .remu a _ => some a
  | .cmp a _ => some a
  | .tst a _ => some a
  | .cmpi a _ => some a
  | .setf a _ => some a
  | .jmp a _ => some a
  | .calli a _ => some a
  | .ret a _ => some a
  | .knot a _ => some a
  | .cinch a _ => some a
  | .slip a _ => some a
  | .ktest a _ => some a
  | .lbar a _ => some a
  | .sbar a _ => some a
  | .fbar a _ => some a
  | .fsync a _ => some a
  | .syscall a _ => some a
  | .gate a _ => some a
  | .break a _ => some a
  | .zline a _ => some a
  | .clean a _ => some a
  | .flush a _ => some a
  | .inval a _ => some a
  | .pfr a _ => some a
  | .pfw a _ => some a
  | .icinv a _ => some a
  | .fadd a _ => some a
  | .fsub a _ => some a
  | .fmul a _ => some a
  | .fdiv a _ => some a
  | .fsqrt a _ => some a
  | .fma a _ => some a
  | .fnma a _ => some a
  | .fmin a _ => some a
  | .fmax a _ => some a
  | .fneg a _ => some a
  | .fabs a _ => some a
  | .fcpys a _ => some a
  | .f2i a _ => some a
  | .f2u a _ => some a
  | .i2f a _ => some a
  | .u2f a _ => some a
  | .fcvt a _ => some a
  | .frint a _ => some a
  | .fcmp a _ => some a
  | .fcmpe a _ => some a
  | .fclass a _ => some a
  | .load a _ => some a
  | .store a _ => some a
  | .loadReserved a _ => some a
  | .storeConditional a _ => some a
  | .push a _ => some a
  | .pushh a _ => some a
  | .farAtomic a _ => some a
  | .b a _ => some a
  | .call a _ => some a
  | _ => none

/-! ## Decode checks: R79 step 3 (R72, R75, R76, R80 to R90, R100)

`Instr.ok` answers false for an instruction whose word traps ILLEGAL at decode: a non-zero reserved-zero field, S where it is
not allowed, a value the tables mark ILLEGAL, a control register that does not exist or takes no writes, or an encoding
outside the Shuttle subset. A command that is no instruction is always well formed. -/

/-! ### Control registers (R72) -/

/-- The lowest level that may read a control register; none for an undefined number. -/
def crReadLevel (n : Nat) : Option Level :=
  if n ≤ 5 then some .U
  else if 0x10 ≤ n ∧ n ≤ 0x12 then some .S
  else if 0x14 ≤ n ∧ n ≤ 0x16 then some .S
  else if 0x18 ≤ n ∧ n ≤ 0x1A then some .H
  else if 0x20 ≤ n ∧ n ≤ 0x24 then some .S
  else if 0x28 ≤ n ∧ n ≤ 0x2C then some .H
  else if n = 0x30 then some .S
  else if n = 0x31 then some .H
  else none

/-- The lowest level that may write a control register; none for one that takes no writes. -/
def crWriteLevel (n : Nat) : Option Level :=
  if n = 1 then some .S
  else if n = 3 ∨ n = 4 ∨ n = 5 then none
  else crReadLevel n

/-- Control registers outside the Shuttle subset (R100). -/
def crShuttle (n : Nat) : Bool := n ≠ 2 && !(0x10 ≤ n && n ≤ 0x16) && !(0x20 ≤ n && n ≤ 0x24) && n ≠ 0x30

def Agent.isShuttle : Agent → Bool
  | .cord _ => false
  | .shuttle _ => true

/-! ### Fields -/

/-- S is 0 and OPND is zero above its lowest k bits. -/
def FO.low (f : FO) (k : Nat) : Bool := !f.s && decide (f.opnd.toNat < 2 ^ k)

/-- OPND is zero above its lowest k bits, S free (majors 0x04 to 0x06). -/
def FO.alu (f : FO) (k : Nat) : Bool := decide (f.opnd.toNat < 2 ^ k)

/-- The CR number is defined, readable, and in the Shuttle subset on a Shuttle. -/
def FO.crOk (f : FO) (a : Agent) (lvl : Nat → Option Level) : Bool :=
  f.low 12 && (lvl f.opnd.toNat).isSome && (!a.isShuttle || crShuttle f.opnd.toNat)

/-- Shifts: OPND[15:7] zero, and OPND[5:0] zero when I = 0 (R85). -/
def FO.shiftOk (f : FO) : Bool := decide (f.opnd.toNat < 128) && (f.opnd.getLsbD 6 || f.opnd == 0)

/-- AM is defined, and AG is zero where no generator is used (R81, R86). -/
def amOk (am ag : BitVec 3) : Bool :=
  decide (am.toNat < 6) && ((decide (1 ≤ am.toNat) && decide (am.toNat ≤ 3)) || ag == 0)

/-- Loads and stores (R86). -/
def FM.ok (f : FM) : Bool := !f.s && amOk f.am f.ag

/-- Load-reserved and store-conditional take 4 and 8 bytes (R87). -/
def FM.wide (f : FM) : Bool := f.ok && decide (2 ≤ f.sz.toNat)

def FA.ok (f : FA) : Bool := !f.s && amOk f.am f.ag && decide (2 ≤ f.sz.toNat) && decide (f.aop.toNat < 10)

def FL.ok (f : FL) : Bool := !f.s && f.rz == 0

/-- Floating point: no Shuttle, S and [11:0] zero, RM a mode where the minor rounds, else 0 (R89, R100). -/
def FF.ok (f : FF) (a : Agent) (rounds : Bool) : Bool :=
  !a.isShuttle && !f.s && f.rz == 0 && (if rounds then decide (f.rm.toNat < 6) else f.rm == 0)

/-- The decode checks of R79 step 3. -/
def Instr.ok (i : Instr) : Bool :=
  match i with
  | .nop _ f => f.low 0
  | .waite _ f => f.low 0
  | .tret _ f => f.low 0
  | .rdtime _ f => f.low 0
  | .ssync _ f => f.low 0
  | .evpop _ f => f.low 0
  | .signal _ f => f.low 0
  | .tlbiIpa _ f => f.low 0
  | .tlbiTenant _ f => f.low 0
  | .tlbsync _ f => f.low 0
  | .tlbiVa a f => !a.isShuttle && f.low 0
  | .tlbiAsid a f => !a.isShuttle && f.low 0
  | .tlbiS1all a f => !a.isShuttle && f.low 0
  | .rdcr a f => f.crOk a crReadLevel
  | .wrcr a f => f.crOk a crWriteLevel
  | .retg _ f => f.low 3
  | .rdag _ f => f.low 6 && decide (f.opnd.toNat % 8 < 5)
  | .wrag _ f => f.low 6 && decide (f.opnd.toNat % 8 < 5)
  | .drop _ f => f.low 0
  | .dup _ f => f.low 0
  | .swap _ f => f.low 0
  | .over _ f => f.low 0
  | .rot _ f => f.low 0
  | .nip _ f => f.low 0
  | .depth _ f => f.low 0
  | .getsp _ f => f.low 0
  | .setsp _ f => f.low 0
  | .dupn _ f => f.low 5
  | .xchn _ f => f.low 5 && f.opnd != 0
  | .dropn _ f => f.low 5 && f.opnd != 0
  | .push _ f => !f.s
  | .pushh _ f => !f.s && !f.rz
  | .add _ f => f.alu 0
  | .sub _ f => f.alu 0
  | .adc _ f => f.alu 0
  | .sbc _ f => f.alu 0
  | .and _ f => f.alu 0
  | .or _ f => f.alu 0
  | .xor _ f => f.alu 0
  | .andn _ f => f.alu 0
  | .not _ f => f.alu 0
  | .neg _ f => f.alu 0
  | .sxb _ f => f.alu 0
  | .sxh _ f => f.alu 0
  | .sxw _ f => f.alu 0
  | .zxw _ f => f.alu 0
  | .popc _ f => f.alu 0
  | .clz _ f => f.alu 0
  | .addi _ _ => true
  | .andi _ _ => true
  | .ori _ _ => true
  | .xori _ _ => true
  | .shl _ f => f.shiftOk
  | .shr _ f => f.shiftOk
  | .sar _ f => f.shiftOk
  | .rol _ f => f.shiftOk
  | .ror _ f => f.shiftOk
  | .mul a f => !a.isShuttle && f.alu 0
  | .mulhs a f => !a.isShuttle && f.alu 0
  | .mulhu a f => !a.isShuttle && f.alu 0
  | .divs a f => !a.isShuttle && f.alu 0
  | .divu a f => !a.isShuttle && f.alu 0
  | .rems a f => !a.isShuttle && f.alu 0
  | .remu a f => !a.isShuttle && f.alu 0
  | .cmp _ f => f.low 0
  | .tst _ f => f.low 0
  | .cmpi _ f => !f.s
  | .setf _ f => f.low 3
  | .load _ f => f.ok
  | .store _ f => f.ok
  | .loadReserved _ f => f.wide
  | .storeConditional _ f => f.wide
  | .farAtomic _ f => f.ok
  | .zline _ f => f.ok
  | .clean _ f => f.ok
  | .flush _ f => f.ok
  | .inval _ f => f.ok
  | .pfr _ f => f.ok
  | .pfw _ f => f.ok
  | .icinv _ f => f.ok
  | .fadd a f => f.ok a true
  | .fsub a f => f.ok a true
  | .fmul a f => f.ok a true
  | .fdiv a f => f.ok a true
  | .fsqrt a f => f.ok a true
  | .fma a f => f.ok a true
  | .fnma a f => f.ok a true
  | .f2i a f => f.ok a true
  | .f2u a f => f.ok a true
  | .i2f a f => f.ok a true
  | .u2f a f => f.ok a true
  | .fcvt a f => f.ok a true
  | .frint a f => f.ok a true
  | .fmin a f => f.ok a false
  | .fmax a f => f.ok a false
  | .fneg a f => f.ok a false
  | .fabs a f => f.ok a false
  | .fcpys a f => f.ok a false
  | .fcmp a f => f.ok a false
  | .fcmpe a f => f.ok a false
  | .fclass a f => f.ok a false
  | .b _ f => !f.s
  | .call _ f => !f.s
  | .jmp _ f => f.low 0
  | .calli _ f => f.low 0
  | .ret _ f => f.low 0
  | .cinch _ f => f.low 0
  | .slip _ f => f.low 0
  | .ktest _ f => f.low 0
  | .lbar _ f => f.low 0
  | .sbar _ f => f.low 0
  | .fbar _ f => f.low 0
  | .knot _ f => !f.s
  | .fsync a f => !a.isShuttle && f.low 0
  | .syscall _ f => !f.s
  | .break _ f => !f.s
  | .gate _ f => !f.s && decide (f.opnd.toNat / 8 % 32 = 0)
  | _ => true

/-- The instruction that a fetched word spells; none where the word traps ILLEGAL (R81). -/
def insnOf (a : Agent) (w : InsnWord) : Option Instr :=
  match rawInsn a w with
  | some i => if i.ok then some i else none
  | none => none

end Sys2Proof
end

