-- ==== Sys2Proof/Machine/Crc.lean ====
section
/-! DEFINITION. The checks the module computes over bytes: CRC-32C (R73, R368, R254) and CRC-64 ECMA-182 (R382, R388).
The spec names the polynomials; the initial value, bit order and final inversion of CRC-32C are the customary ones
(log 9). -/

namespace Sys2Proof.Machine

/-- k steps of the reflected CRC-32C on a register. -/
def crc32cBits : Nat → Nat → Nat
  | 0, c => c
  | k + 1, c => crc32cBits k (if c % 2 = 1 then (c / 2) ^^^ 0x82F63B78 else c / 2)

/-- CRC-32C of a list of bytes. -/
def crc32c (bs : List Byte) : Nat :=
  (bs.foldl (fun c b => crc32cBits 8 (c ^^^ b.toNat)) 0xFFFFFFFF) ^^^ 0xFFFFFFFF

/-- k steps of CRC-64 ECMA-182, most significant bit first. -/
def crc64Bits : Nat → Nat → Nat
  | 0, c => c
  | k + 1, c =>
    crc64Bits k (if 2 ^ 63 ≤ c then ((c * 2) % 2 ^ 64) ^^^ 0x42F0E1EBA9EA3693 else c * 2)

/-- CRC-64 of bytes, going on from a register. -/
def crc64 (c : Nat) (bs : List Byte) : Nat := bs.foldl (fun c b => crc64Bits 8 (c ^^^ (b.toNat * 2 ^ 56))) c

/-- The n bytes of a number, lowest first. -/
def bytesOf (n : Nat) : Nat → List Byte
  | 0 => []
  | k + 1 => BitVec.ofNat 8 n :: bytesOf (n / 256) k

/-- The number whose bytes these are, lowest first. -/
def ofBytes : List Byte → Nat
  | [] => 0
  | b :: t => b.toNat + 256 * ofBytes t

/-- The bytes of words, each little-endian. -/
def bytesOfWords (ws : List Word) : List Byte := ws.flatMap (fun w => bytesOf w.toNat 8)

/-- Words of little-endian bytes, n of them. -/
def wordsOf (bs : List Byte) : Nat → List Word
  | 0 => []
  | n + 1 => BitVec.ofNat 64 (ofBytes (bs.take 8)) :: wordsOf (bs.drop 8) n

end Sys2Proof.Machine
end

