-- ==== Sys2Proof/Machine/Fields.lean ====
section
/-! DEFINITION. The register fields of the control window: register, offset, lowest bit and width, as the register tables of the
chapters give them. Entry numbers t, k, ... are those of the spec. -/

namespace Sys2Proof.Machine

/-- A field of a control-window register (00_scope, Register conventions). -/
structure Fld where
  off : Nat
  lsb : Nat
  w : Nat
  deriving DecidableEq, Repr

def MOD_PARAM.off : Nat := 0x40
def MOD_PARAM.TRIADS : Fld := ⟨MOD_PARAM.off, 0, 6⟩
def MOD_PARAM.TILES : Fld := ⟨MOD_PARAM.off, 6, 3⟩
def MOD_PARAM.DDR_CH : Fld := ⟨MOD_PARAM.off, 9, 5⟩
def MOD_PARAM.CHPORTS : Fld := ⟨MOD_PARAM.off, 14, 7⟩
def MOD_PARAM.WARP : Fld := ⟨MOD_PARAM.off, 21, 5⟩
def MOD_PARAM.XPORTS : Fld := ⟨MOD_PARAM.off, 26, 5⟩
def MOD_PARAM.SHUTTLES : Fld := ⟨MOD_PARAM.off, 31, 6⟩
def MOD_PARAM.SUBCH_LOG2 : Fld := ⟨MOD_PARAM.off, 37, 5⟩
def MOD_PARAM.VI_LOG2 : Fld := ⟨MOD_PARAM.off, 42, 4⟩
def MOD_PARAM.BOBBIN_LOG2 : Fld := ⟨MOD_PARAM.off, 46, 5⟩
def MOD_PARAM.KEYSLOT_LOG2 : Fld := ⟨MOD_PARAM.off, 51, 4⟩
def MOD_PARAM.CIP_ENG : Fld := ⟨MOD_PARAM.off, 55, 3⟩
def MOD_PARAM.CMP_ENG : Fld := ⟨MOD_PARAM.off, 58, 3⟩
def MOD_MODE.off : Nat := 0x48
def MOD_MODE.MODE : Fld := ⟨MOD_MODE.off, 0, 4⟩
def MOD_MODE.PROFILE : Fld := ⟨MOD_MODE.off, 4, 2⟩
def MOD_CFGERR.off : Nat := 0x100
def MOD_CFGERR.OFFSET : Fld := ⟨MOD_CFGERR.off, 0, 32⟩
def MOD_CFGERR.FIELD_LSB : Fld := ⟨MOD_CFGERR.off, 32, 6⟩
def MOD_CFGERR.FIELD_MSB : Fld := ⟨MOD_CFGERR.off, 38, 6⟩
def MOD_CFGERR.OVERFLOW : Fld := ⟨MOD_CFGERR.off, 62, 1⟩
def MOD_CFGERR.VALID : Fld := ⟨MOD_CFGERR.off, 63, 1⟩
def LOOM_PICK.off : Nat := 0x100000
def LOOM_PICK.PICK : Fld := ⟨LOOM_PICK.off, 0, 48⟩
def LOOM_PICK.BEAT : Fld := ⟨LOOM_PICK.off, 48, 6⟩
def LOOM_SYNC.off : Nat := 0x100008
def LOOM_SYNC.DELAY : Fld := ⟨LOOM_SYNC.off, 0, 4⟩
def LOOM_SYNC.SLIPCNT : Fld := ⟨LOOM_SYNC.off, 8, 8⟩
def LOOM_SYNC.SYNCLOST : Fld := ⟨LOOM_SYNC.off, 16, 1⟩
def LOOM_SYNC.SOURCE : Fld := ⟨LOOM_SYNC.off, 17, 1⟩
def LOOM_HEDS.off (t : Nat) (k : Nat) : Nat := 0x101000 + t * 0x100 + k * 0x8
def LOOM_HEDS.TENANT0 (t : Nat) (k : Nat) : Fld := ⟨LOOM_HEDS.off t k, 0, 10⟩
def LOOM_HEDS.KIND0 (t : Nat) (k : Nat) : Fld := ⟨LOOM_HEDS.off t k, 14, 2⟩
def LOOM_HEDS.TENANT1 (t : Nat) (k : Nat) : Fld := ⟨LOOM_HEDS.off t k, 16, 10⟩
def LOOM_HEDS.KIND1 (t : Nat) (k : Nat) : Fld := ⟨LOOM_HEDS.off t k, 30, 2⟩
def LOOM_HEDS.TENANT2 (t : Nat) (k : Nat) : Fld := ⟨LOOM_HEDS.off t k, 32, 10⟩
def LOOM_HEDS.KIND2 (t : Nat) (k : Nat) : Fld := ⟨LOOM_HEDS.off t k, 46, 2⟩
def LOOM_HEDS.TENANT3 (t : Nat) (k : Nat) : Fld := ⟨LOOM_HEDS.off t k, 48, 10⟩
def LOOM_HEDS.KIND3 (t : Nat) (k : Nat) : Fld := ⟨LOOM_HEDS.off t k, 62, 2⟩
def LOOM_HEDA.off (t : Nat) (k : Nat) : Nat := 0x105000 + t * 0x100 + k * 0x8
def LOOM_HEDA.TENANT0 (t : Nat) (k : Nat) : Fld := ⟨LOOM_HEDA.off t k, 0, 10⟩
def LOOM_HEDA.KIND0 (t : Nat) (k : Nat) : Fld := ⟨LOOM_HEDA.off t k, 14, 2⟩
def LOOM_HEDA.TENANT1 (t : Nat) (k : Nat) : Fld := ⟨LOOM_HEDA.off t k, 16, 10⟩
def LOOM_HEDA.KIND1 (t : Nat) (k : Nat) : Fld := ⟨LOOM_HEDA.off t k, 30, 2⟩
def LOOM_HEDA.TENANT2 (t : Nat) (k : Nat) : Fld := ⟨LOOM_HEDA.off t k, 32, 10⟩
def LOOM_HEDA.KIND2 (t : Nat) (k : Nat) : Fld := ⟨LOOM_HEDA.off t k, 46, 2⟩
def LOOM_HEDA.TENANT3 (t : Nat) (k : Nat) : Fld := ⟨LOOM_HEDA.off t k, 48, 10⟩
def LOOM_HEDA.KIND3 (t : Nat) (k : Nat) : Fld := ⟨LOOM_HEDA.off t k, 62, 2⟩
def LOOM_COMMITAT.off : Nat := 0x100010
def LOOM_COMMITAT.PICK : Fld := ⟨LOOM_COMMITAT.off, 0, 32⟩
def LOOM_COMMITAT.EN : Fld := ⟨LOOM_COMMITAT.off, 32, 1⟩
def LOOM_COMMIT.off : Nat := 0x100018
def LOOM_COMMIT.TABLES : Fld := ⟨LOOM_COMMIT.off, 0, 52⟩
def LOOM_COMMIT.CORDS : Fld := ⟨LOOM_COMMIT.off, 52, 1⟩
def LOOM_STAT.off : Nat := 0x100020
def LOOM_STAT.PENDING : Fld := ⟨LOOM_STAT.off, 0, 1⟩
def LOOM_STAT.LATE : Fld := ⟨LOOM_STAT.off, 1, 1⟩
def LOOM_STAT.DEFERRED : Fld := ⟨LOOM_STAT.off, 2, 1⟩
def LOOM_CORDS.off (c : Nat) : Nat := 0x109000 + c * 0x8
def LOOM_CORDS.TENANT (c : Nat) : Fld := ⟨LOOM_CORDS.off c, 0, 10⟩
def LOOM_CORDS.STATE (c : Nat) : Fld := ⟨LOOM_CORDS.off c, 10, 2⟩
def LOOM_CORDS.CTX (c : Nat) : Fld := ⟨LOOM_CORDS.off c, 12, 40⟩
def LOOM_CORDA.off (c : Nat) : Nat := 0x109400 + c * 0x8
def LOOM_CORDA.TENANT (c : Nat) : Fld := ⟨LOOM_CORDA.off c, 0, 10⟩
def LOOM_CORDA.STATE (c : Nat) : Fld := ⟨LOOM_CORDA.off c, 10, 2⟩
def LOOM_CORDA.CTX (c : Nat) : Fld := ⟨LOOM_CORDA.off c, 12, 40⟩
def LOOM_FLUSHRES.off : Nat := 0x100028
def LOOM_FLUSHRES.FREE0 : Fld := ⟨LOOM_FLUSHRES.off, 0, 4⟩
def LOOM_FLUSHRES.FREE1 : Fld := ⟨LOOM_FLUSHRES.off, 4, 4⟩
def LOOM_FLUSHRES.FREE2 : Fld := ⟨LOOM_FLUSHRES.off, 8, 4⟩
def LOOM_FLUSHRES.FREE3 : Fld := ⟨LOOM_FLUSHRES.off, 12, 4⟩
def LOOM_LEDSTAT.off : Nat := 0x100030
def LOOM_LEDSTAT.MINUTE : Fld := ⟨LOOM_LEDSTAT.off, 0, 32⟩
def LOOM_LEDSTAT.BANK : Fld := ⟨LOOM_LEDSTAT.off, 32, 1⟩
def TRI_STAT.off (t : Nat) : Nat := 0x1000000 + t * 0x10000
def TRI_STAT.TSTATE (t : Nat) : Fld := ⟨TRI_STAT.off t, 0, 3⟩
def TRI_STAT.FENCED (t : Nat) : Fld := ⟨TRI_STAT.off t, 3, 3⟩
def TRI_STAT.ON (t : Nat) : Fld := ⟨TRI_STAT.off t, 6, 3⟩
def TRI_STAT.SPARE (t : Nat) : Fld := ⟨TRI_STAT.off t, 9, 2⟩
def TRI_STAT.HALT0 (t : Nat) : Fld := ⟨TRI_STAT.off t, 11, 1⟩
def TRI_STAT.HALT1 (t : Nat) : Fld := ⟨TRI_STAT.off t, 12, 1⟩
def TRI_STAT.CTXV0 (t : Nat) : Fld := ⟨TRI_STAT.off t, 13, 1⟩
def TRI_STAT.CTXV1 (t : Nat) : Fld := ⟨TRI_STAT.off t, 14, 1⟩
def TRI_STAT.DBG (t : Nat) : Fld := ⟨TRI_STAT.off t, 15, 1⟩
def TRI_CFG.off (t : Nat) : Nat := 0x1000008 + t * 0x10000
def TRI_CFG.RSLIM (t : Nat) : Fld := ⟨TRI_CFG.off t, 0, 8⟩
def TRI_CTL.off (t : Nat) : Nat := 0x1000010 + t * 0x10000
def TRI_CTL.RESUME0 (t : Nat) : Fld := ⟨TRI_CTL.off t, 0, 1⟩
def TRI_CTL.RESUME1 (t : Nat) : Fld := ⟨TRI_CTL.off t, 1, 1⟩
def TRI_CNT.off (t : Nat) : Nat := 0x1000018 + t * 0x10000
def TRI_CNT.CE_A (t : Nat) : Fld := ⟨TRI_CNT.off t, 0, 16⟩
def TRI_CNT.CE_B (t : Nat) : Fld := ⟨TRI_CNT.off t, 16, 16⟩
def TRI_CNT.CE_C (t : Nat) : Fld := ⟨TRI_CNT.off t, 32, 16⟩
def TRI_CNT.RETRY (t : Nat) : Fld := ⟨TRI_CNT.off t, 48, 8⟩
def TRI_CNT.FAILRETRY (t : Nat) : Fld := ⟨TRI_CNT.off t, 56, 8⟩
def TRI_LASTDIS.off (t : Nat) : Nat := 0x1000020 + t * 0x10000
def TRI_LASTDIS.RETIRE (t : Nat) : Fld := ⟨TRI_LASTDIS.off t, 0, 32⟩
def TRI_LASTDIS.DIFF (t : Nat) : Fld := ⟨TRI_LASTDIS.off t, 32, 3⟩
def TRI_LASTDIS.KIND (t : Nat) : Fld := ⟨TRI_LASTDIS.off t, 35, 2⟩
def TRI_LASTDIS.OUTCOME (t : Nat) : Fld := ⟨TRI_LASTDIS.off t, 37, 2⟩
def TRI_LASTDIS.VALID (t : Nat) : Fld := ⟨TRI_LASTDIS.off t, 63, 1⟩
def TRI_VSTEST.off (t : Nat) : Nat := 0x1000028 + t * 0x10000
def TRI_VSTEST.DONE (t : Nat) : Fld := ⟨TRI_VSTEST.off t, 0, 1⟩
def TRI_VSTEST.PASS (t : Nat) : Fld := ⟨TRI_VSTEST.off t, 1, 1⟩
def TRI_VSTEST.LANE (t : Nat) : Fld := ⟨TRI_VSTEST.off t, 2, 6⟩
def TRI_VSTEST.PATTERN (t : Nat) : Fld := ⟨TRI_VSTEST.off t, 8, 3⟩
def TRI_VSTEST.POL (t : Nat) : Fld := ⟨TRI_VSTEST.off t, 11, 1⟩
def TRI_SBLOST.off (t : Nat) : Nat := 0x1000030 + t * 0x10000
def TRI_SBLOST.LOST0 (t : Nat) : Fld := ⟨TRI_SBLOST.off t, 0, 5⟩
def TRI_SBLOST.LOST1 (t : Nat) : Fld := ⟨TRI_SBLOST.off t, 8, 5⟩
def TRI_SBLOST.TOTAL (t : Nat) : Fld := ⟨TRI_SBLOST.off t, 16, 16⟩
def CRD_CTL.off (t : Nat) : Nat := 0x1008000 + t * 0x10000
def CRD_CTL.L1IDIS0 (t : Nat) : Fld := ⟨CRD_CTL.off t, 0, 1⟩
def CRD_CTL.L1DDIS0 (t : Nat) : Fld := ⟨CRD_CTL.off t, 1, 1⟩
def CRD_CTL.L2DIS0 (t : Nat) : Fld := ⟨CRD_CTL.off t, 2, 1⟩
def CRD_CTL.L1IDIS1 (t : Nat) : Fld := ⟨CRD_CTL.off t, 3, 1⟩
def CRD_CTL.L1DDIS1 (t : Nat) : Fld := ⟨CRD_CTL.off t, 4, 1⟩
def CRD_CTL.L2DIS1 (t : Nat) : Fld := ⟨CRD_CTL.off t, 5, 1⟩
def CRD_CACHESTAT.off (t : Nat) : Nat := 0x1008008 + t * 0x10000
def CRD_CACHESTAT.DIRTY0 (t : Nat) : Fld := ⟨CRD_CACHESTAT.off t, 0, 15⟩
def CRD_CACHESTAT.DIRTY1 (t : Nat) : Fld := ⟨CRD_CACHESTAT.off t, 16, 15⟩
def CRD_LOCK.off (t : Nat) : Nat := 0x1008010 + t * 0x10000
def CRD_LOCK.WAYS (t : Nat) : Fld := ⟨CRD_LOCK.off t, 0, 16⟩
def CRD_LOCK.FILL (t : Nat) : Fld := ⟨CRD_LOCK.off t, 16, 1⟩
def CRD_LOCKINV.off (t : Nat) : Nat := 0x1008018 + t * 0x10000
def CRD_LOCKINV.COUNT (t : Nat) : Fld := ⟨CRD_LOCKINV.off t, 0, 32⟩
def CRD_RNGBASE.off (t : Nat) : Nat := 0x1008020 + t * 0x10000
def CRD_RNGBASE.BASE (t : Nat) : Fld := ⟨CRD_RNGBASE.off t, 8, 44⟩
def CRD_RNGCTL.off (t : Nat) : Nat := 0x1008028 + t * 0x10000
def CRD_RNGCTL.LINES (t : Nat) : Fld := ⟨CRD_RNGCTL.off t, 0, 24⟩
def CRD_RNGCTL.OP (t : Nat) : Fld := ⟨CRD_RNGCTL.off t, 24, 2⟩
def CRD_RNGCTL.BUSY (t : Nat) : Fld := ⟨CRD_RNGCTL.off t, 62, 1⟩
def CRD_RNGCTL.GO (t : Nat) : Fld := ⟨CRD_RNGCTL.off t, 63, 1⟩
def COH_CNT.off (h : Nat) : Nat := 0x2000200 + h * 0x10000
def COH_CNT.CROSS (h : Nat) : Fld := ⟨COH_CNT.off h, 0, 16⟩
def COH_CNT.BACKINV (h : Nat) : Fld := ⟨COH_CNT.off h, 16, 16⟩
def COH_CNT.DIRSLIP (h : Nat) : Fld := ⟨COH_CNT.off h, 32, 16⟩
def COH_CNT.MERGE (h : Nat) : Fld := ⟨COH_CNT.off h, 48, 16⟩
def COH_DREG_LO.off (h : Nat) (r : Nat) : Nat := 0x2000100 + h * 0x10000 + r * 0x10
def COH_DREG_LO.EN (h : Nat) (r : Nat) : Fld := ⟨COH_DREG_LO.off h r, 0, 1⟩
def COH_DREG_LO.BASE (h : Nat) (r : Nat) : Fld := ⟨COH_DREG_LO.off h r, 21, 31⟩
def COH_DREG_HI.off (h : Nat) (r : Nat) : Nat := 0x2000108 + h * 0x10000 + r * 0x10
def COH_DREG_HI.SETBASE (h : Nat) (r : Nat) : Fld := ⟨COH_DREG_HI.off h r, 0, 13⟩
def COH_DREG_HI.SETLOG2 (h : Nat) (r : Nat) : Fld := ⟨COH_DREG_HI.off h r, 13, 4⟩
def COH_DREG_HI.LIMIT (h : Nat) (r : Nat) : Fld := ⟨COH_DREG_HI.off h r, 21, 31⟩
def COH_WCWAYS.off (h : Nat) (n : Nat) : Nat := 0x2008000 + h * 0x10000 + n * 0x8
def COH_WCWAYS.WAYS (h : Nat) (n : Nat) : Fld := ⟨COH_WCWAYS.off h n, 0, 28⟩
def MEM_CTL.off (m : Nat) : Nat := 0x3000000 + m * 0x10000
def MEM_CTL.ENC (m : Nat) : Fld := ⟨MEM_CTL.off m, 0, 1⟩
def MEM_CTL.FILLWAIT (m : Nat) : Fld := ⟨MEM_CTL.off m, 8, 8⟩
def MEM_UEPOL.off (m : Nat) : Nat := 0x3000008 + m * 0x10000
def MEM_UEPOL.POLICY (m : Nat) : Fld := ⟨MEM_UEPOL.off m, 0, 1⟩
def MEM_FILLSTAT.off (m : Nat) : Nat := 0x3000010 + m * 0x10000
def MEM_FILLSTAT.DONE (m : Nat) : Fld := ⟨MEM_FILLSTAT.off m, 0, 1⟩
def MEM_FILLSTAT.SHWAIT (m : Nat) : Fld := ⟨MEM_FILLSTAT.off m, 1, 1⟩
def MEM_FILLSTAT.UNUSED (m : Nat) : Fld := ⟨MEM_FILLSTAT.off m, 2, 1⟩
def MEM_SCRUB.off (m : Nat) : Nat := 0x3000018 + m * 0x10000
def MEM_SCRUB.RATE (m : Nat) : Fld := ⟨MEM_SCRUB.off m, 0, 5⟩
def MEM_SCRUB.NEXT (m : Nat) : Fld := ⟨MEM_SCRUB.off m, 8, 40⟩
def MEM_SCRUB.PASSES (m : Nat) : Fld := ⟨MEM_SCRUB.off m, 48, 16⟩
def MEM_MARK.off (m : Nat) (k : Nat) : Nat := 0x3000040 + m * 0x10000 + k * 0x8
def MEM_MARK.DEV0 (m : Nat) (k : Nat) : Fld := ⟨MEM_MARK.off m k, 0, 4⟩
def MEM_MARK.DEV1 (m : Nat) (k : Nat) : Fld := ⟨MEM_MARK.off m k, 4, 4⟩
def MEM_CELOG_A.off (m : Nat) (i : Nat) : Nat := 0x3000800 + m * 0x10000 + i * 0x10
def MEM_CELOG_A.SECTOR (m : Nat) (i : Nat) : Fld := ⟨MEM_CELOG_A.off m i, 6, 42⟩
def MEM_CELOG_B.off (m : Nat) (i : Nat) : Nat := 0x3000808 + m * 0x10000 + i * 0x10
def MEM_CELOG_B.DEV (m : Nat) (i : Nat) : Fld := ⟨MEM_CELOG_B.off m i, 0, 4⟩
def MEM_CELOG_B.SUBCH (m : Nat) (i : Nat) : Fld := ⟨MEM_CELOG_B.off m i, 4, 1⟩
def MEM_CELOG_B.RANK (m : Nat) (i : Nat) : Fld := ⟨MEM_CELOG_B.off m i, 5, 3⟩
def MEM_CELOG_B.COUNT (m : Nat) (i : Nat) : Fld := ⟨MEM_CELOG_B.off m i, 8, 16⟩
def MEM_CELOG_B.SCRUB (m : Nat) (i : Nat) : Fld := ⟨MEM_CELOG_B.off m i, 24, 1⟩
def MEM_CELOG_B.ERASED (m : Nat) (i : Nat) : Fld := ⟨MEM_CELOG_B.off m i, 25, 1⟩
def MEM_CELOG_B.VALID (m : Nat) (i : Nat) : Fld := ⟨MEM_CELOG_B.off m i, 63, 1⟩
def MEM_CEPTR.off (m : Nat) : Nat := 0x3000080 + m * 0x10000
def MEM_CEPTR.HEAD (m : Nat) : Fld := ⟨MEM_CEPTR.off m, 0, 6⟩
def MEM_CEPTR.TAIL (m : Nat) : Fld := ⟨MEM_CEPTR.off m, 8, 6⟩
def MEM_CEPTR.LOSTCNT (m : Nat) : Fld := ⟨MEM_CEPTR.off m, 16, 16⟩
def MEM_UELOG.off (m : Nat) : Nat := 0x3000088 + m * 0x10000
def MEM_UELOG.SECTOR (m : Nat) : Fld := ⟨MEM_UELOG.off m, 6, 42⟩
def MEM_UELOG.KIND (m : Nat) : Fld := ⟨MEM_UELOG.off m, 48, 2⟩
def MEM_UELOG.OVERFLOW (m : Nat) : Fld := ⟨MEM_UELOG.off m, 62, 1⟩
def MEM_UELOG.VALID (m : Nat) : Fld := ⟨MEM_UELOG.off m, 63, 1⟩
def MEM_SELV.off (m : Nat) : Nat := 0x3000090 + m * 0x10000
def MEM_SELV.COUNT (m : Nat) : Fld := ⟨MEM_SELV.off m, 0, 32⟩
def MEM_SELV.LASTTEN (m : Nat) : Fld := ⟨MEM_SELV.off m, 32, 10⟩
def MEM_FLIPD.off (m : Nat) : Nat := 0x30000a0 + m * 0x10000
def MEM_FLIPD.MASK (m : Nat) : Fld := ⟨MEM_FLIPD.off m, 0, 64⟩
def MEM_FLIPC.off (m : Nat) : Nat := 0x30000a8 + m * 0x10000
def MEM_FLIPC.CMASK (m : Nat) : Fld := ⟨MEM_FLIPC.off m, 0, 32⟩
def MEM_FLIPC.CGRP (m : Nat) : Fld := ⟨MEM_FLIPC.off m, 32, 2⟩
def MEM_FLIPC.DGRP (m : Nat) : Fld := ⟨MEM_FLIPC.off m, 34, 3⟩
def MEM_FLIPC.ARM (m : Nat) : Fld := ⟨MEM_FLIPC.off m, 37, 1⟩
def MEM_FLIPC.FIRED (m : Nat) : Fld := ⟨MEM_FLIPC.off m, 38, 1⟩
def MEM_KEYDATA.off (j : Nat) : Nat := 0x3000100 + j * 0x8
def MEM_KEYDATA.KEY (j : Nat) : Fld := ⟨MEM_KEYDATA.off j, 0, 64⟩
def MEM_KEYCMD.off : Nat := 0x3000140
def MEM_KEYCMD.SLOT : Fld := ⟨MEM_KEYCMD.off, 0, 10⟩
def MEM_KEYCMD.OP : Fld := ⟨MEM_KEYCMD.off, 10, 2⟩
def MEM_KEYCMD.BUSY : Fld := ⟨MEM_KEYCMD.off, 12, 1⟩
def MEM_KEYCMD.STATE : Fld := ⟨MEM_KEYCMD.off, 13, 2⟩
def MEM_RGN_LO.off (m : Nat) (r : Nat) : Nat := 0x3001000 + m * 0x10000 + r * 0x10
def MEM_RGN_LO.EN (m : Nat) (r : Nat) : Fld := ⟨MEM_RGN_LO.off m r, 0, 1⟩
def MEM_RGN_LO.SHARED (m : Nat) (r : Nat) : Fld := ⟨MEM_RGN_LO.off m r, 1, 1⟩
def MEM_RGN_LO.TOKEN (m : Nat) (r : Nat) : Fld := ⟨MEM_RGN_LO.off m r, 2, 4⟩
def MEM_RGN_LO.OWNER (m : Nat) (r : Nat) : Fld := ⟨MEM_RGN_LO.off m r, 6, 10⟩
def MEM_RGN_LO.BASE (m : Nat) (r : Nat) : Fld := ⟨MEM_RGN_LO.off m r, 21, 27⟩
def MEM_RGN_HI.off (m : Nat) (r : Nat) : Nat := 0x3001008 + m * 0x10000 + r * 0x10
def MEM_RGN_HI.LIMIT (m : Nat) (r : Nat) : Fld := ⟨MEM_RGN_HI.off m r, 21, 27⟩
def CHS_CFG.off : Nat := 0x4000000
def CHS_CFG.DCEN : Fld := ⟨CHS_CFG.off, 0, 1⟩
def CHS_CFG.POOLPROT : Fld := ⟨CHS_CFG.off, 1, 1⟩
def CHS_DCINV.off : Nat := 0x4000008
def CHS_DCINV.GO : Fld := ⟨CHS_DCINV.off, 0, 1⟩
def CHS_DCINV.BUSY : Fld := ⟨CHS_DCINV.off, 1, 1⟩
def CHS_POOL.off : Nat := 0x4000010
def CHS_POOL.FREE : Fld := ⟨CHS_POOL.off, 0, 19⟩
def CHS_POOL.RESERVED : Fld := ⟨CHS_POOL.off, 19, 19⟩
def CHS_POOL.FULL : Fld := ⟨CHS_POOL.off, 38, 1⟩
def CHS_POOL.QREFUSE : Fld := ⟨CHS_POOL.off, 39, 1⟩
def CHS_POOLERR.off : Nat := 0x4000018
def CHS_POOLERR.CELL : Fld := ⟨CHS_POOLERR.off, 0, 18⟩
def CHS_POOLERR.VI : Fld := ⟨CHS_POOLERR.off, 18, 12⟩
def CHS_POOLERR.BOTH : Fld := ⟨CHS_POOLERR.off, 30, 1⟩
def CHS_POOLERR.PAIR : Fld := ⟨CHS_POOLERR.off, 32, 18⟩
def CHS_POOLERR.CECOUNT : Fld := ⟨CHS_POOLERR.off, 50, 10⟩
def CHS_POOLERR.OVERFLOW : Fld := ⟨CHS_POOLERR.off, 62, 1⟩
def CHS_POOLERR.VALID : Fld := ⟨CHS_POOLERR.off, 63, 1⟩
def CHS_SCCMD.off : Nat := 0x4000020
def CHS_SCCMD.SUBCH : Fld := ⟨CHS_SCCMD.off, 0, 16⟩
def CHS_SCCMD.OP : Fld := ⟨CHS_SCCMD.off, 16, 3⟩
def CHS_SCCMD.RESULT : Fld := ⟨CHS_SCCMD.off, 20, 4⟩
def CHS_SCCMD.BUSY : Fld := ⟨CHS_SCCMD.off, 62, 1⟩
def CHS_SCDATA0.off : Nat := 0x4000080
def CHS_SCDATA0.STATE : Fld := ⟨CHS_SCDATA0.off, 0, 3⟩
def CHS_SCDATA0.KIND : Fld := ⟨CHS_SCDATA0.off, 3, 2⟩
def CHS_SCDATA0.VI : Fld := ⟨CHS_SCDATA0.off, 16, 12⟩
def CHS_SCDATA0.TENANT : Fld := ⟨CHS_SCDATA0.off, 28, 10⟩
def CHS_SCDATA0.PORT : Fld := ⟨CHS_SCDATA0.off, 38, 6⟩
def CHS_SCDATA1.off : Nat := 0x4000088
def CHS_SCDATA1.TARGET : Fld := ⟨CHS_SCDATA1.off, 0, 32⟩
def CHS_SCDATA1.BLKLOG2 : Fld := ⟨CHS_SCDATA1.off, 32, 8⟩
def CHS_SCDATA2.off : Nat := 0x4000090
def CHS_SCDATA2.NEXTSEQ : Fld := ⟨CHS_SCDATA2.off, 0, 48⟩
def CHS_SCDATA3.off : Nat := 0x4000098
def CHS_SCDATA3.OPEN : Fld := ⟨CHS_SCDATA3.off, 0, 13⟩
def CHS_SCDATA3.OPMAX : Fld := ⟨CHS_SCDATA3.off, 16, 13⟩
def CHS_SCDATA3.TMO : Fld := ⟨CHS_SCDATA3.off, 32, 16⟩
def CHS_SCDATA4.off : Nat := 0x40000a0
def CHS_SCDATA4.HALTSEQ : Fld := ⟨CHS_SCDATA4.off, 0, 48⟩
def CHS_SHUT.off (s : Nat) : Nat := 0x4000100 + s * 0x8
def CHS_SHUT.QUAD (s : Nat) : Fld := ⟨CHS_SHUT.off s, 0, 4⟩
def CHS_SHUT.STATE (s : Nat) : Fld := ⟨CHS_SHUT.off s, 4, 3⟩
def CHS_SHUT.RESTARTS (s : Nat) : Fld := ⟨CHS_SHUT.off s, 8, 8⟩
def CHS_SHUT.FWVER (s : Nat) : Fld := ⟨CHS_SHUT.off s, 16, 32⟩
def CHS_EVQ.off (c : Nat) : Nat := 0x4000200 + c * 0x8
def CHS_EVQ.QUOTA (c : Nat) : Fld := ⟨CHS_EVQ.off c, 0, 12⟩
def CHS_EVQ.USED (c : Nat) : Fld := ⟨CHS_EVQ.off c, 16, 12⟩
def CHS_DCWAYS.off (n : Nat) : Nat := 0x4002000 + n * 0x8
def CHS_DCWAYS.WAYS (n : Nat) : Fld := ⟨CHS_DCWAYS.off n, 0, 16⟩
def CHS_VI_CFG.off (v : Nat) : Nat := 0x4010000 + v * 0x20
def CHS_VI_CFG.EN (v : Nat) : Fld := ⟨CHS_VI_CFG.off v, 0, 1⟩
def CHS_VI_CFG.SUSPEND (v : Nat) : Fld := ⟨CHS_VI_CFG.off v, 1, 1⟩
def CHS_VI_CFG.CANCEL (v : Nat) : Fld := ⟨CHS_VI_CFG.off v, 2, 1⟩
def CHS_VI_CFG.QUIET (v : Nat) : Fld := ⟨CHS_VI_CFG.off v, 3, 1⟩
def CHS_VI_CFG.TENANT (v : Nat) : Fld := ⟨CHS_VI_CFG.off v, 4, 10⟩
def CHS_VI_CFG.RINGFAULT (v : Nat) : Fld := ⟨CHS_VI_CFG.off v, 14, 1⟩
def CHS_VI_CFG.QUOTA (v : Nat) : Fld := ⟨CHS_VI_CFG.off v, 16, 16⟩
def CHS_VI_CFG.QUEUED (v : Nat) : Fld := ⟨CHS_VI_CFG.off v, 32, 16⟩
def CHS_VI_S2.off (v : Nat) : Nat := 0x4010008 + v * 0x20
def CHS_VI_S2.ROOT (v : Nat) : Fld := ⟨CHS_VI_S2.off v, 12, 40⟩
def CHS_VI_RING.off (v : Nat) : Nat := 0x4010010 + v * 0x20
def CHS_VI_RING.BASE (v : Nat) : Fld := ⟨CHS_VI_RING.off v, 12, 40⟩
def CHS_VI_RING.SIZE (v : Nat) : Fld := ⟨CHS_VI_RING.off v, 52, 4⟩
def CHS_VI_DLOG.off (v : Nat) : Nat := 0x4010018 + v * 0x20
def CHS_VI_DLOG.EN (v : Nat) : Fld := ⟨CHS_VI_DLOG.off v, 0, 1⟩
def CHS_VI_DLOG.OVER (v : Nat) : Fld := ⟨CHS_VI_DLOG.off v, 1, 1⟩
def CHS_VI_DLOG.BASE (v : Nat) : Fld := ⟨CHS_VI_DLOG.off v, 12, 40⟩
def CHS_VI_DLOG.PAGESLOG2 (v : Nat) : Fld := ⟨CHS_VI_DLOG.off v, 52, 6⟩
def VI_DB.off (v : Nat) (i : Nat) : Nat := 0x8000000 + v * 0x1000 + i * 0x10
def VI_DB.ORB (v : Nat) (i : Nat) : Fld := ⟨VI_DB.off v i, 6, 46⟩
def VI_STAT.off (v : Nat) (i : Nat) : Nat := 0x8000008 + v * 0x1000 + i * 0x10
def VI_STAT.STATE (v : Nat) (i : Nat) : Fld := ⟨VI_STAT.off v i, 0, 2⟩
def VI_STAT.COLLIDE (v : Nat) (i : Nat) : Fld := ⟨VI_STAT.off v i, 2, 1⟩
def VI_STAT.REASON (v : Nat) (i : Nat) : Fld := ⟨VI_STAT.off v i, 8, 8⟩
def VI_STAT.SEQ (v : Nat) (i : Nat) : Fld := ⟨VI_STAT.off v i, 16, 48⟩
def VI_VSTAT.off (v : Nat) : Nat := 0x8000400 + v * 0x1000
def VI_VSTAT.OVERRUN (v : Nat) : Fld := ⟨VI_VSTAT.off v, 0, 1⟩
def VI_VSTAT.SUSPENDED (v : Nat) : Fld := ⟨VI_VSTAT.off v, 1, 1⟩
def VI_VSTAT.FULL (v : Nat) : Fld := ⟨VI_VSTAT.off v, 2, 1⟩
def VI_VSTAT.RINGFAULT (v : Nat) : Fld := ⟨VI_VSTAT.off v, 3, 1⟩
def VI_VSTAT.QUEUED (v : Nat) : Fld := ⟨VI_VSTAT.off v, 16, 16⟩
def VI_CQTAIL.off (v : Nat) : Nat := 0x8000408 + v * 0x1000
def VI_CQTAIL.TAIL (v : Nat) : Fld := ⟨VI_CQTAIL.off v, 0, 16⟩
def VI_CQHEAD.off (v : Nat) : Nat := 0x8000410 + v * 0x1000
def VI_CQHEAD.HEAD (v : Nat) : Fld := ⟨VI_CQHEAD.off v, 0, 16⟩
def VI_CQHEAD.PHASE (v : Nat) : Fld := ⟨VI_CQHEAD.off v, 16, 1⟩
def CHP_CFG.off (p : Nat) : Nat := 0x4100000 + p * 0x1000
def CHP_CFG.MODE (p : Nat) : Fld := ⟨CHP_CFG.off p, 0, 1⟩
def CHP_CFG.MAXRATE (p : Nat) : Fld := ⟨CHP_CFG.off p, 1, 3⟩
def CHP_CFG.HOLDMS (p : Nat) : Fld := ⟨CHP_CFG.off p, 8, 8⟩
def CHP_CTL.off (p : Nat) : Nat := 0x4100008 + p * 0x1000
def CHP_CTL.DISABLE (p : Nat) : Fld := ⟨CHP_CTL.off p, 0, 1⟩
def CHP_CTL.FORCE (p : Nat) : Fld := ⟨CHP_CTL.off p, 1, 1⟩
def CHP_CTL.RETRAIN (p : Nat) : Fld := ⟨CHP_CTL.off p, 2, 1⟩
def CHP_STAT.off (p : Nat) : Nat := 0x4100010 + p * 0x1000
def CHP_STAT.LINK (p : Nat) : Fld := ⟨CHP_STAT.off p, 0, 2⟩
def CHP_STAT.RATE (p : Nat) : Fld := ⟨CHP_STAT.off p, 2, 3⟩
def CHP_STAT.WIDTH (p : Nat) : Fld := ⟨CHP_STAT.off p, 5, 3⟩
def CHP_STAT.FLIT (p : Nat) : Fld := ⟨CHP_STAT.off p, 8, 1⟩
def CHP_STAT.DEAD (p : Nat) : Fld := ⟨CHP_STAT.off p, 9, 1⟩
def CHP_STAT.REFUSED (p : Nat) : Fld := ⟨CHP_STAT.off p, 10, 1⟩
def CHP_MMIO.off (p : Nat) : Nat := 0x4100018 + p * 0x1000
def CHP_MMIO.EN (p : Nat) : Fld := ⟨CHP_MMIO.off p, 0, 1⟩
def CHP_MMIO.BASE (p : Nat) : Fld := ⟨CHP_MMIO.off p, 8, 24⟩
def CHP_MMIO.LIMIT (p : Nat) : Fld := ⟨CHP_MMIO.off p, 32, 24⟩
def CHP_WERR.off (p : Nat) : Nat := 0x4100020 + p * 0x1000
def CHP_WERR.FECCORR (p : Nat) : Fld := ⟨CHP_WERR.off p, 0, 16⟩
def CHP_WERR.REPLAY (p : Nat) : Fld := ⟨CHP_WERR.off p, 16, 16⟩
def CHP_WERR.RETRAIN (p : Nat) : Fld := ⟨CHP_WERR.off p, 32, 8⟩
def CHP_WERR.FRAMECRC (p : Nat) : Fld := ⟨CHP_WERR.off p, 40, 8⟩
def CHP_WERR.DUPACK (p : Nat) : Fld := ⟨CHP_WERR.off p, 48, 8⟩
def CHP_WERR.BADTYPE (p : Nat) : Fld := ⟨CHP_WERR.off p, 56, 8⟩
def CIP_STAT.off (e : Nat) : Nat := 0x5000000 + e * 0x100000
def CIP_STAT.STATE (e : Nat) : Fld := ⟨CIP_STAT.off e, 0, 2⟩
def CIP_STAT.TENANT (e : Nat) : Fld := ⟨CIP_STAT.off e, 2, 10⟩
def CIP_STAT.JOBS (e : Nat) : Fld := ⟨CIP_STAT.off e, 16, 32⟩
def CIP_STAT.PARERR (e : Nat) : Fld := ⟨CIP_STAT.off e, 48, 8⟩
def CMP_STAT.off (e : Nat) : Nat := 0x6000000 + e * 0x100000
def CMP_STAT.STATE (e : Nat) : Fld := ⟨CMP_STAT.off e, 0, 2⟩
def CMP_STAT.TENANT (e : Nat) : Fld := ⟨CMP_STAT.off e, 2, 10⟩
def CMP_STAT.JOBS (e : Nat) : Fld := ⟨CMP_STAT.off e, 16, 32⟩
def CMP_STAT.PARERR (e : Nat) : Fld := ⟨CMP_STAT.off e, 48, 8⟩
def CIP_RING_CFG.off (e : Nat) (r : Nat) : Nat := 0x5001000 + e * 0x100000 + r * 0x10
def CIP_RING_CFG.EN (e : Nat) (r : Nat) : Fld := ⟨CIP_RING_CFG.off e r, 0, 1⟩
def CIP_RING_CFG.HALTED (e : Nat) (r : Nat) : Fld := ⟨CIP_RING_CFG.off e r, 1, 1⟩
def CIP_RING_CFG.RESTART (e : Nat) (r : Nat) : Fld := ⟨CIP_RING_CFG.off e r, 2, 1⟩
def CIP_RING_CFG.REASON (e : Nat) (r : Nat) : Fld := ⟨CIP_RING_CFG.off e r, 8, 4⟩
def CIP_RING_CFG.VI (e : Nat) (r : Nat) : Fld := ⟨CIP_RING_CFG.off e r, 16, 12⟩
def CIP_RING_CFG.HSLOT (e : Nat) (r : Nat) : Fld := ⟨CIP_RING_CFG.off e r, 32, 16⟩
def CMP_RING_CFG.off (e : Nat) (r : Nat) : Nat := 0x6001000 + e * 0x100000 + r * 0x10
def CMP_RING_CFG.EN (e : Nat) (r : Nat) : Fld := ⟨CMP_RING_CFG.off e r, 0, 1⟩
def CMP_RING_CFG.HALTED (e : Nat) (r : Nat) : Fld := ⟨CMP_RING_CFG.off e r, 1, 1⟩
def CMP_RING_CFG.RESTART (e : Nat) (r : Nat) : Fld := ⟨CMP_RING_CFG.off e r, 2, 1⟩
def CMP_RING_CFG.REASON (e : Nat) (r : Nat) : Fld := ⟨CMP_RING_CFG.off e r, 8, 4⟩
def CMP_RING_CFG.VI (e : Nat) (r : Nat) : Fld := ⟨CMP_RING_CFG.off e r, 16, 12⟩
def CMP_RING_CFG.HSLOT (e : Nat) (r : Nat) : Fld := ⟨CMP_RING_CFG.off e r, 32, 16⟩
def CIP_RING_BASE.off (e : Nat) (r : Nat) : Nat := 0x5001008 + e * 0x100000 + r * 0x10
def CIP_RING_BASE.BASE (e : Nat) (r : Nat) : Fld := ⟨CIP_RING_BASE.off e r, 12, 40⟩
def CIP_RING_BASE.SIZE (e : Nat) (r : Nat) : Fld := ⟨CIP_RING_BASE.off e r, 52, 4⟩
def CMP_RING_BASE.off (e : Nat) (r : Nat) : Nat := 0x6001008 + e * 0x100000 + r * 0x10
def CMP_RING_BASE.BASE (e : Nat) (r : Nat) : Fld := ⟨CMP_RING_BASE.off e r, 12, 40⟩
def CMP_RING_BASE.SIZE (e : Nat) (r : Nat) : Fld := ⟨CMP_RING_BASE.off e r, 52, 4⟩
def CIP_KSDATA.off (j : Nat) : Nat := 0x5000100 + j * 0x8
def CIP_KSDATA.KEY (j : Nat) : Fld := ⟨CIP_KSDATA.off j, 0, 64⟩
def CIP_KSCMD.off : Nat := 0x5000140
def CIP_KSCMD.SLOT : Fld := ⟨CIP_KSCMD.off, 0, 13⟩
def CIP_KSCMD.OP : Fld := ⟨CIP_KSCMD.off, 13, 2⟩
def CIP_KSCMD.BUSY : Fld := ⟨CIP_KSCMD.off, 15, 1⟩
def CIP_KSCMD.KTYPE : Fld := ⟨CIP_KSCMD.off, 16, 3⟩
def CIP_KSCMD.TARGET : Fld := ⟨CIP_KSCMD.off, 19, 1⟩
def CIP_KS_CFG.off (k : Nat) : Nat := 0x5080000 + k * 0x40
def CIP_KS_CFG.OWNER (k : Nat) : Fld := ⟨CIP_KS_CFG.off k, 0, 10⟩
def CIP_KS_CFG.STATE (k : Nat) : Fld := ⟨CIP_KS_CFG.off k, 10, 2⟩
def CIP_KS_CFG.KTYPE (k : Nat) : Fld := ⟨CIP_KS_CFG.off k, 12, 3⟩
def CIP_KS_CFG.GRANT (k : Nat) : Fld := ⟨CIP_KS_CFG.off k, 16, 1⟩
def CIP_KS_INVLIM.off (k : Nat) : Nat := 0x5080008 + k * 0x40
def CIP_KS_INVLIM.LIMIT (k : Nat) : Fld := ⟨CIP_KS_INVLIM.off k, 0, 49⟩
def CIP_KS_INVCNT.off (k : Nat) : Nat := 0x5080010 + k * 0x40
def CIP_KS_INVCNT.COUNT (k : Nat) : Fld := ⟨CIP_KS_INVCNT.off k, 0, 49⟩
def CIP_KS_BYTLIM.off (k : Nat) : Nat := 0x5080018 + k * 0x40
def CIP_KS_BYTLIM.LIMIT (k : Nat) : Fld := ⟨CIP_KS_BYTLIM.off k, 0, 57⟩
def CIP_KS_BYTCNT.off (k : Nat) : Nat := 0x5080020 + k * 0x40
def CIP_KS_BYTCNT.COUNT (k : Nat) : Fld := ⟨CIP_KS_BYTCNT.off k, 0, 57⟩
def FCU_CFG.off : Nat := 0x200000
def FCU_CFG.HCORD : Fld := ⟨FCU_CFG.off, 0, 7⟩
def FCU_REC.off : Nat := 0x200008
def FCU_REC.SRC : Fld := ⟨FCU_REC.off, 0, 10⟩
def FCU_REC.SEV : Fld := ⟨FCU_REC.off, 10, 2⟩
def FCU_REC.WIRE : Fld := ⟨FCU_REC.off, 12, 1⟩
def FCU_REC.INJ : Fld := ⟨FCU_REC.off, 13, 1⟩
def FCU_REC.FAR : Fld := ⟨FCU_REC.off, 14, 9⟩
def FCU_REC.MAXSEV : Fld := ⟨FCU_REC.off, 24, 2⟩
def FCU_REC.REACT : Fld := ⟨FCU_REC.off, 26, 3⟩
def FCU_REC.MERGED : Fld := ⟨FCU_REC.off, 32, 16⟩
def FCU_REC.CONSEQ : Fld := ⟨FCU_REC.off, 48, 8⟩
def FCU_REC.VALID : Fld := ⟨FCU_REC.off, 63, 1⟩
def FCU_RECTIME.off : Nat := 0x200010
def FCU_RECTIME.PICK : Fld := ⟨FCU_RECTIME.off, 0, 48⟩
def FCU_RECTIME.RCLK : Fld := ⟨FCU_RECTIME.off, 48, 14⟩
def FCU_RECTIME.PREPICK : Fld := ⟨FCU_RECTIME.off, 62, 1⟩
def FCU_RECINFO.off : Nat := 0x200018
def FCU_RECINFO.INFO : Fld := ⟨FCU_RECINFO.off, 0, 64⟩
def FCU_INJ.off : Nat := 0x200020
def FCU_INJ.SRC : Fld := ⟨FCU_INJ.off, 0, 10⟩
def FCU_INJ.SEV : Fld := ⟨FCU_INJ.off, 10, 2⟩
def FCU_INJ.PATTERN : Fld := ⟨FCU_INJ.off, 12, 2⟩
def FCU_INJ.FAR : Fld := ⟨FCU_INJ.off, 14, 9⟩
def FCU_INJ.GO : Fld := ⟨FCU_INJ.off, 63, 1⟩
def FCU_ALSO.off (k : Nat) : Nat := 0x200100 + k * 0x8
def FCU_ALSO.SRCS (k : Nat) : Fld := ⟨FCU_ALSO.off k, 0, 64⟩
def FCU_SRC.off (k : Nat) : Nat := 0x202000 + k * 0x8
def FCU_SRC.RCE (k : Nat) : Fld := ⟨FCU_SRC.off k, 0, 3⟩
def FCU_SRC.RDE (k : Nat) : Fld := ⟨FCU_SRC.off k, 3, 3⟩
def FCU_SRC.RUC (k : Nat) : Fld := ⟨FCU_SRC.off k, 6, 3⟩
def FCU_SRC.RUF (k : Nat) : Fld := ⟨FCU_SRC.off k, 9, 3⟩
def FCU_SRC.CAPS (k : Nat) : Fld := ⟨FCU_SRC.off k, 12, 4⟩
def FCU_SRC.MASK (k : Nat) : Fld := ⟨FCU_SRC.off k, 16, 1⟩
def FCU_SRC.WIRE (k : Nat) : Fld := ⟨FCU_SRC.off k, 17, 1⟩
def FCU_SRC.FAILED (k : Nat) : Fld := ⟨FCU_SRC.off k, 18, 1⟩
def FCU_CNT.off (k : Nat) : Nat := 0x204000 + k * 0x8
def FCU_CNT.CE (k : Nat) : Fld := ⟨FCU_CNT.off k, 0, 32⟩
def FCU_CNT.DE (k : Nat) : Fld := ⟨FCU_CNT.off k, 32, 16⟩
def FCU_CNT.UC (k : Nat) : Fld := ⟨FCU_CNT.off k, 48, 12⟩
def FCU_CNT.UF (k : Nat) : Fld := ⟨FCU_CNT.off k, 60, 4⟩
def SPL_BOLT.off : Nat := 0x600000
def SPL_BOLT.MID : Fld := ⟨SPL_BOLT.off, 0, 4⟩
def SPL_BOLT.ROLE : Fld := ⟨SPL_BOLT.off, 4, 2⟩
def SPL_BOLT.ADMITTED : Fld := ⟨SPL_BOLT.off, 6, 1⟩
def SPL_BOLT.ALIASV : Fld := ⟨SPL_BOLT.off, 7, 1⟩
def SPL_BOLT.ALIAS : Fld := ⟨SPL_BOLT.off, 8, 4⟩
def SPL_BOLT.MEMBERS : Fld := ⟨SPL_BOLT.off, 16, 16⟩
def SPL_BOLT.DEAD : Fld := ⟨SPL_BOLT.off, 32, 16⟩
def SPL_BOLT.STANDBYS : Fld := ⟨SPL_BOLT.off, 48, 16⟩
def SPL_ADMIT.off : Nat := 0x600008
def SPL_ADMIT.LINK : Fld := ⟨SPL_ADMIT.off, 0, 4⟩
def SPL_ADMIT.PENDING : Fld := ⟨SPL_ADMIT.off, 4, 1⟩
def SPL_ADMIT.SIGV : Fld := ⟨SPL_ADMIT.off, 5, 1⟩
def SPL_ADMIT.MID : Fld := ⟨SPL_ADMIT.off, 8, 4⟩
def SPL_ADMIT.OP : Fld := ⟨SPL_ADMIT.off, 12, 2⟩
def SPL_ADMIT.BUSY : Fld := ⟨SPL_ADMIT.off, 14, 1⟩
def SPL_ADMIT.RESULT : Fld := ⟨SPL_ADMIT.off, 16, 3⟩
def SPL_NONCE.off (j : Nat) : Nat := 0x600020 + j * 0x8
def SPL_NONCE.NONCE (j : Nat) : Fld := ⟨SPL_NONCE.off j, 0, 64⟩
def SPL_IDENT.off (j : Nat) : Nat := 0x600400 + j * 0x8
def SPL_IDENT.IDENT (j : Nat) : Fld := ⟨SPL_IDENT.off j, 0, 64⟩
def SPL_LEAVE.off : Nat := 0x600010
def SPL_LEAVE.GO : Fld := ⟨SPL_LEAVE.off, 0, 1⟩
def SPL_LEAVE.BUSY : Fld := ⟨SPL_LEAVE.off, 1, 1⟩
def SPL_LEAVE.DONE : Fld := ⟨SPL_LEAVE.off, 2, 1⟩
def SPL_LEAVE.REFUSED : Fld := ⟨SPL_LEAVE.off, 3, 1⟩
def SPL_CFG.off : Nat := 0x600100
def SPL_CFG.SPLICED : Fld := ⟨SPL_CFG.off, 0, 1⟩
def SPL_CFG.START : Fld := ⟨SPL_CFG.off, 1, 1⟩
def SPL_CFG.TWINMID : Fld := ⟨SPL_CFG.off, 2, 4⟩
def SPL_CFG.ARBEN : Fld := ⟨SPL_CFG.off, 6, 1⟩
def SPL_CFG.ARBA : Fld := ⟨SPL_CFG.off, 7, 4⟩
def SPL_CFG.ARBB : Fld := ⟨SPL_CFG.off, 11, 4⟩
def SPL_CKPT.off : Nat := 0x600108
def SPL_CKPT.EN : Fld := ⟨SPL_CKPT.off, 0, 1⟩
def SPL_CKPT.SIZE : Fld := ⟨SPL_CKPT.off, 1, 16⟩
def SPL_CKPT.BASE : Fld := ⟨SPL_CKPT.off, 21, 31⟩
def SPL_STAT.off : Nat := 0x600110
def SPL_STAT.STATE : Fld := ⟨SPL_STAT.off, 0, 3⟩
def SPL_STAT.UNDOWAIT : Fld := ⟨SPL_STAT.off, 3, 1⟩
def SPL_STAT.CKFAIL : Fld := ⟨SPL_STAT.off, 4, 3⟩
def SPL_STAT.SKIPS : Fld := ⟨SPL_STAT.off, 8, 8⟩
def SPL_STAT.EPOCH : Fld := ⟨SPL_STAT.off, 16, 48⟩
def SPL_ARB.off : Nat := 0x600118
def SPL_ARB.MISSED : Fld := ⟨SPL_ARB.off, 0, 2⟩
def SPL_ARB.DECIDED : Fld := ⟨SPL_ARB.off, 2, 1⟩
def SPL_ARB.LASTPICK : Fld := ⟨SPL_ARB.off, 16, 48⟩
def SPL_CTL.off : Nat := 0x600120
def SPL_CTL.SWITCH : Fld := ⟨SPL_CTL.off, 0, 1⟩
def SPL_CTL.DECIDE : Fld := ⟨SPL_CTL.off, 1, 1⟩
def SPL_PROT.off (k : Nat) : Nat := 0x600200 + k * 0x8
def SPL_PROT.TENANTS (k : Nat) : Fld := ⟨SPL_PROT.off k, 0, 64⟩
def PWR_MODSTAT.off : Nat := 0x300000
def PWR_MODSTAT.LIFE : Fld := ⟨PWR_MODSTAT.off, 0, 4⟩
def PWR_RETSTAT.off : Nat := 0x300010
def PWR_RETSTAT.LOST : Fld := ⟨PWR_RETSTAT.off, 0, 32⟩
def PWR_CLK.off : Nat := 0x300020
def PWR_CLK.SCLK : Fld := ⟨PWR_CLK.off, 0, 12⟩
def PWR_CLK.HALVED : Fld := ⟨PWR_CLK.off, 12, 4⟩
def PWR_CLK.REMAIN : Fld := ⟨PWR_CLK.off, 16, 5⟩
def PWR_STBY.off : Nat := 0x300028
def PWR_STBY.LP : Fld := ⟨PWR_STBY.off, 0, 1⟩
def PWR_STBY.LOAD : Fld := ⟨PWR_STBY.off, 1, 11⟩
def PWR_PADREL.off : Nat := 0x300030
def PWR_PADREL.DOMAIN : Fld := ⟨PWR_PADREL.off, 0, 9⟩
def PWR_PADREL.ALL : Fld := ⟨PWR_PADREL.off, 9, 1⟩
def PWR_PADREL.GO : Fld := ⟨PWR_PADREL.off, 63, 1⟩
def PWR_MODCMD.off : Nat := 0x300038
def PWR_MODCMD.OP : Fld := ⟨PWR_MODCMD.off, 0, 2⟩
def PWR_MODCMD.BUSY : Fld := ⟨PWR_MODCMD.off, 2, 1⟩
def PWR_DARK.off : Nat := 0x300040
def PWR_DARK.COUNT : Fld := ⟨PWR_DARK.off, 0, 32⟩
def PWR_DARK.DOMAIN : Fld := ⟨PWR_DARK.off, 32, 9⟩
def PWR_WAKE.off : Nat := 0x300048
def PWR_WAKE.GO : Fld := ⟨PWR_WAKE.off, 0, 1⟩
def PWR_REFLAST.off : Nat := 0x300080
def PWR_REFLAST.REFUSER : Fld := ⟨PWR_REFLAST.off, 0, 4⟩
def PWR_REFLAST.DOMAIN : Fld := ⟨PWR_REFLAST.off, 4, 9⟩
def PWR_REFLAST.VALID : Fld := ⟨PWR_REFLAST.off, 63, 1⟩
def PWR_REFCNT.off (i : Nat) : Nat := 0x300100 + i * 0x8
def PWR_REFCNT.COUNT (i : Nat) : Fld := ⟨PWR_REFCNT.off i, 0, 32⟩
def PWR_RAIL.off (k : Nat) : Nat := 0x300200 + k * 0x8
def PWR_RAIL.NOM (k : Nat) : Fld := ⟨PWR_RAIL.off k, 0, 12⟩
def PWR_RAIL.WARNCNT (k : Nat) : Fld := ⟨PWR_RAIL.off k, 12, 16⟩
def PWR_RAIL.BELOW (k : Nat) : Fld := ⟨PWR_RAIL.off k, 28, 1⟩
def PWR_RAIL.ARMED (k : Nat) : Fld := ⟨PWR_RAIL.off k, 29, 1⟩
def PWR_DOM.off (d : Nat) : Nat := 0x301000 + d * 0x8
def PWR_DOM.REQ (d : Nat) : Fld := ⟨PWR_DOM.off d, 0, 2⟩
def PWR_DOM.CUR (d : Nat) : Fld := ⟨PWR_DOM.off d, 2, 2⟩
def PWR_DOM.BUSY (d : Nat) : Fld := ⟨PWR_DOM.off d, 4, 1⟩
def PWR_DOM.LOST (d : Nat) : Fld := ⟨PWR_DOM.off d, 5, 1⟩
def PWR_DOM.PADLATCH (d : Nat) : Fld := ⟨PWR_DOM.off d, 6, 1⟩
def PWR_DOM.PINNED (d : Nat) : Fld := ⟨PWR_DOM.off d, 7, 1⟩
def PWR_DOM.LASTREF (d : Nat) : Fld := ⟨PWR_DOM.off d, 8, 4⟩
def PROF_SEL.off : Nat := 0x50
def PROF_SEL.PROFILE : Fld := ⟨PROF_SEL.off, 0, 2⟩
def PROF_SEL.EN : Fld := ⟨PROF_SEL.off, 2, 1⟩
def PROF_SEL.ONCE : Fld := ⟨PROF_SEL.off, 3, 1⟩
def PROF_SEL.PINS : Fld := ⟨PROF_SEL.off, 4, 2⟩
def MOD_ID.off : Nat := 0x0
def MOD_ID.PART : Fld := ⟨MOD_ID.off, 0, 16⟩
def MOD_ID.STEP : Fld := ⟨MOD_ID.off, 16, 4⟩
def MOD_ID.SCREEN : Fld := ⟨MOD_ID.off, 20, 1⟩
def MOD_SERIAL.off (j : Nat) : Nat := 0x8 + j * 0x8
def MOD_SERIAL.SERIAL (j : Nat) : Fld := ⟨MOD_SERIAL.off j, 0, 64⟩
def BOOT_CAUSE.off : Nat := 0x58
def BOOT_CAUSE.KIND : Fld := ⟨BOOT_CAUSE.off, 0, 4⟩
def BOOT_CAUSE.RAIL : Fld := ⟨BOOT_CAUSE.off, 4, 4⟩
def BOOT_CAUSE.SAFE : Fld := ⟨BOOT_CAUSE.off, 8, 1⟩
def BOOT_CAUSE.RETLOST : Fld := ⟨BOOT_CAUSE.off, 9, 1⟩
def BOOT_CAUSE.PREVPROF : Fld := ⟨BOOT_CAUSE.off, 10, 2⟩
def BOOT_CAUSE.PROF : Fld := ⟨BOOT_CAUSE.off, 12, 2⟩
def BOOT_CAUSE.BYSEL : Fld := ⟨BOOT_CAUSE.off, 14, 1⟩
def BOOT_CAUSE.WARMCNT : Fld := ⟨BOOT_CAUSE.off, 16, 16⟩
def MOD_BOOTSTAT.off : Nat := 0x60
def MOD_BOOTSTAT.COPY : Fld := ⟨MOD_BOOTSTAT.off, 0, 2⟩
def MOD_BOOTSTAT.AFAIL : Fld := ⟨MOD_BOOTSTAT.off, 2, 3⟩
def MOD_BOOTSTAT.BFAIL : Fld := ⟨MOD_BOOTSTAT.off, 5, 3⟩
def MOD_BOOTSTAT.CORD : Fld := ⟨MOD_BOOTSTAT.off, 8, 7⟩
def MOD_BOOTSTAT.CORDMOVED : Fld := ⟨MOD_BOOTSTAT.off, 15, 1⟩
def MOD_BOOTSTAT.FILLMS : Fld := ⟨MOD_BOOTSTAT.off, 16, 32⟩
def MOD_RST.off : Nat := 0x68
def MOD_RST.OP : Fld := ⟨MOD_RST.off, 0, 2⟩
def SEC_STAT.off : Nat := 0x400000
def SEC_STAT.ACCESS : Fld := ⟨SEC_STAT.off, 0, 2⟩
def SEC_STAT.PWDSET : Fld := ⟨SEC_STAT.off, 2, 1⟩
def SEC_STAT.REPROV : Fld := ⟨SEC_STAT.off, 3, 1⟩
def SEC_STAT.LOCKOUT : Fld := ⟨SEC_STAT.off, 4, 1⟩
def SEC_STAT.FAILS : Fld := ⟨SEC_STAT.off, 5, 5⟩
def SEC_STAT.CHALV : Fld := ⟨SEC_STAT.off, 10, 1⟩
def SEC_STAT.RESULT : Fld := ⟨SEC_STAT.off, 11, 3⟩
def SEC_STAT.BUSY : Fld := ⟨SEC_STAT.off, 14, 1⟩
def SEC_STAT.PWDGEN : Fld := ⟨SEC_STAT.off, 15, 3⟩
def SEC_CMD.off : Nat := 0x400008
def SEC_CMD.OP : Fld := ⟨SEC_CMD.off, 0, 3⟩
def SEC_CHAL.off (j : Nat) : Nat := 0x400010 + j * 0x8
def SEC_CHAL.CHAL (j : Nat) : Fld := ⟨SEC_CHAL.off j, 0, 64⟩
def SEC_AUTH.off (j : Nat) : Nat := 0x400040 + j * 0x8
def SEC_AUTH.AUTH (j : Nat) : Fld := ⟨SEC_AUTH.off j, 0, 64⟩
def RPL_CFG.off : Nat := 0x500000
def RPL_CFG.SCOPE : Fld := ⟨RPL_CFG.off, 0, 1⟩
def RPL_CFG.TENANT : Fld := ⟨RPL_CFG.off, 1, 10⟩
def RPL_CFG.DATA : Fld := ⟨RPL_CFG.off, 11, 1⟩
def RPL_CFG.FULLPOL : Fld := ⟨RPL_CFG.off, 12, 1⟩
def RPL_RING.off : Nat := 0x500008
def RPL_RING.BASE : Fld := ⟨RPL_RING.off, 12, 40⟩
def RPL_RING.SIZELOG2 : Fld := ⟨RPL_RING.off, 52, 6⟩
def RPL_HEAD.off : Nat := 0x500010
def RPL_HEAD.HEAD : Fld := ⟨RPL_HEAD.off, 0, 40⟩
def RPL_TAIL.off : Nat := 0x500018
def RPL_TAIL.TAIL : Fld := ⟨RPL_TAIL.off, 0, 40⟩
def RPL_CMD.off : Nat := 0x500020
def RPL_CMD.OP : Fld := ⟨RPL_CMD.off, 0, 3⟩
def RPL_CMD.BUSY : Fld := ⟨RPL_CMD.off, 3, 1⟩
def RPL_STAT.off : Nat := 0x500028
def RPL_STAT.STATE : Fld := ⟨RPL_STAT.off, 0, 3⟩
def RPL_STAT.REASON : Fld := ⟨RPL_STAT.off, 3, 4⟩
def RPL_STAT.GAPCNT : Fld := ⟨RPL_STAT.off, 8, 24⟩
def RPL_STAT.DIVCNT : Fld := ⟨RPL_STAT.off, 32, 16⟩
def RPL_DIV.off : Nat := 0x500030
def RPL_DIV.PICK : Fld := ⟨RPL_DIV.off, 0, 48⟩
def RPL_DIV.CORD : Fld := ⟨RPL_DIV.off, 48, 7⟩
def RPL_DIV.KIND : Fld := ⟨RPL_DIV.off, 55, 4⟩
def RPL_DIV.VALID : Fld := ⟨RPL_DIV.off, 63, 1⟩
def RPL_DIVEXP.off : Nat := 0x500038
def RPL_DIVEXP.VALUE : Fld := ⟨RPL_DIVEXP.off, 0, 64⟩
def RPL_DIVOBS.off : Nat := 0x500040
def RPL_DIVOBS.VALUE : Fld := ⟨RPL_DIVOBS.off, 0, 64⟩
def RPL_STOPAT.off : Nat := 0x500048
def RPL_STOPAT.PICK : Fld := ⟨RPL_STOPAT.off, 0, 48⟩
def RPL_STOPAT.EN : Fld := ⟨RPL_STOPAT.off, 63, 1⟩
def RPL_HOLD.off : Nat := 0x500050
def RPL_HOLD.BASE : Fld := ⟨RPL_HOLD.off, 12, 40⟩
def RPL_HOLD.SIZELOG2 : Fld := ⟨RPL_HOLD.off, 52, 6⟩
def PWR_THERM.off : Nat := 0x300300
def PWR_THERM.TMAX : Fld := ⟨PWR_THERM.off, 0, 8⟩
def PWR_THERM.THROTTLE : Fld := ⟨PWR_THERM.off, 8, 4⟩
def PWR_THERM.THRCNT : Fld := ⟨PWR_THERM.off, 16, 16⟩
def PWR_AGE.off (k : Nat) : Nat := 0x300310 + k * 0x8
def PWR_AGE.DEGRADE (k : Nat) : Fld := ⟨PWR_AGE.off k, 0, 16⟩
def PWR_AGE.CAL (k : Nat) : Fld := ⟨PWR_AGE.off k, 16, 1⟩
def PWR_AGE.AGEWARN (k : Nat) : Fld := ⟨PWR_AGE.off k, 17, 1⟩
def PWR_AGE.LIMIT (k : Nat) : Fld := ⟨PWR_AGE.off k, 32, 16⟩
def LOOM_LED.off (t : Nat) (i : Nat) : Nat := 0x180000 + t * 0x80 + i * 0x8
def LOOM_LED.COUNT (t : Nat) (i : Nat) : Fld := ⟨LOOM_LED.off t i, 0, 64⟩
def CHS_SCSENSE.off (j : Nat) : Nat := 0x40000a8 + j * 0x8
def CHS_SCSENSE.WORD (j : Nat) : Fld := ⟨CHS_SCSENSE.off j, 0, 64⟩

end Sys2Proof.Machine
end

