-- ==== Sys2Proof/Machine/Layout.lean ====
section
/-! DEFINITION. The layout of the control window as data: for each register its place, reset value, the bits that read as
zero because they are WO, the bits that reading clears, the bits kept across warm reset, and its writable fields
(00_scope R6, R9 to R11, and the register tables of the chapters). -/

namespace Sys2Proof.Machine

/-- Access types of R9 as a write sees them. `held` is a WO field whose written value the block keeps. -/
inductive Acc where
  | rw | wo | held | w1c | lock
  deriving DecidableEq, Repr

/-- Which values of a field are encodings; every other value is reserved under R11. -/
inductive Rule where
  | any
  | lt (n : Nat)
  | between (lo hi : Nat)
  | from1
  | ways4
  | device
  | ringSize
  | keyOp
  | keyType
  | cord
  | far
  | reaction (cls : Nat)
  | arbB
  | padDomain
  | rplTenant
  deriving DecidableEq, Repr

/-- When a field takes writes at all; a write that fails its gate is ignored and not recorded. `viOff` asks that the VI be disabled (R236). `clear bit back` asks
that a bit of the register `back` bytes above be 0. -/
inductive Gate where
  | always
  | clear (bit fwd : Nat)
  | ringOff
  | viOff
  | notBeat63
  | cordExists
  | split
  | factory
  | caps (cls : Nat)
  | manager
  | domWritable
  | secIdle
  | rplIdle
  deriving DecidableEq, Repr

/-- A writable field. -/
structure WField where
  lsb : Nat
  w : Nat
  acc : Acc
  rule : Rule
  gate : Gate
  deriving DecidableEq, Repr

/-- A register, or an array of registers of one layout in two dimensions. -/
structure RegRow where
  base : Nat
  n1 : Nat
  s1 : Nat
  n2 : Nat
  s2 : Nat
  reset : Nat
  hidden : Nat
  clr : Nat
  keep : Nat
  fields : List WField
  deriving DecidableEq, Repr

def rows.mod : List RegRow :=
  [
    -- MOD_PARAM
    ⟨0x40, 1, 0x8, 1, 0x1, 0x126cb210420c2130, 0x0, 0x0, 0x0, []⟩,
    -- MOD_MODE
    ⟨0x48, 1, 0x8, 1, 0x1, 0x0, 0x0, 0x0, 0x0, []⟩,
    -- MOD_CFGERR
    ⟨0x100, 1, 0x8, 1, 0x1, 0x0, 0x0, 0x0, 0x0, [⟨62, 1, .w1c, .any, .always⟩, ⟨63, 1, .w1c, .any, .always⟩]⟩,
    -- PROF_SEL
    ⟨0x50, 1, 0x8, 1, 0x1, 0x0, 0x0, 0x0, 0x3f, [⟨0, 2, .rw, .any, .always⟩, ⟨2, 1, .rw, .any, .always⟩, ⟨3, 1, .rw, .any, .always⟩]⟩,
    -- MOD_ID
    ⟨0x0, 1, 0x8, 1, 0x1, 0x10096, 0x0, 0x0, 0x0, []⟩,
    -- MOD_SERIAL
    ⟨0x8, 2, 0x8, 1, 0x1, 0x0, 0x0, 0x0, 0x0, []⟩,
    -- BOOT_CAUSE
    ⟨0x58, 1, 0x8, 1, 0x1, 0x200, 0x0, 0x0, 0xffff7fff, []⟩,
    -- MOD_BOOTSTAT
    ⟨0x60, 1, 0x8, 1, 0x1, 0x7f00, 0x0, 0x0, 0xffffffff0000, []⟩,
    -- MOD_RST
    ⟨0x68, 1, 0x8, 1, 0x1, 0x0, 0x3, 0x0, 0x0, [⟨0, 2, .wo, .lt 3, .always⟩]⟩ ]

def rows.loom : List RegRow :=
  [
    -- LOOM_PICK
    ⟨0x100000, 1, 0x8, 1, 0x1, 0x0, 0x0, 0x0, 0x0, []⟩,
    -- LOOM_SYNC
    ⟨0x100008, 1, 0x8, 1, 0x1, 0x0, 0x0, 0xff00, 0x0, [⟨0, 4, .rw, .any, .always⟩]⟩,
    -- LOOM_HEDS
    ⟨0x101000, 52, 0x100, 16, 0x8, 0x0, 0x0, 0x0, 0x0, [⟨0, 10, .rw, .any, .always⟩, ⟨14, 2, .rw, .lt 2, .always⟩, ⟨16, 10, .rw, .any, .always⟩, ⟨30, 2, .rw, .lt 2, .always⟩, ⟨32, 10, .rw, .any, .always⟩, ⟨46, 2, .rw, .lt 2, .always⟩, ⟨48, 10, .rw, .any, .notBeat63⟩, ⟨62, 2, .rw, .lt 2, .notBeat63⟩]⟩,
    -- LOOM_HEDA
    ⟨0x105000, 52, 0x100, 16, 0x8, 0x0, 0x0, 0x0, 0x0, []⟩,
    -- LOOM_COMMITAT
    ⟨0x100010, 1, 0x8, 1, 0x1, 0x0, 0x0, 0x0, 0x0, [⟨0, 32, .rw, .any, .always⟩, ⟨32, 1, .rw, .any, .always⟩]⟩,
    -- LOOM_COMMIT
    ⟨0x100018, 1, 0x8, 1, 0x1, 0x0, 0x1fffffffffffff, 0x0, 0x0, [⟨0, 52, .wo, .any, .always⟩, ⟨52, 1, .wo, .any, .always⟩]⟩,
    -- LOOM_STAT
    ⟨0x100020, 1, 0x8, 1, 0x1, 0x0, 0x0, 0x0, 0x0, [⟨1, 1, .w1c, .any, .always⟩, ⟨2, 1, .w1c, .any, .always⟩]⟩,
    -- LOOM_CORDS
    ⟨0x109000, 96, 0x8, 1, 0x1, 0x0, 0x0, 0x0, 0x0, [⟨0, 10, .rw, .any, .cordExists⟩, ⟨10, 2, .rw, .lt 2, .cordExists⟩, ⟨12, 40, .rw, .any, .cordExists⟩]⟩,
    -- LOOM_CORDA
    ⟨0x109400, 96, 0x8, 1, 0x1, 0x0, 0x0, 0x0, 0x0, []⟩,
    -- LOOM_FLUSHRES
    ⟨0x100028, 1, 0x8, 1, 0x1, 0x8888, 0x0, 0x0, 0x0, []⟩,
    -- LOOM_LEDSTAT
    ⟨0x100030, 1, 0x8, 1, 0x1, 0x0, 0x0, 0x0, 0x1ffffffff, []⟩,
    -- LOOM_LED
    ⟨0x180000, 1024, 0x80, 16, 0x8, 0x0, 0x0, 0x0, 0xffffffffffffffff, []⟩ ]

def rows.tri1 : List RegRow :=
  [
    -- TRI_STAT
    ⟨0x1000000, 48, 0x10000, 1, 0x1, 0x0, 0x0, 0x0, 0x63f, []⟩,
    -- TRI_CFG
    ⟨0x1000008, 48, 0x10000, 1, 0x1, 0x40, 0x0, 0x0, 0x0, [⟨0, 8, .rw, .any, .always⟩]⟩,
    -- TRI_CTL
    ⟨0x1000010, 48, 0x10000, 1, 0x1, 0x0, 0x3, 0x0, 0x0, [⟨0, 1, .wo, .any, .always⟩, ⟨1, 1, .wo, .any, .always⟩]⟩,
    -- TRI_CNT
    ⟨0x1000018, 48, 0x10000, 1, 0x1, 0x0, 0x0, 0xffffffffffffffff, 0x0, []⟩,
    -- TRI_LASTDIS
    ⟨0x1000020, 48, 0x10000, 1, 0x1, 0x0, 0x0, 0x0, 0x0, [⟨63, 1, .w1c, .any, .always⟩]⟩,
    -- TRI_VSTEST
    ⟨0x1000028, 48, 0x10000, 1, 0x1, 0x0, 0x0, 0x0, 0x0, []⟩,
    -- TRI_SBLOST
    ⟨0x1000030, 48, 0x10000, 1, 0x1, 0x0, 0x0, 0x0, 0xffff1f1f, []⟩,
    -- CRD_CTL
    ⟨0x1008000, 48, 0x10000, 1, 0x1, 0x0, 0x0, 0x0, 0x0, [⟨0, 1, .rw, .any, .always⟩, ⟨1, 1, .rw, .any, .always⟩, ⟨2, 1, .rw, .any, .always⟩, ⟨3, 1, .rw, .any, .split⟩, ⟨4, 1, .rw, .any, .split⟩, ⟨5, 1, .rw, .any, .split⟩]⟩,
    -- CRD_CACHESTAT
    ⟨0x1008008, 48, 0x10000, 1, 0x1, 0x0, 0x0, 0x0, 0x0, []⟩,
    -- CRD_LOCK
    ⟨0x1008010, 48, 0x10000, 1, 0x1, 0x0, 0x0, 0x0, 0x0, [⟨0, 16, .rw, .ways4, .always⟩, ⟨16, 1, .rw, .any, .always⟩]⟩,
    -- CRD_LOCKINV
    ⟨0x1008018, 48, 0x10000, 1, 0x1, 0x0, 0x0, 0xffffffff, 0x0, []⟩,
    -- CRD_RNGBASE
    ⟨0x1008020, 48, 0x10000, 1, 0x1, 0x0, 0x0, 0x0, 0x0, [⟨8, 44, .rw, .any, .always⟩]⟩ ]

def rows.tri2 : List RegRow :=
  [
    -- CRD_RNGCTL
    ⟨0x1008028, 48, 0x10000, 1, 0x1, 0x0, 0x8000000000000000, 0x0, 0x0, [⟨0, 24, .rw, .any, .always⟩, ⟨24, 2, .rw, .lt 3, .always⟩, ⟨63, 1, .wo, .any, .always⟩]⟩ ]

def rows.tri : List RegRow := rows.tri1 ++ rows.tri2

def rows.coh : List RegRow :=
  [
    -- COH_CNT
    ⟨0x2000200, 32, 0x10000, 1, 0x1, 0x0, 0x0, 0xffffffffffffffff, 0x0, []⟩,
    -- COH_DREG_LO
    ⟨0x2000100, 32, 0x10000, 16, 0x10, 0x0, 0x0, 0x0, 0x0, [⟨0, 1, .rw, .any, .always⟩, ⟨21, 31, .rw, .any, .always⟩]⟩,
    -- COH_DREG_HI
    ⟨0x2000108, 32, 0x10000, 16, 0x10, 0x0, 0x0, 0x0, 0x0, [⟨0, 13, .rw, .lt 6144, .always⟩, ⟨13, 4, .rw, .lt 13, .always⟩, ⟨21, 31, .rw, .any, .always⟩]⟩,
    -- COH_WCWAYS
    ⟨0x2008000, 4, 0x40000, 1024, 0x8, 0xfffffff, 0x0, 0x0, 0x0, [⟨0, 28, .rw, .any, .always⟩]⟩ ]

def rows.mem1 : List RegRow :=
  [
    -- MEM_CTL
    ⟨0x3000000, 32, 0x10000, 1, 0x1, 0x7800, 0x0, 0x0, 0x1, [⟨0, 1, .lock, .any, .always⟩, ⟨8, 8, .rw, .from1, .always⟩]⟩,
    -- MEM_UEPOL
    ⟨0x3000008, 32, 0x10000, 1, 0x1, 0x0, 0x0, 0x0, 0x0, []⟩,
    -- MEM_FILLSTAT
    ⟨0x3000010, 32, 0x10000, 1, 0x1, 0x0, 0x0, 0x0, 0x7, []⟩,
    -- MEM_SCRUB
    ⟨0x3000018, 32, 0x10000, 1, 0x1, 0x0, 0x0, 0x0, 0xffff000000000000, []⟩,
    -- MEM_MARK
    ⟨0x3000040, 32, 0x10000, 8, 0x8, 0xff, 0x0, 0x0, 0xff, [⟨0, 4, .rw, .device, .always⟩, ⟨4, 4, .rw, .device, .always⟩]⟩,
    -- MEM_CELOG_A
    ⟨0x3000800, 32, 0x10000, 64, 0x10, 0x0, 0x0, 0x0, 0x0, []⟩,
    -- MEM_CELOG_B
    ⟨0x3000808, 32, 0x10000, 64, 0x10, 0x0, 0x0, 0x0, 0x0, []⟩,
    -- MEM_CEPTR
    ⟨0x3000080, 32, 0x10000, 1, 0x1, 0x0, 0x0, 0x0, 0xffff0000, [⟨8, 6, .rw, .any, .always⟩]⟩,
    -- MEM_UELOG
    ⟨0x3000088, 32, 0x10000, 1, 0x1, 0x0, 0x0, 0x0, 0xc003ffffffffffc0, [⟨62, 1, .w1c, .any, .always⟩, ⟨63, 1, .w1c, .any, .always⟩]⟩,
    -- MEM_SELV
    ⟨0x3000090, 32, 0x10000, 1, 0x1, 0x0, 0x0, 0x3ffffffffff, 0x0, []⟩,
    -- MEM_FLIPD
    ⟨0x30000a0, 32, 0x10000, 1, 0x1, 0x0, 0x0, 0x0, 0x0, [⟨0, 64, .rw, .any, .always⟩]⟩,
    -- MEM_FLIPC
    ⟨0x30000a8, 32, 0x10000, 1, 0x1, 0x0, 0x0, 0x0, 0x0, [⟨0, 32, .rw, .any, .always⟩, ⟨32, 2, .rw, .any, .always⟩, ⟨34, 3, .rw, .any, .always⟩, ⟨37, 1, .rw, .any, .always⟩, ⟨38, 1, .w1c, .any, .always⟩]⟩ ]

def rows.mem2 : List RegRow :=
  [
    -- MEM_KEYDATA
    ⟨0x3000100, 8, 0x8, 1, 0x1, 0x0, 0xffffffffffffffff, 0x0, 0x0, [⟨0, 64, .held, .any, .always⟩]⟩,
    -- MEM_KEYCMD
    ⟨0x3000140, 1, 0x8, 1, 0x1, 0x0, 0xc00, 0x0, 0x0, [⟨0, 10, .rw, .any, .clear 12 0⟩, ⟨10, 2, .wo, .any, .clear 12 0⟩]⟩,
    -- MEM_RGN_LO
    ⟨0x3001000, 32, 0x10000, 64, 0x10, 0x0, 0x0, 0x0, 0x0, [⟨0, 1, .rw, .any, .always⟩, ⟨1, 1, .rw, .any, .always⟩, ⟨2, 4, .rw, .any, .always⟩, ⟨6, 10, .rw, .any, .always⟩, ⟨21, 27, .rw, .any, .always⟩]⟩,
    -- MEM_RGN_HI
    ⟨0x3001008, 32, 0x10000, 64, 0x10, 0x0, 0x0, 0x0, 0x0, [⟨21, 27, .rw, .any, .always⟩]⟩ ]

def rows.mem : List RegRow := rows.mem1 ++ rows.mem2

def rows.chs1 : List RegRow :=
  [
    -- CHS_CFG
    ⟨0x4000000, 1, 0x8, 1, 0x1, 0x1, 0x0, 0x0, 0x0, [⟨0, 1, .rw, .any, .always⟩]⟩,
    -- CHS_DCINV
    ⟨0x4000008, 1, 0x8, 1, 0x1, 0x0, 0x1, 0x0, 0x0, [⟨0, 1, .wo, .any, .clear 1 0⟩]⟩,
    -- CHS_POOL
    ⟨0x4000010, 1, 0x8, 1, 0x1, 0x40000, 0x0, 0x0, 0x0, [⟨39, 1, .w1c, .any, .always⟩]⟩,
    -- CHS_POOLERR
    ⟨0x4000018, 1, 0x8, 1, 0x1, 0x0, 0x0, 0x0, 0xcfffffff7fffffff, [⟨62, 1, .w1c, .any, .always⟩, ⟨63, 1, .w1c, .any, .always⟩]⟩,
    -- CHS_SCCMD
    ⟨0x4000020, 1, 0x8, 1, 0x1, 0x0, 0x70000, 0x0, 0x0, [⟨0, 16, .rw, .any, .clear 62 0⟩, ⟨16, 3, .wo, .lt 6, .clear 62 0⟩]⟩,
    -- CHS_SCDATA0
    ⟨0x4000080, 1, 0x8, 1, 0x1, 0x0, 0x0, 0x0, 0x0, [⟨3, 2, .rw, .lt 3, .always⟩, ⟨16, 12, .rw, .any, .always⟩, ⟨38, 6, .rw, .lt 48, .always⟩]⟩,
    -- CHS_SCDATA1
    ⟨0x4000088, 1, 0x8, 1, 0x1, 0x0, 0x0, 0x0, 0x0, [⟨0, 32, .rw, .any, .always⟩]⟩,
    -- CHS_SCDATA2
    ⟨0x4000090, 1, 0x8, 1, 0x1, 0x1, 0x0, 0x0, 0x0, []⟩,
    -- CHS_SCDATA3
    ⟨0x4000098, 1, 0x8, 1, 0x1, 0x3e810000000, 0x0, 0x0, 0x0, [⟨16, 13, .rw, .between 1 4096, .always⟩, ⟨32, 16, .rw, .from1, .always⟩]⟩,
    -- CHS_SCDATA4
    ⟨0x40000a0, 1, 0x8, 1, 0x1, 0x0, 0x0, 0x0, 0x0, []⟩,
    -- CHS_SHUT
    ⟨0x4000100, 32, 0x8, 1, 0x1, 0x0, 0x0, 0x0, 0xff00, []⟩,
    -- CHS_EVQ
    ⟨0x4000200, 96, 0x8, 1, 0x1, 0x40, 0x0, 0x0, 0x0, [⟨0, 12, .rw, .any, .always⟩]⟩ ]

def rows.chs2 : List RegRow :=
  [
    -- CHS_DCWAYS
    ⟨0x4002000, 1024, 0x8, 1, 0x1, 0xffff, 0x0, 0x0, 0x0, [⟨0, 16, .rw, .any, .always⟩]⟩,
    -- CHS_VI_CFG
    ⟨0x4010000, 4096, 0x20, 1, 0x1, 0x0, 0x4, 0x0, 0x0, [⟨0, 1, .rw, .any, .always⟩, ⟨1, 1, .rw, .any, .always⟩, ⟨2, 1, .wo, .any, .always⟩, ⟨4, 10, .rw, .any, .clear 0 0⟩, ⟨14, 1, .w1c, .any, .always⟩, ⟨16, 16, .rw, .any, .always⟩]⟩,
    -- CHS_VI_S2
    ⟨0x4010008, 4096, 0x20, 1, 0x1, 0x0, 0x0, 0x0, 0x0, [⟨12, 40, .rw, .any, .viOff⟩]⟩,
    -- CHS_VI_RING
    ⟨0x4010010, 4096, 0x20, 1, 0x1, 0x0, 0x0, 0x0, 0x0, [⟨12, 40, .rw, .any, .viOff⟩, ⟨52, 4, .rw, .lt 11, .viOff⟩]⟩,
    -- CHS_VI_DLOG
    ⟨0x4010018, 4096, 0x20, 1, 0x1, 0x0, 0x0, 0x0, 0x0, [⟨0, 1, .rw, .any, .always⟩, ⟨1, 1, .w1c, .any, .always⟩, ⟨12, 40, .rw, .any, .clear 0 0⟩, ⟨52, 6, .rw, .lt 37, .always⟩]⟩,
    -- CHS_SCSENSE
    ⟨0x40000a8, 11, 0x8, 1, 0x1, 0x0, 0x0, 0x0, 0x0, []⟩ ]

def rows.chs : List RegRow := rows.chs1 ++ rows.chs2

def rows.vi : List RegRow :=
  [
    -- VI_DB
    ⟨0x8000000, 4096, 0x1000, 64, 0x10, 0x0, 0xfffffffffffc0, 0x0, 0x0, [⟨6, 46, .held, .any, .always⟩]⟩,
    -- VI_STAT
    ⟨0x8000008, 4096, 0x1000, 64, 0x10, 0x0, 0x0, 0x0, 0x0, [⟨2, 1, .w1c, .any, .always⟩]⟩,
    -- VI_VSTAT
    ⟨0x8000400, 4096, 0x1000, 1, 0x1, 0x0, 0x0, 0x0, 0x0, [⟨0, 1, .w1c, .any, .always⟩]⟩,
    -- VI_CQTAIL
    ⟨0x8000408, 4096, 0x1000, 1, 0x1, 0x0, 0x0, 0x0, 0x0, [⟨0, 16, .rw, .ringSize, .always⟩]⟩,
    -- VI_CQHEAD
    ⟨0x8000410, 4096, 0x1000, 1, 0x1, 0x10000, 0x0, 0x0, 0x0, []⟩ ]

def rows.chp : List RegRow :=
  [
    -- CHP_CFG
    ⟨0x4100000, 48, 0x1000, 1, 0x1, 0x320a, 0x0, 0x0, 0x0, [⟨1, 3, .rw, .lt 6, .always⟩, ⟨8, 8, .rw, .from1, .always⟩]⟩,
    -- CHP_CTL
    ⟨0x4100008, 48, 0x1000, 1, 0x1, 0x0, 0x6, 0x0, 0x0, [⟨0, 1, .rw, .any, .always⟩, ⟨1, 1, .wo, .any, .always⟩, ⟨2, 1, .wo, .any, .always⟩]⟩,
    -- CHP_STAT
    ⟨0x4100010, 48, 0x1000, 1, 0x1, 0x0, 0x0, 0x0, 0x0, [⟨10, 1, .w1c, .any, .always⟩]⟩,
    -- CHP_MMIO
    ⟨0x4100018, 48, 0x1000, 1, 0x1, 0xf00000f0000000, 0x0, 0x0, 0x0, [⟨0, 1, .rw, .any, .always⟩, ⟨8, 24, .rw, .between 0xF00000 0xFEFFFF, .always⟩, ⟨32, 24, .rw, .between 0xF00000 0xFEFFFF, .always⟩]⟩,
    -- CHP_WERR
    ⟨0x4100020, 48, 0x1000, 1, 0x1, 0x0, 0x0, 0xffffffffffffffff, 0x0, []⟩ ]

def rows.cip : List RegRow :=
  [
    -- CIP_STAT
    ⟨0x5000000, 4, 0x100000, 1, 0x1, 0x0, 0x0, 0x0, 0xffffffffff0000, []⟩,
    -- CIP_RING_CFG
    ⟨0x5001000, 4, 0x100000, 64, 0x10, 0x0, 0x4, 0x0, 0x0, [⟨0, 1, .rw, .any, .always⟩, ⟨2, 1, .wo, .any, .always⟩, ⟨16, 12, .rw, .any, .clear 0 0⟩]⟩,
    -- CIP_RING_BASE
    ⟨0x5001008, 4, 0x100000, 64, 0x10, 0x0, 0x0, 0x0, 0x0, [⟨12, 40, .rw, .any, .ringOff⟩, ⟨52, 4, .rw, .lt 9, .ringOff⟩]⟩,
    -- CIP_KSDATA
    ⟨0x5000100, 8, 0x8, 1, 0x1, 0x0, 0xffffffffffffffff, 0x0, 0x0, [⟨0, 64, .held, .any, .always⟩]⟩,
    -- CIP_KSCMD
    ⟨0x5000140, 1, 0x8, 1, 0x1, 0x0, 0x6000, 0x0, 0x0, [⟨0, 13, .rw, .any, .clear 15 0⟩, ⟨13, 2, .wo, .keyOp, .clear 15 0⟩, ⟨16, 3, .rw, .keyType, .clear 15 0⟩, ⟨19, 1, .rw, .any, .clear 15 0⟩]⟩,
    -- CIP_KS_CFG
    ⟨0x5080000, 8192, 0x40, 1, 0x1, 0x0, 0x0, 0x0, 0x0, [⟨0, 10, .rw, .any, .always⟩, ⟨16, 1, .rw, .any, .always⟩]⟩,
    -- CIP_KS_INVLIM
    ⟨0x5080008, 8192, 0x40, 1, 0x1, 0x100000000, 0x0, 0x0, 0x0, [⟨0, 49, .rw, .any, .always⟩]⟩,
    -- CIP_KS_INVCNT
    ⟨0x5080010, 8192, 0x40, 1, 0x1, 0x0, 0x0, 0x0, 0x0, []⟩,
    -- CIP_KS_BYTLIM
    ⟨0x5080018, 8192, 0x40, 1, 0x1, 0x1000000000000, 0x0, 0x0, 0x0, [⟨0, 57, .rw, .any, .always⟩]⟩,
    -- CIP_KS_BYTCNT
    ⟨0x5080020, 8192, 0x40, 1, 0x1, 0x0, 0x0, 0x0, 0x0, []⟩ ]

def rows.cmp : List RegRow :=
  [
    -- CMP_STAT
    ⟨0x6000000, 4, 0x100000, 1, 0x1, 0x0, 0x0, 0x0, 0xffffffffff0000, []⟩,
    -- CMP_RING_CFG
    ⟨0x6001000, 4, 0x100000, 64, 0x10, 0x0, 0x4, 0x0, 0x0, [⟨0, 1, .rw, .any, .always⟩, ⟨2, 1, .wo, .any, .always⟩, ⟨16, 12, .rw, .any, .clear 0 0⟩]⟩,
    -- CMP_RING_BASE
    ⟨0x6001008, 4, 0x100000, 64, 0x10, 0x0, 0x0, 0x0, 0x0, [⟨12, 40, .rw, .any, .ringOff⟩, ⟨52, 4, .rw, .lt 9, .ringOff⟩]⟩ ]

def rows.fcu : List RegRow :=
  [
    -- FCU_CFG
    ⟨0x200000, 1, 0x8, 1, 0x1, 0x0, 0x0, 0x0, 0x0, [⟨0, 7, .rw, .cord, .always⟩]⟩,
    -- FCU_REC
    ⟨0x200008, 1, 0x8, 1, 0x1, 0x7fc000, 0x0, 0x0, 0x80ffffff1f7fffff, [⟨63, 1, .w1c, .any, .always⟩]⟩,
    -- FCU_RECTIME
    ⟨0x200010, 1, 0x8, 1, 0x1, 0x0, 0x0, 0x0, 0x7fffffffffffffff, []⟩,
    -- FCU_RECINFO
    ⟨0x200018, 1, 0x8, 1, 0x1, 0x0, 0x0, 0x0, 0xffffffffffffffff, []⟩,
    -- FCU_INJ
    ⟨0x200020, 1, 0x8, 1, 0x1, 0x7fc000, 0x8000000000000000, 0x0, 0x0, [⟨0, 10, .rw, .any, .factory⟩, ⟨10, 2, .rw, .any, .factory⟩, ⟨12, 2, .rw, .lt 3, .factory⟩, ⟨14, 9, .rw, .far, .factory⟩, ⟨63, 1, .wo, .any, .factory⟩]⟩,
    -- FCU_ALSO
    ⟨0x200100, 16, 0x8, 1, 0x1, 0x0, 0x0, 0x0, 0xffffffffffffffff, [⟨0, 64, .w1c, .any, .always⟩]⟩,
    -- FCU_SRC
    ⟨0x202000, 1024, 0x8, 1, 0x1, 0x0, 0x0, 0x0, 0x20000, [⟨0, 3, .rw, .reaction 0, .caps 0⟩, ⟨3, 3, .rw, .reaction 1, .caps 1⟩, ⟨6, 3, .rw, .reaction 2, .caps 2⟩, ⟨9, 3, .rw, .reaction 3, .caps 3⟩, ⟨16, 1, .rw, .any, .always⟩, ⟨17, 1, .w1c, .any, .always⟩]⟩,
    -- FCU_CNT
    ⟨0x204000, 1024, 0x8, 1, 0x1, 0x0, 0x0, 0xffffffffffffffff, 0xffffffffffffffff, []⟩ ]

def rows.spl : List RegRow :=
  [
    -- SPL_BOLT
    ⟨0x600000, 1, 0x8, 1, 0x1, 0x10000, 0x0, 0x0, 0x0, []⟩,
    -- SPL_ADMIT
    ⟨0x600008, 1, 0x8, 1, 0x1, 0x100, 0x3000, 0x0, 0x0, [⟨8, 4, .rw, .any, .manager⟩, ⟨12, 2, .wo, .any, .manager⟩]⟩,
    -- SPL_NONCE
    ⟨0x600020, 4, 0x8, 1, 0x1, 0x0, 0xffffffffffffffff, 0x0, 0x0, [⟨0, 64, .held, .any, .always⟩]⟩,
    -- SPL_IDENT
    ⟨0x600400, 32, 0x8, 1, 0x1, 0x0, 0x0, 0x0, 0x0, []⟩,
    -- SPL_LEAVE
    ⟨0x600010, 1, 0x8, 1, 0x1, 0x0, 0x1, 0x0, 0x0, [⟨0, 1, .wo, .any, .clear 1 0⟩, ⟨3, 1, .w1c, .any, .always⟩]⟩,
    -- SPL_CFG
    ⟨0x600100, 1, 0x8, 1, 0x1, 0x0, 0x0, 0x0, 0x3c, [⟨2, 4, .lock, .any, .always⟩, ⟨6, 1, .rw, .any, .always⟩, ⟨7, 4, .rw, .any, .always⟩, ⟨11, 4, .rw, .arbB, .always⟩]⟩,
    -- SPL_CKPT
    ⟨0x600108, 1, 0x8, 1, 0x1, 0x0, 0x0, 0x0, 0x0, []⟩,
    -- SPL_STAT
    ⟨0x600110, 1, 0x8, 1, 0x1, 0x0, 0x0, 0x0, 0xffffffffffffff7f, [⟨3, 1, .w1c, .any, .always⟩]⟩,
    -- SPL_ARB
    ⟨0x600118, 1, 0x8, 1, 0x1, 0x0, 0x0, 0x0, 0x0, [⟨2, 1, .w1c, .any, .always⟩]⟩,
    -- SPL_CTL
    ⟨0x600120, 1, 0x8, 1, 0x1, 0x0, 0x3, 0x0, 0x0, [⟨0, 1, .wo, .any, .always⟩, ⟨1, 1, .wo, .any, .always⟩]⟩,
    -- SPL_PROT
    ⟨0x600200, 16, 0x8, 1, 0x1, 0x0, 0x0, 0x0, 0x0, [⟨0, 64, .rw, .any, .always⟩]⟩ ]

def rows.pwr1 : List RegRow :=
  [
    -- PWR_MODSTAT
    ⟨0x300000, 1, 0x8, 1, 0x1, 0x1, 0x0, 0x0, 0x0, []⟩,
    -- PWR_RETSTAT
    ⟨0x300010, 1, 0x8, 1, 0x1, 0x0, 0x0, 0x0, 0xffffffff, [⟨0, 32, .w1c, .any, .always⟩]⟩,
    -- PWR_CLK
    ⟨0x300020, 1, 0x8, 1, 0x1, 0x0, 0x0, 0x0, 0x0, []⟩,
    -- PWR_STBY
    ⟨0x300028, 1, 0x8, 1, 0x1, 0x0, 0x0, 0x0, 0x0, []⟩,
    -- PWR_PADREL
    ⟨0x300030, 1, 0x8, 1, 0x1, 0x0, 0x80000000000003ff, 0x0, 0x0, [⟨0, 9, .wo, .padDomain, .always⟩, ⟨9, 1, .wo, .any, .always⟩, ⟨63, 1, .wo, .any, .always⟩]⟩,
    -- PWR_MODCMD
    ⟨0x300038, 1, 0x8, 1, 0x1, 0x0, 0x3, 0x0, 0x0, [⟨0, 2, .wo, .lt 2, .always⟩]⟩,
    -- PWR_DARK
    ⟨0x300040, 1, 0x8, 1, 0x1, 0x0, 0x0, 0x1ffffffffff, 0x0, []⟩,
    -- PWR_WAKE
    ⟨0x300048, 1, 0x8, 1, 0x1, 0x0, 0x1, 0x0, 0x0, [⟨0, 1, .wo, .any, .always⟩]⟩,
    -- PWR_REFLAST
    ⟨0x300080, 1, 0x8, 1, 0x1, 0x0, 0x0, 0x0, 0x0, [⟨63, 1, .w1c, .any, .always⟩]⟩,
    -- PWR_REFCNT
    ⟨0x300108, 9, 0x8, 1, 0x1, 0x0, 0x0, 0xffffffff, 0xffffffff, []⟩,
    -- PWR_RAIL
    ⟨0x300200, 10, 0x8, 1, 0x1, 0x20000000, 0x0, 0x0, 0xffff000, []⟩,
    -- PWR_DOM
    ⟨0x301000, 260, 0x8, 1, 0x1, 0x0, 0x0, 0x0, 0x0, [⟨0, 2, .rw, .any, .domWritable⟩, ⟨5, 1, .w1c, .any, .always⟩]⟩ ]

def rows.pwr2 : List RegRow :=
  [
    -- PWR_THERM
    ⟨0x300300, 1, 0x8, 1, 0x1, 0x0, 0x0, 0x0, 0xffff0000, []⟩,
    -- PWR_AGE
    ⟨0x300310, 4, 0x8, 1, 0x1, 0x1f400000000, 0x0, 0x0, 0xffff0003ffff, [⟨32, 16, .rw, .from1, .always⟩]⟩ ]

def rows.pwr : List RegRow := rows.pwr1 ++ rows.pwr2

def rows.sec : List RegRow :=
  [
    -- SEC_STAT
    ⟨0x400000, 1, 0x8, 1, 0x1, 0x0, 0x0, 0x0, 0x3f3, [⟨3, 1, .w1c, .any, .always⟩]⟩,
    -- SEC_CMD
    ⟨0x400008, 1, 0x8, 1, 0x1, 0x0, 0x7, 0x0, 0x0, [⟨0, 3, .wo, .lt 6, .secIdle⟩]⟩,
    -- SEC_CHAL
    ⟨0x400010, 4, 0x8, 1, 0x1, 0x0, 0x0, 0x0, 0x0, []⟩,
    -- SEC_AUTH
    ⟨0x400040, 12, 0x8, 1, 0x1, 0x0, 0xffffffffffffffff, 0x0, 0x0, [⟨0, 64, .held, .any, .secIdle⟩]⟩ ]

def rows.rpl : List RegRow :=
  [
    -- RPL_CFG
    ⟨0x500000, 1, 0x8, 1, 0x1, 0x0, 0x0, 0x0, 0x0, [⟨0, 1, .rw, .any, .rplIdle⟩, ⟨1, 10, .rw, .rplTenant, .rplIdle⟩, ⟨11, 1, .rw, .any, .rplIdle⟩, ⟨12, 1, .rw, .any, .rplIdle⟩]⟩,
    -- RPL_RING
    ⟨0x500008, 1, 0x8, 1, 0x1, 0x100000000000000, 0x0, 0x0, 0x0, [⟨12, 40, .rw, .any, .rplIdle⟩, ⟨52, 6, .rw, .between 16 40, .rplIdle⟩]⟩,
    -- RPL_HEAD
    ⟨0x500010, 1, 0x8, 1, 0x1, 0x0, 0x0, 0x0, 0x0, [⟨0, 40, .rw, .any, .rplIdle⟩]⟩,
    -- RPL_TAIL
    ⟨0x500018, 1, 0x8, 1, 0x1, 0x0, 0x0, 0x0, 0x0, [⟨0, 40, .rw, .any, .always⟩]⟩,
    -- RPL_CMD
    ⟨0x500020, 1, 0x8, 1, 0x1, 0x0, 0x7, 0x0, 0x0, [⟨0, 3, .wo, .lt 5, .clear 3 0⟩]⟩,
    -- RPL_STAT
    ⟨0x500028, 1, 0x8, 1, 0x1, 0x0, 0x0, 0x0, 0x0, []⟩,
    -- RPL_DIV
    ⟨0x500030, 1, 0x8, 1, 0x1, 0x0, 0x0, 0x0, 0x0, [⟨63, 1, .w1c, .any, .always⟩]⟩,
    -- RPL_DIVEXP
    ⟨0x500038, 1, 0x8, 1, 0x1, 0x0, 0x0, 0x0, 0x0, []⟩,
    -- RPL_DIVOBS
    ⟨0x500040, 1, 0x8, 1, 0x1, 0x0, 0x0, 0x0, 0x0, []⟩,
    -- RPL_STOPAT
    ⟨0x500048, 1, 0x8, 1, 0x1, 0x0, 0x0, 0x0, 0x0, [⟨0, 48, .rw, .any, .always⟩, ⟨63, 1, .rw, .any, .always⟩]⟩,
    -- RPL_HOLD
    ⟨0x500050, 1, 0x8, 1, 0x1, 0x140000000000000, 0x0, 0x0, 0x0, [⟨12, 40, .rw, .any, .always⟩, ⟨52, 6, .rw, .between 20 36, .always⟩]⟩ ]

/-- The rows of the block whose span holds the offset (R6). -/
def rowsAt (off : Nat) : List RegRow :=
  match off / 0x100000 with
  | 0 => rows.mod
  | 1 => rows.loom
  | 2 => rows.fcu
  | 3 => rows.pwr
  | 4 => rows.sec
  | 5 => rows.rpl
  | 6 => rows.spl
  | 0x10 => rows.tri
  | 0x11 => rows.tri
  | 0x12 => rows.tri
  | 0x20 => rows.coh
  | 0x21 => rows.coh
  | 0x30 => rows.mem
  | 0x31 => rows.mem
  | 0x40 => rows.chs
  | 0x41 => rows.chp
  | b =>
    if 0x50 ≤ b ∧ b < 0x54 then rows.cip
    else if 0x60 ≤ b ∧ b < 0x64 then rows.cmp
    else if 0x80 ≤ b ∧ b < 0x90 then rows.vi
    else []

/-- Whether an offset is a register of the row. -/
def RegRow.holds (r : RegRow) (off : Nat) : Bool :=
  r.base ≤ off && (off - r.base) / r.s1 < r.n1 && ((off - r.base) % r.s1) % r.s2 == 0
    && ((off - r.base) % r.s1) / r.s2 < r.n2

/-- The row of an assigned register; none at an unassigned offset (R6). -/
def rowAt (off : Nat) : Option RegRow := (rowsAt off).find? (fun r => r.holds off)

/-- The block spans of R6 inside the control window. -/
def inBlockSpan (off : Nat) : Bool :=
  off < 0x700000
  || (0x1000000 ≤ off && off < 0x1300000) || (0x2000000 ≤ off && off < 0x2200000)
  || (0x3000000 ≤ off && off < 0x3200000) || (0x4000000 ≤ off && off < 0x4130000)
  || (0x5000000 ≤ off && off < 0x5400000) || (0x6000000 ≤ off && off < 0x6400000)
  || (0x8000000 ≤ off && off < 0x9000000)

end Sys2Proof.Machine
end

