-- ==== Sys2Proof/Machine/Maps.lean ====
section
/-! DEFINITION. Operations on sparse tables.

`mget` reads a key with the default an unlisted key reads as; `mput` writes one and keeps the canonical form
(`mwf`): keys rising, no entry equal to the default. -/

namespace Sys2Proof.Machine

/-- The entry of a key, or none. -/
def mget? {α : Type} : SMap α → Nat → Option α
  | [], _ => none
  | (j, a) :: t, k => if j = k then some a else mget? t k

/-- The entry of a key, the default where it is not listed. -/
def mget {α : Type} (m : SMap α) (k : Nat) (d : α) : α := (mget? m k).getD d

/-- The table without a key. -/
def mdel {α : Type} : SMap α → Nat → SMap α
  | [], _ => []
  | (j, a) :: t, k => if j = k then mdel t k else (j, a) :: mdel t k

/-- A pair put at its place in a table without its key. -/
def mins {α : Type} (k : Nat) (v : α) : SMap α → SMap α
  | [] => [(k, v)]
  | (j, a) :: t => if k < j then (k, v) :: (j, a) :: t else (j, a) :: mins k v t

/-- A key set, whatever its value. -/
def mset {α : Type} (m : SMap α) (k : Nat) (v : α) : SMap α := mins k v (mdel m k)

/-- A key written: the entry goes when the value is what an unlisted key reads as. -/
def mput {α : Type} [DecidableEq α] (m : SMap α) (k : Nat) (v d : α) : SMap α :=
  if v = d then mdel m k else mset m k v

/-- A key updated by a function of its entry. -/
def mupd {α : Type} [DecidableEq α] (m : SMap α) (k : Nat) (d : α) (f : α → α) : SMap α :=
  mput m k (f (mget m k d)) d

/-- Keys strictly rising from a lower bound. -/
def mrising {α : Type} : Nat → SMap α → Bool
  | _, [] => true
  | b, (j, _) :: t => decide (b ≤ j) && mrising (j + 1) t

/-- The canonical form. -/
def mwf {α : Type} [DecidableEq α] (m : SMap α) (d : α) : Bool :=
  mrising 0 m && m.all (fun e => decide (e.2 ≠ d))

end Sys2Proof.Machine
end

