-- ==== Sys2Proof/Machine/Sources.lean ====
section
/-! DEFINITION. The fault sources and the reactions each may take (R295, R305). -/

namespace Sys2Proof.Machine

/-- Reaction codes of R305. -/
def react.LOG : Nat := 0
def react.INTR : Nat := 1
def react.RETRY : Nat := 2
def react.SPARE : Nat := 3
def react.BLOCKRST : Nat := 4
def react.SAFE : Nat := 5
def react.FENCE : Nat := 6

/-- The reactions allowed for a source and a severity class (0 CE, 1 DE, 2 UC, 3 UF), the default first; empty where
the source cannot raise the class (the table of R305). -/
def reactions (src sev : Nat) : List Nat :=
  match sev with
  | 0 =>
    if src < 144 then [0, 1, 3]
    else if src < 293 then [0, 1]
    else if src = 293 then []
    else if src < 299 then [0, 1]
    else if src < 311 then [1, 0]
    else if src = 311 then []
    else if src = 312 then [0, 1]
    else if src = 313 then []
    else if src = 314 then [0, 1]
    else []
  | 1 =>
    if src < 144 then [1, 0, 3]
    else if src < 192 then [1, 0, 2]
    else if src < 196 then [1, 0]
    else if src < 204 then []
    else if src < 244 then [1, 0]
    else if src < 260 then []
    else if src < 292 then [1, 0]
    else if src = 295 then [1, 0]
    else []
  | 2 =>
    if src < 144 then []
    else if src < 196 then [1, 5]
    else if src < 212 then [4, 5]
    else if src < 244 then [1, 5]
    else if src < 256 then [1, 4, 5]
    else if src < 260 then [1, 4, 5, 6]
    else if src < 292 then [1, 5]
    else if src = 292 then []
    else if src < 299 then [1, 5]
    else if src < 311 then []
    else if src = 311 then [1]
    else if src = 312 then []
    else if src = 313 then [1, 5]
    else if src = 314 then [1]
    else []
  | _ =>
    if 260 ≤ src ∧ src < 292 then [5, 6]
    else if src = 292 then [5, 6]
    else if src = 294 then [5, 6]
    else if src = 309 ∨ src = 310 then [5]
    else if src = 311 then [6]
    else if src = 315 then [5]
    else []

/-- FCU_SRC_k.CAPS: bit c set when the source can raise class c (R296). -/
def caps (src : Nat) : Nat :=
  (if reactions src 0 = [] then 0 else 1) + (if reactions src 1 = [] then 0 else 2)
    + (if reactions src 2 = [] then 0 else 4) + (if reactions src 3 = [] then 0 else 8)

/-- The default reaction of a class, 0 where the source cannot raise it. -/
def defaultReaction (src sev : Nat) : Nat := (reactions src sev).headD 0

/-- FCU_SRC_k with CAPS and the default reactions. -/
def fcuSrcReset (src : Nat) : Nat :=
  defaultReaction src 0 + defaultReaction src 1 * 8 + defaultReaction src 2 * 64 + defaultReaction src 3 * 512
    + caps src * 4096

/-! Source numbers (R295). -/

def src.triad (t : Nat) : Nat := 144 + t
def src.home (h : Nat) : Nat := 260 + h
def src.loom : Nat := 292
def src.loomSync : Nat := 293
def src.acceptor : Nat := 294
def src.pool : Nat := 295
def src.descCache : Nat := 296
def src.image : Nat := 297
def src.standing : Nat := 298
def src.rail (k : Nat) : Nat := 299 + k
def src.thermal : Nat := 309
def src.clock : Nat := 310
def src.splice : Nat := 311
def src.dark : Nat := 312
def src.access : Nat := 313
def src.record : Nat := 314
/-- The source of memory controller m (R295). -/
def src.mem (m : Nat) : Nat := if m < 16 then 212 + m else 228 + (m - 16)

/-- FAR of a report that names no other block (R299). -/
def noFar : Nat := 0x1FF

end Sys2Proof.Machine
end

