-- ==== Sys2Proof/Config.lean ====
section
/-! DEFINITION. What an implementation fixes and what the spec leaves open.

The figures of 00_scope R2 and of the chapters that fix them, and, as constants without a body, every value that the
spec leaves open or takes from an outside standard. Nothing can be proved of a constant without a body, so a
statement that mentions one holds whatever it is (log 7, log 10). -/

namespace Sys2Proof.Config

/-! ### Figures of R2, R13, R33, R39, R150, R179, R204 -/

def triads : Nat := 48
def cords : Nat := 96
def tiles : Nat := 4
def triadsPerTile : Nat := 12
def homes : Nat := 32
/-- Ways and sets (R150): L1I and L1D, L2, warp-cache slice, whose ways from 28 on are the flush reserve. -/
def l1Ways : Nat := 4
def l1Sets : Nat := 64
def l2Ways : Nat := 16
def l2Sets : Nat := 1024
def warpWays : Nat := 36
def warpSets : Nat := 8192
def reserveWay : Nat := 28
/-- Victim entries of a slice (R177), entries of an L2's snoop queue (R150) and of a home's merge buffer (R176). -/
def victimEntries : Nat := 32
def snoopEntries : Nat := 16
def mergeEntries : Nat := 16
def heddleTables : Nat := 52
def tenants : Nat := 1024
def subchannels : Nat := 65536
def virtualImages : Nat := 4096
def poolCells : Nat := 262144
def shuttles : Nat := 32
def ports : Nat := 48
def domains : Nat := 260
def keySlots : Nat := 8192
def rclkPerBeat : Nat := 200
def beatsPerPick : Nat := 64
def rclkPerPick : Nat := 12800
def picksPerMinute : Nat := 468750
def houseBeat : Nat := 63
def lineBytes : Nat := 256
def sectorBytes : Nat := 64
/-- Two picks: the life of a knot (R148) and of a pin (R173). -/
def knotAge : Nat := 25600
/-- 60 s in rclk (R233, R306). -/
def minuteRclk : Nat := 6000000000
/-- The halving before the first pick (R353, R412). -/
def halvingRclk : Nat := 204800
/-- The restart limit of a Shuttle and of a block (R233, R306). -/
def maxRestarts : Nat := 3

/-! ### Open values -/

/-- The n-th free value: a value that the spec leaves open, or that the random source draws (log 7). -/
opaque freeWord : Nat → Word

/-- The code of R249: the low byte of the field's polynomial and the exponent of its first root (log 44). -/
opaque fecPoly : Byte
opaque fecRoot : Nat

/-- The frame credits that a port advertises: at least 34 (R247; log 44). -/
opaque weftRoom : Nat
def weftCredits : Nat := 34 + weftRoom % (2 ^ 16 - 34)

/-- Where in its data memory a Shuttle's context is saved (R231; log 45). -/
opaque shutSave : Nat

/-- The bytes of a message on a warp link, by the bytes of data it carries: no rule gives a message's length (R34; log 39). -/
opaque warpBytes : (data : Nat) → Nat

/-- Fused identity (R314): bytes 0 to 15 of part number and serial. -/
opaque serial : Nat → Word

/-- The identity public key of the module, ECDSA P-384, X then Y: 12 words (R314). -/
opaque identityKey : Nat → Word

/-- The six words of SHA-384 over the configuration image, of whose bytes the model holds the record bodies (R314; log 10). -/
opaque imageHash : (bodies : List Word) → Nat → Word

/-- The screening fuse of MOD_ID (00_scope, ordering codes). -/
opaque screenX : Bool

/-- The rank of a channel address on a memory controller, before the count of ranks is applied; R191 and
MEM_CELOG number ranks, and no rule maps addresses to them (log 13). -/
opaque rankOf : (controller sector : Nat) → Nat

/-- Bytes 8 to 15 of a SHARED region's marker: BASE and LIMIT of the region, whose packing no rule gives (R194). -/
opaque markerExtent : (base limit : Nat) → Word

/-- Word 0 of a sense record: the status code and DSTAT of the last failure, whose packing no rule gives (R212). -/
opaque senseWord : (status dstat : Nat) → Word

/-- Which failure status an NVMe status field becomes: an index into the statuses R222 gives completion records (R234 names
none). -/
opaque nvmeFailure : (status : Nat) → Nat

/-- The 48 bytes of SHA-384, as a number (R375, R314). -/
opaque sha384 : List Byte → Nat

/-- The vendor debug key in the boot ROM (R377). -/
opaque debugKey : Nat

/-- ECDSA P-384 verification of a signature over a message under a key (R377). -/
opaque ecdsaP384 : (key : Nat) → (msg : List Word) → (sig : List Word) → Bool

/-- A piece of a message at a cipher engine: mode, direction, key version, the engine's state so far (bytes 0x10 to 0x6F of the
record of R280; empty before a message's first byte), nonce block, AAD and input (R281, R282). -/
structure CipherJob where
  mode : Nat
  dir : Nat
  key : Nat
  state : List Byte
  iv : List Byte
  aad : List Byte
  inp : List Byte
  deriving DecidableEq, Repr, Inhabited

/-- What a cipher engine makes of it: the output, its new state, and how many bytes of a partial block that holds. -/
structure CipherEnd where
  out : List Byte
  state : List Byte
  part : Nat
  deriving DecidableEq, Repr, Inhabited

/-- The ciphers of R281. -/
opaque cipherRun : CipherJob → CipherEnd

/-- The 16-byte tag of a message: mode, key version, the engine's state, bytes of AAD and of text (R281, R282). -/
opaque cipherTag : (mode key : Nat) → (state : List Byte) → (aad text : Nat) → List Byte

/-- RFC 3394 key wrap of a record under a wrap key and initial value (R279). -/
opaque keyWrap : (key : Nat) → (iv : Word) → (plain : List Byte) → List Byte

/-- The matching unwrap; none when the check fails (R279). -/
opaque keyUnwrap : (key : Nat) → (iv : Word) → (wrapped : List Byte) → Option (List Byte)

/-- Input at a compression engine: format, direction, level, the record so far (R280; empty at a stream's start), history,
input, and whether a job with FINAL 1 ends with it (R286 to R290). -/
structure CodecJob where
  format : Nat
  dir : Nat
  level : Nat
  rec_ : List Byte
  hist : List Byte
  inp : List Byte
  final : Bool
  deriving DecidableEq, Repr, Inhabited

/-- A piece of output: a literal run, match or symbol, and the input bytes consumed once it is made. -/
structure CodecPiece where
  out : List Byte
  used : Nat
  deriving DecidableEq, Repr, Inhabited

/-- Where an engine stands: input bytes consumed, its record, and the check value of the stream so far (R272). -/
structure CodecAt where
  used : Nat
  rec_ : List Byte
  check : Nat
  deriving DecidableEq, Repr, Inhabited

/-- What a compression engine makes of its input: pieces, where it stands after them, whether the stream is bad and whether a
gzip member or Zstandard frame ended (R286). -/
structure CodecRun where
  pieces : List CodecPiece
  last : CodecAt
  bad : Bool
  ended : Bool
  deriving DecidableEq, Repr, Inhabited

/-- The formats of R286 and the search of R288. -/
opaque codec : CodecJob → CodecRun

/-- Where the engine stands when it stops before piece `n`, of which `m` bytes have been copied (R290). -/
opaque codecCut : CodecJob → (n m : Nat) → CodecAt

/-- The format of a compression record and the stream totals it holds; R280 gives them no offsets. -/
opaque recFormat : (rec_ : List Byte) → Nat
opaque recIn : (rec_ : List Byte) → Nat
opaque recOut : (rec_ : List Byte) → Nat

end Sys2Proof.Config
end

