-- ==== Sys2Proof/Machine/State.lean ====
section
/-! DEFINITION. The state of one TRT96 module, plain data, and the state after power-on.

Control-window registers stand in `regs`, by offset (00_scope, Register conventions); their layouts and reset values
are in Machine/Regs.lean. Everything else the spec gives the module has a field of its own. -/

namespace Sys2Proof.Machine

/-! ### Cords -/

/-- SP, SB and SL of a level (R64). -/
structure LvlStk where
  sp : Word
  sb : Word
  sl : Word
  deriving DecidableEq, Repr

/-- TVEC, EPC, ESTAT, EVAL and GATE of level S or H (R72). -/
structure TrapRegs where
  tvec : Word
  epc : Word
  estat : Word
  eval : Word
  gate : Word
  deriving DecidableEq, Repr

/-- An address generator: BASE, IDX, STEP, LEN, BRK. -/
structure AG where
  base : Word
  idx : Word
  step : Word
  len : Word
  brk : Word
  deriving DecidableEq, Repr

/-- The attribute of an access, weakest first (R122). -/
inductive Attr where
  | cached | uncached | device
  deriving DecidableEq, Repr

/-- A cached stack entry, its module-physical home and the attribute its translation gave (R67, R68, R122). -/
structure SEnt where
  val : Word
  home : Nat
  attr : Attr
  deriving DecidableEq, Repr

/-- A translated home of a stack entry (R68). -/
structure Home where
  pa : Nat
  attr : Attr
  deriving DecidableEq, Repr

/-- A store-buffer entry: a line with a byte mask, its bytes, the tenant and attribute, and the program order and
virtual address of each store in it. `lvl` is the level of the first store (R8, R207). `knot` marks a knot store, `closed` an entry that later stores no longer join
(R130), `sent` one that has left the buffer and waits for its acknowledgement (R137), which names `port` and `seq`. -/
structure SbEnt where
  line : Nat
  mask : LineMask
  bytes : LineData
  tenant : Nat
  lvl : Level
  attr : Attr
  pa : Nat
  size : Nat
  stores : List (Nat × Word)
  knot : Bool
  closed : Bool
  sent : Bool
  port : Nat
  seq : Nat
  deriving DecidableEq, Repr

/-- A store that lies in one line: address, virtual address, size, value, tenant and attribute. -/
structure StoreReq where
  pa : Nat
  va : Word
  size : Nat
  val : Nat
  tenant : Nat
  attr : Attr
  deriving DecidableEq, Repr

/-- A held reservation: the granule and the program count of the load-reserved (R133). -/
structure Resv where
  base : Nat
  size : Nat
  deriving DecidableEq, Repr

/-- An open knot: handler, the home of the slip word (log 21), the copies of R141, the rclk at which KNOT retired, the read set of sectors, the write set
of lines, and the knot-written bytes that have left the store buffer (R142). -/
structure Knot where
  handler : Word
  home : Home
  sp : Word
  cache : List SEnt
  opened : Nat
  reads : List Nat
  writes : List Nat
  bytes : SMap Byte
  deriving DecidableEq, Repr

/-- Barriers that can wait (R138). -/
inductive BarKind where
  | sbar | fbar | knot
  deriving DecidableEq, Repr

/-- A read that waits for a device's answer (R245): the port and the sequence number of its frame, the address and size. Where it is
the whole of a load: the entries the load pops, the home of the entry it pushes, and the address generator it
steps with its new IDX; any other instruction takes the answer up when it runs again. -/
structure LoadWait where
  port : Nat
  seq : Nat
  pa : Nat
  size : Nat
  whole : Bool
  pops : Nat
  home : Home
  ag : Option (Nat × Word)
  deriving DecidableEq, Repr

/-- What a cord is doing. -/
inductive Run where
  | idle
  | running
  | halted
  | flushing
  | held
  | debug
  | waitEvent
  | waitTlb
  | waitBarrier (k : BarKind) (handler : Word)
  | waitCinch
  | waitLoad (w : LoadWait)
  | stopped
  deriving DecidableEq, Repr

/-- A cord, or the core of a Shuttle: the architected state of R64 and what hangs on it. `fpCount` counts, for each PEND bit
that is 1, the instructions that may still retire before FP_IMPRECISE (R113), `digest` runs over the pick (R382), `brks` are the instruction breakpoints by
number (R62), `wrote` holds the stores since the last retirement, which the digest takes, `dbg` says that a debugger has stopped the
cord and has not resumed it, `paused` that a resynchronisation or a migration holds it (R46, R53). `answers` are device reads of the
instruction at hand that have been answered, by address: each is made once (R127). -/
structure Core where
  pc : Word
  flags : Word
  fcsr : Word
  retire : Word
  lvl : Level
  ee : Bool
  stkU : LvlStk
  stkS : LvlStk
  stkH : LvlStk
  trS : TrapRegs
  trH : TrapRegs
  ptbr : Word
  s2br : Word
  ags : SMap AG
  cache : List SEnt
  run : Run
  knot : Option Knot
  sbuf : List SbEnt
  ord : Nat
  bounced : List (Nat × Word)
  resv : Option Resv
  fpCount : SMap Nat
  digest : Word
  brks : SMap Word
  wrote : List StoreReq
  dbg : Bool
  paused : Bool
  answers : List (Nat × Word)
  deriving DecidableEq, Repr

/-! ### Triads -/

/-- A debugger action as the triad logs it (R61). -/
inductive DbgAction where
  | stateWrite (what : DebugReg) (v : Word)
  | memoryWrite (addr : Nat)
  | step
  | breakpoint (pc : Word)
  | resume
  deriving DecidableEq, Repr

/-- The stages of a migration (R53). -/
inductive MigPhase where
  | drain | power | copy | finish
  deriving DecidableEq, Repr

/-- A migration: which cord of the triad (0 or 1) leaves which strand. -/
structure Migration where
  cord : Nat
  strand : Nat
  phase : MigPhase
  opened : Nat
  deriving DecidableEq, Repr

/-- A resynchronisation: the minority strand, the rclk of the comparison, and the retire groups that the majority still retires
before it stops (R46). -/
structure Resync where
  strand : Nat
  opened : Nat
  left : Nat
  deriving DecidableEq, Repr

/-- A triad: words of the checkpoint copies that fail their ECC, by place and word of the image (R44, R48; the copy itself is the cord's Core, log 8), the
retries of the current group of each place with its retire count (R45, R52), the strand counts of the minute (R49), the strands whose checks
detected something and the kind of the last disagreement, by place (R45, R47), and the recoveries under way. -/
structure Triad where
  ckptBad : List (Nat × Nat)
  retries : SMap Nat
  retryAt : SMap Nat
  resync : Option Resync
  counts : SMap Nat
  detected : SMap (List Nat)
  kinds : SMap Nat
  mig : Option Migration
  log : List (Word × DbgAction)
  resume : SMap Nat
  selfTest : Bool
  deriving DecidableEq, Repr

/-! ### Translation, caches, homes -/

/-- A TLB entry of a cord: the page of 4 KiB, its module-physical page, permissions of both stages together, and
the stage-2 page it was derived from (R124). -/
structure TlbEnt where
  cord : Nat
  tenant : Nat
  asid : Nat
  global : Bool
  vpage : Nat
  ppage : Nat
  ipage : Nat
  r : Bool
  w : Bool
  x : Bool
  u : Bool
  s1 : Bool
  dirty : Bool
  attr : Attr
  deriving DecidableEq, Repr

/-- A TLB invalidation issued and not yet applied everywhere (R125). -/
inductive TlbInv where
  | va (tenant page asid : Nat)
  | asid (tenant asid : Nat)
  | s1all (tenant : Nat)
  | ipa (tenant page : Nat)
  | tenant (tenant : Nat)
  deriving DecidableEq, Repr

/-- A line of an L2, which includes its L1s (R151, R152): coherence state, sector bits, data, the way it lies in (R150, R159; 16
while it stands in the data buffer that its request reserved, R166), the place whose share that is, which strands' L1D and L1I
hold it, and whether its hitch time runs (R168). -/
structure CLine where
  st : Moesi
  valid : BitVec 4
  dirty : BitVec 4
  poison : BitVec 4
  bytes : LineData
  way : Nat
  share : Nat
  l1d : BitVec 3
  l1i : BitVec 3
  held : Bool
  deriving DecidableEq, Repr

/-- An eviction-buffer entry (R152, R172). -/
structure EvEnt where
  line : Nat
  st : Moesi
  valid : BitVec 4
  dirty : BitVec 4
  poison : BitVec 4
  bytes : LineData
  deriving DecidableEq, Repr

/-- Kinds of snoop (R165). -/
inductive SnpKind where
  | S | C | O | I | IZ | L1I
  deriving DecidableEq, Repr

/-- Kinds of request (R165), a write's and an atomic's data with it. -/
inductive ReqKind where
  | rdS | rdO | rdOZ | upg | rdOnce
  | wrLine (bytes : LineData) (poison : BitVec 4)
  | wrPart (mask : LineMask) (bytes : LineData) (poison : BitVec 4)
  | atom (addr : Nat) (wide : Bool) (aop : BitVec 4) (x y : Word)
  | cmo (op : CmoOp)
  deriving DecidableEq, Repr

/-- A warp-cache line: data, dirty sectors, poison, the tenant whose ways hold it and its way in the slice (R150, R154, R155). -/
structure WLine where
  bytes : LineData
  dirty : BitVec 4
  poison : BitVec 4
  tenant : Nat
  way : Nat
  deriving DecidableEq, Repr

/-- Directory states (R169). -/
inductive DirSt where
  | I | S | X | O
  deriving DecidableEq, Repr

/-- A directory entry: state, owner, sharers, the pin's stamp (R173) and the last use (R174). -/
structure DirEnt where
  st : DirSt
  owner : Nat
  sharers : List Nat
  stamp : Option Nat
  used : Nat
  deriving DecidableEq, Repr

/-- What the answers to a transaction's snoops have told the home: whether an owner forwarded the line, with which
dirty sectors, and whether an owner answered RSP_EVICTING (R170, R172). -/
structure Told where
  fwd : Bool
  kept : Bool
  dirty : BitVec 4
  evicting : Bool
  deriving DecidableEq, Repr

/-- A transaction a home has open on a line: the request, the agents whose answers it awaits, what has been answered,
and the requests behind it in arrival order (R169). -/
structure Txn where
  kind : ReqKind
  req : Req
  waits : List Nat
  told : Told
  queue : List (ReqKind × Req)
  deriving DecidableEq, Repr

/-- A message in flight (R165). Remote messages of Bolts, Splice and Hot Plug and Weft frames sent stand here too. -/
inductive Msg where
  | snp (k : SnpKind) (m : Snoop)
  | req (k : ReqKind) (q : Req)
  | cmp (agent line : Nat) (st : Moesi) (fate : CmpEnd)
  | data (agent line : Nat) (valid dirty poison : BitVec 4) (bytes : LineData)
  | rspI (agent line : Nat)
  | rspS (agent line : Nat)
  | rspFwd (agent line : Nat) (dirty : BitVec 4)
  | rspEvicting (agent line entry : Nat) (dirty : BitVec 4)
  | wbD (agent entry line : Nat)
  | wbC (agent entry line : Nat)
  | wbAck (agent entry : Nat)
  | flit (port : Nat) (bytes : List Byte)
  | nvme (port cell op lba blocks : Nat)
  | nvmeAbort (port cell : Nat)
  | tlpWrite (port addr size data : Nat)
  | tlpRead (port addr : Nat) (size : Nat)
  | remoteWrite (mid line tenant : Nat) (mask : LineMask) (bytes : LineData) (poison : BitVec 4)
  | announce (link : Nat) (ident : List Word)
  | nonce (link : Nat) (words : List Word)
  | admission (link mid members pick : Nat) (standby : Bool)
  | reject (link : Nat)
  | heartbeat (b : Beat)
  | fenceCmd (mid : Nat)
  | fenced (mid : Nat)
  | fenceSet (link : Nat)
  | rejoin (twin served epoch : Nat)
  | rejoinAck (mid : Nat)
  | leave (mid : Nat)
  deriving DecidableEq, Repr

/-- What an agent of this module is owed for a request that its home has not answered at once (R166): the data buffer and the
CMP slot it has reserved. `who` numbers the requester within the agent, `copy` and `cmp` are what has come. A line to be cached
goes to the L2 instead, and its record only says that the request is out. -/
structure Owed where
  agent : Nat
  who : Nat
  line : Nat
  kind : ReqKind
  cmp : Option CmpEnd
  copy : Option (LineData × BitVec 4)
  deriving DecidableEq, Repr

/-- What an access of the module itself found that it must wait for: a device's beat, a transaction, or another module. -/
inductive Want where
  | beat (table tenant line : Nat)
  | home (h : Nat) (k : ReqKind) (q : Req)
  | far (who : Nat) (k : ReqKind) (q : Req)
  | turn
  deriving DecidableEq, Repr

/-! ### Memory -/

/-- Memory behind the homes: plaintext bytes, poisoned sectors, sectors whose poison has been reported (R201),
code-word symbols in error with their masks (R189), and the key version each sector was written under (R187). -/
structure Mem where
  cells : List Host.Cell
  poison : SMap Bool
  seen : SMap Bool
  errs : SMap (List (Nat × Nat))
  keyVer : SMap Nat
  deriving DecidableEq, Repr

/-- An entry of a controller's merge buffer (R195). -/
structure MergeEnt where
  sector : Nat
  tenant : Nat
  mask : BitVec 64
  bytes : BitVec 512
  poison : Bool
  opened : Nat
  deriving DecidableEq, Repr

/-- A memory controller and its home beside their registers: merge buffer, SHARED regions left unfilled, SHARED regions whose
marker has been seen (R193), and WR_PARTs that wait for one of the home's merge-buffer entries (R176). -/
structure Ctl where
  merge : List MergeEnt
  unfilled : List Nat
  marked : List Nat
  parts : List (ReqKind × Req)
  deriving DecidableEq, Repr

/-- A memory key slot in the key store: empty, loaded or generated, and its key's version (R186). -/
structure KeySlot where
  state : Nat
  ver : Nat
  deriving DecidableEq, Repr

/-! ### Loom -/

/-- A dirty line of a flush claim: the sectors with their data and poison. `sent` says that a line of another module is on its way
to its home, whose CMP is awaited (R31). -/
structure ClaimLine where
  line : Nat
  sel : BitVec 4
  poison : BitVec 4
  bytes : LineData
  sent : Bool
  deriving DecidableEq, Repr

/-- A flush claim: the way of its tile's slice that it is (0 to 7, ways 28 to 35), the lines it holds, the sectors of remote lines with their data, and stores moved into it (R31, R419).
`filled` says that the flush has written its dirty lines. Local lines stand in the warp cache. -/
structure Claim where
  way : Nat
  cord : Nat
  tenant : Nat
  filled : Bool
  lines : List ClaimLine
  stores : List SbEnt
  deriving DecidableEq, Repr

/-- A reassignment flush of a cord: old and new assignment words, the step reached, whether the cord has state to save,
and whether the incoming state has been loaded (R27, R419). -/
structure Flush where
  old : Word
  new : Word
  step : Nat
  ran : Bool
  loaded : Bool
  deriving DecidableEq, Repr

/-- The writeback slot of its controller in which a write stands (R177): that of an eviction-buffer entry, by its tag, of a warp
link's credit, of a victim entry of the slice, or no reserved slot. -/
inductive WbSlot where
  | entry (tag : Nat)
  | link (l : Nat)
  | victim
  | none
  deriving DecidableEq, Repr

/-- What waits for a beat: a read of a line at a device, bytes and poison to be written to a line there (`house`: only in house
and unowned beats, R155), or a message at a warp link. -/
inductive Wait where
  | read
  | write (home : Nat) (mask : LineMask) (bytes : LineData) (poison : BitVec 4) (slot : WbSlot) (house : Bool)
  | link (m : Msg)
  deriving DecidableEq, Repr

/-- A request that waits for a beat (R25), oldest first; a read whose device command has been issued waits to be taken up. -/
structure Waiting where
  table : Nat
  tenant : Nat
  line : Nat
  issued : Bool
  what : Wait
  deriving DecidableEq, Repr

/-- The Loom beside its registers: shadow tables marked (R21), whether the cord table is, the target pick and the first rclk at
which a boundary may apply the commit, reassignments deferred (R31), flushes and claims by tile; the counts of the pick, the live and the
frozen bank (R33), cords whose beat goes to the house (R29, R55), last borrowers and tenants that issued in this beat by table (R24),
requests that wait. Of PICKSYNC: whether the minute boundary is still to be made, edges unused and accepted in a row, whether
this pick has had an unused edge, whether its own edge was missing and whether an edge has come in it, the deviation of an edge that
awaits its pulse's class, whether PICK was left alone at it and whether SLIPCNT counted it, whether SYNCLOST stands for one pick only, and the pick number of an admission (R17, R316). -/
structure Loom where
  marks : Nat
  markCords : Bool
  commitPick : Option Nat
  commitFrom : Nat
  lateAtApply : Bool
  deferred : SMap Word
  flushes : SMap Flush
  claims : SMap (List Claim)
  acc : SMap Nat
  live : SMap Nat
  frozen : SMap Nat
  last : SMap Nat
  recover : List Nat
  issued : SMap (List Nat)
  waiting : List Waiting
  minuteDue : Bool
  unused : Nat
  accepted : Nat
  edge : Bool
  missed : Bool
  seen : Bool
  slipped : Bool
  syncEdge : Option (Int × Bool)
  lostPick : Bool
  admitPick : Option Nat
  deriving DecidableEq, Repr

/-- Time: rclk since power-on, rclk of the latest pick boundary, of the latest reset's start, and whether the Loom
counts picks (R13, R14). -/
structure Time where
  now : Nat
  pickStart : Nat
  resetAt : Nat
  loom : Bool
  deriving DecidableEq, Repr

/-! ### Channel subsystem -/

/-- A subchannel control block (R204, CHS_SCDATA). State: 0 FREE, 1 BOUND, 2 HALTED, 3 LOST. -/
structure Scb where
  state : Nat
  kind : Nat
  vi : Nat
  port : Nat
  target : Nat
  blk : Nat
  nextSeq : Nat
  opened : Nat
  opMax : Nat
  tmo : Nat
  haltSeq : Nat
  mdts : Nat
  sense : List Word
  deriving DecidableEq, Repr

/-- An event queue of a tenant on a cord number: records (value, descriptor), oldest first, and the discards since
the last OVERFLOW record (R97 to R99). -/
structure Evq where
  recs : List (Word × Word)
  lost : Nat
  deriving DecidableEq, Repr

/-- A Shuttle beside CHS_SHUT_s: its core, memories, restart times, operation at hand and last VI served (R224). -/
structure Shut where
  core : Core
  imem : SMap Byte
  dmem : SMap Byte
  restarts : List Nat
  cell : Option Nat
  lastVi : Nat
  saved : Bool
  deriving DecidableEq, Repr

/-- A line of the descriptor cache: its data and poison, its way and its last use (R235). -/
structure DcLine where
  bytes : LineData
  poison : BitVec 4
  way : Nat
  used : Nat
  deriving DecidableEq, Repr

/-- A quad's injectors into and out of memory: the rclk until which each is busy, and the port it served last (R242). -/
structure Inj where
  inTo : Nat
  outTo : Nat
  inLast : Nat
  outLast : Nat
  deriving DecidableEq, Repr

def Inj.zero : Inj := { inTo := 0, outTo := 0, inLast := 3, outLast := 3 }

/-- The channel subsystem beside its registers: subchannels, event queues, Shuttles, journal records by cell, the count of
acceptances, POSTED records of each VI in order, ring laps, subchannel and SEQ of retired operations that no committed capture holds
yet with the epoch to come (R259), doorbells that are PENDING (VI × 64 + slot) with the value
written, cells with a poisoned word, descriptor-cache lines and the key-slot grants cached with them (R164, R235), bytes that Shuttle
firmware has written into pool cells (R232), the injectors of the quads, and register writes of Shuttle firmware that wait for the
module's next rclk (offset and word, R232). -/
structure Chs where
  scbs : SMap Scb
  evqs : SMap Evq
  shuts : SMap Shut
  cells : SMap JRec
  order : Nat
  posted : SMap (List Nat)
  laps : SMap Nat
  retired : List (Nat × Nat × Nat)
  doorbells : SMap Nat
  poisonCells : List Nat
  dc : SMap DcLine
  grants : SMap Word
  pool : SMap Byte
  inj : SMap Inj
  writes : List (Nat × Word)
  deriving DecidableEq, Repr

/-! ### Ports and engines -/

/-- A flit that has been sent and not acknowledged: its FSEQ, the rclk of its last sending, its KIND and its payload (R250). -/
structure SentFlit where
  fseq : Nat
  at_ : Nat
  kind : Nat
  body : List Byte
  deriving DecidableEq, Repr

/-- A channel port beside its registers: unacknowledged flits, sequence counters, whether an ACK or a NAK is owed and whether the
receiver waits for a resend, replays without progress (R250), credits held and credits to return (R252), the FSEQs of the INITs it has
sent, INIT received and acknowledged, release received and sent (R247), sessions (1 opening, 2 accepted, 3 refused), frames that wait
for credits or a beat with their tenants, operations whose data is still to be sent (R258), received frames and the bytes of one that
has not come whole (R253), operations whose frames are discarded (subchannel and SEQ, R261), the rclk at which the link left UP, the
count of REG frames, whether the next data from the fabric fails its check (R203), and what stands behind a PCIe port (R265). -/
structure Port where
  replay : List SentFlit
  txSeq : Nat
  rxSeq : Nat
  ackPending : Bool
  nakDue : Bool
  nakWait : Bool
  replays : Nat
  credits : Nat
  freed : Nat
  inits : List Nat
  initSeen : Bool
  initAcked : Bool
  released : Bool
  releasing : Bool
  sessions : SMap Nat
  tx : List (Nat × Frame)
  outs : List Nat
  rx : List Frame
  rxPart : List Byte
  aborted : List (Nat × Nat)
  leftUp : Option Nat
  regSeq : Nat
  badOut : Bool
  present : Bool
  powered : Bool
  attention : Bool
  deriving DecidableEq, Repr

/-- A job at an engine: its ring (or the channel operation whose XFORM it is), VI and tenant, slot address and
descriptor; whether it holds its output, or was released although it asked for HOLD (R284); an end settled before it took input,
with its address, and whether a restore failed (R272); input consumed and output written so far; the engine's state as
its context record (R280, empty at the start of a message or stream); and whether its key was taken away (R294). -/
structure Job where
  ring : Option Nat
  cell : Option Nat
  vi : Nat
  tenant : Nat
  slot : Nat
  desc : List Word
  released : Bool
  hold : Bool
  early : Option (Nat × Nat)
  ctxBad : Bool
  used : Nat
  made : Nat
  rec_ : List Byte
  revoked : Bool
  deriving DecidableEq, Repr

/-- An engine beside its registers. Engines 0 to 3 cipher, 4 to 7 compress. -/
structure Eng where
  job : Option Job
  susp : SMap Job
  lastRing : Nat
  xforms : List Nat
  deriving DecidableEq, Repr

/-- Engines' shared state: key versions of the 8,192 key slots, the wrap key, message addresses kept per context. -/
structure Engs where
  engs : SMap Eng
  keyVer : SMap Nat
  wrapVer : Nat
  nextVer : Nat
  deriving DecidableEq, Repr

/-! ### FCU, splice, power, boot, access, record -/

/-- A reaction window (R307): sources in scope, and a FAR in scope. -/
inductive Scope where
  | triad (t : Nat)
  | domain (d : Nat)
  | all
  deriving DecidableEq, Repr

/-- Kinds of safe state (R308, R309). -/
inductive SafeKind where
  | safe | fence
  deriving DecidableEq, Repr

/-- The FCU beside its registers: open windows, the rclk of the block resets of a domain (R306), the safe state. -/
structure Fcu where
  windows : List Scope
  resets : SMap (List Nat)
  held : List Nat
  safe : Option SafeKind
  safeDone : Bool
  deriving DecidableEq, Repr

/-- What a capture holds beside the journal (R323): context images of the cords by number, the cords that are halted, store-buffer
entries of SHARED lines, registers, subchannel blocks, ring laps, the ledger's live bank and PENDING doorbells; `writes` are the lines
whose write-through had been issued and not made. -/
structure Image where
  cords : SMap (List Word)
  halted : List Nat
  stores : List (Nat × LineMask × LineData)
  regs : SMap Word
  scbs : SMap (List Word)
  laps : SMap Nat
  ledger : SMap Nat
  doors : SMap Nat
  writes : List Nat
  deriving DecidableEq, Repr

/-- Splice and bolt state beside its registers: unanswered announcements, oldest first, links of rejected candidates, the MID at
the far end of each link of an admitted module, the links that are UP, ascending, whether the nonce has gone to the
candidate shown; the epoch, the capture taken and not committed with its image, the image last committed and the
journal mirror by cell with the epoch of each entry, the last capture before a switchover, the undo
records; whether a heartbeat came in this pick and whether the pick has been checked, and the MID that last sent one; the rclk
at which FENCE_OUT_n fell, and the last one at which FENCE_IN_n was low after the wake; the rclk of the claim, the epoch
loaded, whether REJOIN has gone out, the members whose acknowledgements are awaited, aliases served by twins, and whether
the next boundary releases the protected cords; whether acceptances are refused or wait (R312 to R335). -/
structure Spl where
  announces : List Announcement
  rejected : List Nat
  peers : SMap Nat
  upLinks : List Nat
  nonceSent : Bool
  epochNow : Nat
  capture : Option Nat
  image : Option Image
  saved : Option Image
  mirror : SMap (Nat × JRec)
  final : Option Nat
  undo : List UndoRec
  heard : Bool
  checked : Bool
  lastFrom : Option Nat
  fenceOutAt : Nat
  fenceLow : Option Nat
  claimAt : Option Nat
  loaded : Option Nat
  rejoining : Bool
  awaiting : List Nat
  routes : SMap Nat
  release : Bool
  refusing : Bool
  ckFail : Bool
  deriving DecidableEq, Repr

/-- A domain transition: from, to and whether it has begun (R342). -/
structure Trans where
  src : Nat
  dst : Nat
  begun : Bool
  wake : Bool
  deriving DecidableEq, Repr

/-- Power state beside its registers: transitions, the states before the lifecycle RETAIN, halvings by cause with
their boundary counts or expiry times, sensors, restart from reset, the lifecycle RETAIN in progress. -/
structure Power where
  trans : SMap Trans
  before : SMap Nat
  railHalf : SMap Nat
  railUntil : SMap Nat
  thermHalf : SMap Nat
  thermUntil : SMap Nat
  sensors : SMap Nat
  ageDone : Bool
  retain : Nat
  retained : Bool
  stalled : List Nat
  deriving DecidableEq, Repr

/-- Stages of the boot (R363). -/
inductive Stage where
  | off | railWait | image | profile | selfTest | training | fill | invalidate | hostcode | ready | released | stuck
  deriving DecidableEq, Repr

/-- What a warm reset remembers of the time before it: its inputs, KIND, the mode and profile in use, whether it ended a safe
state, the ports in Weft mode, the states of domains that were not ON, and whether RESET_n still holds the module. -/
structure WarmBoot where
  inp : ResetInputs
  kind : Nat
  mode : Nat
  prof : Nat
  safe : Bool
  weft : List Nat
  doms : SMap Nat
  held : Bool
  deriving DecidableEq, Repr

/-- Boot state: the stage, the copy held, the profile's 38 words (R370), the inputs of a cold boot, and of a warm one what the
reset has remembered. -/
structure Boot where
  stage : Stage
  copy : Option FlashCopy
  prof : List Word
  inputs : Option BootInputs
  warm : Option WarmBoot
  deriving DecidableEq, Repr

/-- Access control beside its registers (R374 to R377). -/
structure Sec where
  gen : Nat
  salt : Nat
  hash : Nat
  delayed : Bool
  chal : List Word
  deriving DecidableEq, Repr

/-- The I3C target (R373): dynamic address and the offset of the last READ. -/
structure I3c where
  addr : Option (BitVec 7)
  read : Option Nat
  deriving DecidableEq, Repr

/-- A command of RPL_CMD waiting for its pick boundary (R387). -/
inductive RplWait where
  | none | record | release | stop | replay
  deriving DecidableEq, Repr

/-- An inbound burst in the hold area of a replay: its VI, tenant-physical address and length, and where in the area its bytes lie
(R390). -/
structure HeldBurst where
  vi : Nat
  tpa : Nat
  len : Nat
  off : Nat
  deriving DecidableEq, Repr

/-- Record and replay beside its registers: the recorded cords, the staged records as words, records given up for a
GAP at the staging buffer and at the ring, the command that waits and the rclk of its write, beats lent in this pick by table
and tenant (borrowed, lent). Of a replay: START's PICK and the pick of offset 0, the journal not yet applied, the cord of the
first divergence and whether this pick has one, cords that took an unrecorded conflict slip, the bursts in the hold area, pauses by
cord, the beats owned in this pick (table, tenant, borrowed, lent), and whether a GAP ends it (R383 to R394). -/
structure Rpl where
  cords : List Nat
  staged : List (List Word)
  lost : Nat
  ringLost : Nat
  wait : RplWait
  waitAt : Nat
  lend : SMap (Nat × Nat)
  base : Nat
  startPick : Nat
  journal : List (List Word)
  divCord : Option Nat
  divNow : Bool
  unrec : List Nat
  held : List HeldBurst
  paused : SMap Nat
  owned : List (Nat × Nat × Nat × Nat)
  gap : Bool
  deriving DecidableEq, Repr

/-- Pins (R403). Outputs: FAULT_n, SAFE_n, FENCE_OUT_n, and the width in rclk of the last PICKSYNC_OUT pulse. -/
structure Pins where
  pwrgood : Bool
  resetN : Bool
  prof : BitVec 2
  fenceIn : Bool
  fault : Bool
  safe : Bool
  fenceOut : Bool
  picksync : Nat
  deriving DecidableEq, Repr

/-! ### The module -/

/-- One TRT96 module. `free` counts the free values drawn (log 7), `seq` numbers the uses by which a least recently
used entry is known (R174, R216), `resp` holds the words the last read command
returned, `owed` the answers that agents of this module await, `wants` what the command at hand found that it must wait for
(empty between commands), `locks` the LOCK fields written since cold reset (offset × 64 + lowest bit), `pending` the commands that wait, first in first out. -/
structure State where
  free : Nat
  seq : Nat
  time : Time
  regs : SMap Word
  locks : List Nat
  cords : SMap Core
  triads : SMap Triad
  tlb : List TlbEnt
  tlbi : List (Nat × TlbInv)
  l2 : SMap CLine
  ev : SMap EvEnt
  snoops : List (SnpKind × Snoop)
  warp : SMap WLine
  dir : SMap DirEnt
  txns : SMap Txn
  evPend : List Nat
  net : List Msg
  owed : List Owed
  wants : List Want
  mem : Mem
  ctls : SMap Ctl
  keys : SMap KeySlot
  keyNext : Nat
  loom : Loom
  chs : Chs
  ports : SMap Port
  eng : Engs
  fcu : Fcu
  spl : Spl
  pwr : Power
  boot : Boot
  sec : Sec
  i3c : I3c
  rpl : Rpl
  pins : Pins
  resp : List Word
  pending : List Instr
  deriving DecidableEq, Repr

/-! ### Defaults: what an unlisted entry of a table is -/

def LvlStk.zero : LvlStk := { sp := 0, sb := 0, sl := 0 }
def TrapRegs.zero : TrapRegs := { tvec := 0, epc := 0, estat := 0, eval := 0, gate := 0 }
def AG.zero : AG := { base := 0, idx := 0, step := 0, len := 0, brk := 0 }

/-- A cord that runs nothing, every register zero (log 5). -/
def Core.zero : Core :=
  { pc := 0, flags := 0, fcsr := 0, retire := 0, lvl := .U, ee := false
    stkU := LvlStk.zero, stkS := LvlStk.zero, stkH := LvlStk.zero, trS := TrapRegs.zero, trH := TrapRegs.zero
    ptbr := 0, s2br := 0, ags := [], cache := [], run := .idle, knot := none, sbuf := [], ord := 0, bounced := []
    resv := none, fpCount := [], digest := 0, brks := [], wrote := [], dbg := false, paused := false, answers := [] }

def Triad.zero : Triad :=
  { ckptBad := [], retries := [], retryAt := [], resync := none, counts := [], detected := [], kinds := []
    mig := none, log := [], resume := [], selfTest := false }

def CLine.none : CLine :=
  { st := .I, valid := 0, dirty := 0, poison := 0, bytes := 0, way := 0, share := 0, l1d := 0, l1i := 0
    held := false }

def DirEnt.none : DirEnt := { st := .I, owner := 0, sharers := [], stamp := Option.none, used := 0 }

def Ctl.zero : Ctl := { merge := [], unfilled := [], marked := [], parts := [] }
def KeySlot.empty : KeySlot := { state := 0, ver := 0 }

/-- A FREE subchannel with the reset values of CHS_SCDATA. -/
def Scb.reset : Scb :=
  { state := 0, kind := 0, vi := 0, port := 0, target := 0, blk := 0, nextSeq := 1, opened := 0
    opMax := 0x1000, tmo := 0x3E8, haltSeq := 0, mdts := 0, sense := [] }

def Evq.empty : Evq := { recs := [], lost := 0 }

def Shut.zero : Shut :=
  { core := Core.zero, imem := [], dmem := [], restarts := [], cell := none, lastVi := 0, saved := false }

def Port.zero : Port :=
  { replay := [], txSeq := 0, rxSeq := 0, ackPending := false, nakDue := false, nakWait := false, replays := 0, credits := 0, freed := 0
    inits := [], initSeen := false, initAcked := false, released := false, releasing := false, sessions := [], tx := [], outs := []
    rx := [], rxPart := [], aborted := [], leftUp := none, regSeq := 0, badOut := false, present := false, powered := false, attention := false }

def Eng.zero : Eng := { job := none, susp := [], lastRing := 63, xforms := [] }

def Loom.zero : Loom :=
  { marks := 0, markCords := false, commitPick := none, commitFrom := 0, lateAtApply := false, deferred := [], flushes := [], claims := []
    acc := [], live := [], frozen := [], recover := [], last := [], issued := [], waiting := [], minuteDue := false, unused := 0
    accepted := 0, edge := false, missed := false, seen := false, slipped := false, syncEdge := none, lostPick := false, admitPick := none }

def Chs.zero : Chs :=
  { scbs := [], evqs := [], shuts := [], cells := [], order := 0, posted := [], laps := [], retired := [], doorbells := []
    poisonCells := [], dc := [], grants := [], pool := [], inj := [], writes := [] }

def Spl.zero : Spl :=
  { announces := [], rejected := [], peers := [], upLinks := [], nonceSent := false, epochNow := 0, capture := none, image := none, saved := none, mirror := []
    final := none, undo := [], heard := false, checked := false, lastFrom := none, fenceOutAt := 0, fenceLow := none
    claimAt := none, loaded := none, rejoining := false, awaiting := [], routes := [], release := false
    refusing := false, ckFail := false }

def Power.zero : Power :=
  { trans := [], before := [], railHalf := [], railUntil := [], thermHalf := [], thermUntil := [], sensors := []
    ageDone := false, retain := 0, retained := false, stalled := [] }

def Boot.zero : Boot :=
  { stage := .off, copy := none, prof := [], inputs := none, warm := none }

def Rpl.zero : Rpl :=
  { cords := [], staged := [], lost := 0, ringLost := 0, wait := .none, waitAt := 0, lend := [], base := 0, startPick := 0
    journal := [], divCord := none, divNow := false, unrec := [], held := [], paused := [], owned := [], gap := false }

/-- The module at power-on (R360): VSTBY has come up, PWRGOOD is low, the boot has not begun, every register at its
reset value, memory listed nowhere (it reads zero from Fill on, R192), the output pins as R403 gives. -/
def State.reset : State :=
  { free := 0, seq := 0
    time := { now := 0, pickStart := 0, resetAt := 0, loom := false }
    regs := [], locks := [], cords := [], triads := [], tlb := [], tlbi := [], l2 := [], ev := [], snoops := [], warp := []
    dir := [], txns := [], evPend := [], net := [], owed := [], wants := []
    mem := { cells := [], poison := [], seen := [], errs := [], keyVer := [] }
    ctls := [], keys := [], keyNext := 1
    loom := Loom.zero, chs := Chs.zero, ports := []
    eng := { engs := [], keyVer := [], wrapVer := 0, nextVer := 1 }
    fcu := { windows := [], resets := [], held := [], safe := none, safeDone := false }
    spl := Spl.zero, pwr := Power.zero, boot := Boot.zero
    sec := { gen := 0, salt := 0, hash := 0, delayed := false, chal := [] }
    i3c := { addr := none, read := none }
    rpl := Rpl.zero
    pins := { pwrgood := false, resetN := true, prof := 0, fenceIn := true, fault := true, safe := true
              fenceOut := true, picksync := 0 }
    resp := [], pending := [] }

/-! ### Stops -/

/-- No step of this model faults: the spec gives every step a trap, a slip, a report, a status or no effect. The type
has no constructor. -/
inductive Fault where
  deriving DecidableEq, Repr

/-- Refusals. -/
inductive Refusal where
  /-- Raised by an arm of exec whose command has no meaning yet. Safe: nothing is claimed of it. -/
  | notModelled (mnemonic : String)
  /-- Raised by UNDEFINED_ENCODING on a word that the tables of R80 to R90 define: such a word is the command of its
  own row, not this one. Safe: the row's own command has the word's effect. -/
  | definedWord
  deriving DecidableEq, Repr

end Sys2Proof.Machine
end

