-- ==== Sys2Proof/Machine/Regs.lean ====
section
/-! DEFINITION. Reading and writing control-window registers (00_scope R1 to R12).

`State.rd` is a register's stored word, `State.get` and `State.put` read and write one field from inside the module;
`hostWrite` is a host write with the access types of R9 and the refusals of R11 and R12; `readReg` is what a host
read returns, fields that copy other state included. -/

namespace Sys2Proof.Machine

/-! ### Bits of a number -/

/-- Bits [lsb + w - 1:lsb] of x. -/
def bits (x lsb w : Nat) : Nat := x / 2 ^ lsb % 2 ^ w

/-- x with bits [lsb + w - 1:lsb] replaced by v. -/
def setBits (x lsb w v : Nat) : Nat :=
  x % 2 ^ lsb + v % 2 ^ w * 2 ^ lsb + x / 2 ^ (lsb + w) * 2 ^ (lsb + w)

/-- Bit i of x. -/
def bitAt (x i : Nat) : Bool := x / 2 ^ i % 2 == 1

/-- x with bit i set to b. -/
def setBit (x i : Nat) (b : Bool) : Nat := setBits x i 1 (if b then 1 else 0)

def boolNat (b : Bool) : Nat := if b then 1 else 0

/-- A count that saturates at the top of w bits. -/
def satAdd (x n w : Nat) : Nat := min (x + n) (2 ^ w - 1)

/-- The number of ones in the low w bits. -/
def popCount : Nat → Nat → Nat
  | _, 0 => 0
  | x, w + 1 => x % 2 + popCount (x / 2) w

/-! ### Stored words -/

/-- The reset value of a register (the Reset columns; R20 for beat 63, R305 for FCU_SRC). Fields that come from the
profile read 0 until a profile has been applied, reactions their default (log 4). -/
def resetWord (off : Nat) : Nat :=
  match rowAt off with
  | none => 0
  | some r =>
    if r.base = 0x101000 ∨ r.base = 0x105000 then (if off / 8 % 32 = 15 then 0x8000000000000000 else 0)
    else if r.base = 0x202000 then fcuSrcReset ((off - r.base) / 8)
    else r.reset

/-- The stored word of a register. -/
def State.rd (s : State) (off : Nat) : Nat :=
  match mget? s.regs off with
  | some w => w.toNat
  | none => resetWord off

/-- A register's stored word replaced. -/
def State.wr (s : State) (off x : Nat) : State :=
  { s with regs := mput s.regs off (BitVec.ofNat 64 x) (BitVec.ofNat 64 (resetWord off)) }

/-- A field's value. -/
def State.get (s : State) (f : Fld) : Nat := bits (s.rd f.off) f.lsb f.w

/-- A field written from inside the module. -/
def State.put (s : State) (f : Fld) (v : Nat) : State := s.wr f.off (setBits (s.rd f.off) f.lsb f.w v)

/-- A one-bit field. -/
def State.flag (s : State) (f : Fld) : Bool := s.get f == 1

def State.putFlag (s : State) (f : Fld) (b : Bool) : State := s.put f (boolNat b)

/-- A saturating counter field increased. -/
def State.bump (s : State) (f : Fld) (n : Nat) : State := s.put f (satAdd (s.get f) n f.w)

/-! ### Mode, role and lifecycle (R3, R4, PWR_MODSTAT) -/

/-- Voted execution: modes 0 to 5 (R3). -/
def State.voted (s : State) : Bool := s.get MOD_MODE.MODE < 6

/-- Closed weave (R3). -/
def State.closedWeave (s : State) : Bool := s.get MOD_MODE.MODE / 3 % 2 == 0

/-- The role: 0 SOLO, 1 MANAGER, 2 WORKER (R3). -/
def State.role (s : State) : Nat := s.get MOD_MODE.MODE % 3

/-- 48 cords in Voted, 96 in Split execution (R2). -/
def State.cordCount (s : State) : Nat := if s.voted then 48 else 96

/-- The triad of a cord (R2). -/
def State.triadOf (s : State) (c : Nat) : Nat := if s.voted then c else c / 2

/-- The cord's place in its triad: 0, or 1 for cord 2t + 1 in Split execution. -/
def State.shareOf (s : State) (c : Nat) : Nat := if s.voted then 0 else c % 2

/-- The cord of a triad and place. -/
def State.cordOf (s : State) (t k : Nat) : Nat := if s.voted then t else 2 * t + k

/-- The places of a triad: one in Voted, two in Split execution. -/
def State.places (s : State) : List Nat := if s.voted then [0] else [0, 1]

def life.BOOT : Nat := 1
def life.FILL : Nat := 2
def life.RUN : Nat := 3
def life.DOZE : Nat := 4
def life.RETAIN : Nat := 5
def life.STANDBY : Nat := 6
def life.TAKEOVER : Nat := 7
def life.QUIESCE : Nat := 8
def life.SAFE : Nat := 9
def life.REPLAY : Nat := 10
def life.FACTORY : Nat := 11

def State.lifecycle (s : State) : Nat := s.get PWR_MODSTAT.LIFE

/-- The MID of this module (R311). -/
def State.mid (s : State) : Nat := s.get SPL_BOLT.MID

/-! ### Host writes -/

/-- Whether the value is an encoding of the field; `w` is the whole word written. -/
def ruleOk (s : State) (off w v : Nat) : Rule → Bool
  | .any => true
  | .lt n => v < n
  | .between lo hi => lo ≤ v && v ≤ hi
  | .from1 => v ≠ 0
  | .ways4 => popCount v 16 ≤ 4
  | .device => v < 10 || v == 15
  | .ringSize => v < 2 ^ (s.get (CHS_VI_RING.SIZE ((off - 0x8000000) / 0x1000)) + 6)
  | .keyOp => !(v == 3 && bitAt w 19)
  | .keyType => v < 5 || bitAt w 19
  | .cord => v < s.cordCount
  | .far => v < 260 || v == 0x1FF
  | .reaction c => (reactions ((off - 0x202000) / 8) c).contains v
  | .arbB => !(bitAt w 6 && v == bits w 7 4)
  | .padDomain => bitAt w 9 || (228 ≤ v && v < 260)
  | .rplTenant => v ≠ 0

/-- Whether the field takes writes now; a write that its gate turns away is ignored. -/
def gateOpen (s : State) (off : Nat) : Gate → Bool
  | .always => true
  | .clear b fwd => !bitAt (s.rd (off + fwd)) b
  | .ringOff => !bitAt (s.rd (off - 8)) 0
  | .viOff => !bitAt (s.rd (off / 0x20 * 0x20)) 0
  | .notBeat63 => off / 8 % 32 ≠ 15
  | .cordExists => (off - 0x109000) / 8 < s.cordCount
  | .split => !s.voted
  | .factory => s.lifecycle == life.FACTORY
  | .caps c => bitAt (caps ((off - 0x202000) / 8)) c
  | .manager => s.role == 1 && !s.flag SPL_ADMIT.BUSY
  | .domWritable => !bitAt (s.rd off) 4
  | .secIdle => !s.flag SEC_STAT.BUSY
  | .rplIdle => s.get RPL_STAT.STATE == 0

/-- The progress of a write through a register's fields: the register's new word, the word as the block takes it
(refused and ignored fields 0), refused fields (lowest and highest bit), fields locked by it. -/
structure WriteAcc where
  word : Nat
  taken : Nat
  refused : List (Nat × Nat)
  locked : List Nat
  deriving DecidableEq, Repr

/-- One field of a write (R9, R11). -/
def writeField (s : State) (off w : Nat) (a : WriteAcc) (f : WField) : WriteAcc :=
  let v := bits w f.lsb f.w
  if !gateOpen s off f.gate then a
  else if f.acc = .lock ∧ off * 64 + f.lsb ∈ s.locks then a
  else if !ruleOk s off w v f.rule then { a with refused := a.refused ++ [(f.lsb, f.lsb + f.w - 1)] }
  else
    let a := { a with taken := setBits a.taken f.lsb f.w v }
    match f.acc with
    | .rw => { a with word := setBits a.word f.lsb f.w v }
    | .held => { a with word := setBits a.word f.lsb f.w v }
    | .wo => a
    | .w1c => { a with word := setBits a.word f.lsb f.w (bits a.word f.lsb f.w &&& (2 ^ f.w - 1 - v)) }
    | .lock => { a with word := setBits a.word f.lsb f.w v, locked := a.locked ++ [off * 64 + f.lsb] }

/-- A write through all fields of its register; an unassigned offset takes nothing (R6, R10). -/
def writeFields (s : State) (off w : Nat) : WriteAcc :=
  let a : WriteAcc := { word := s.rd off, taken := 0, refused := [], locked := [] }
  match rowAt off with
  | none => a
  | some r => r.fields.foldl (writeField s off w) a

/-- MOD_CFGERR takes the refused fields of a write, lowest first (R11, R12). `fresh` says that VALID was cleared in
this fclk. -/
def cfgErr (s : State) (off : Nat) (refused : List (Nat × Nat)) : State :=
  match refused with
  | [] => s
  | (lo, hi) :: more =>
    if s.flag MOD_CFGERR.VALID then s.putFlag MOD_CFGERR.OVERFLOW true
    else
      let s := (((s.put MOD_CFGERR.OFFSET off).put MOD_CFGERR.FIELD_LSB lo).put MOD_CFGERR.FIELD_MSB hi).putFlag
        MOD_CFGERR.VALID true
      if more = [] then s else s.putFlag MOD_CFGERR.OVERFLOW true

/-- A host write: the register's fields under R9 to R11, and the refusals under R12. -/
def hostWrite (s : State) (off : Nat) (v : Word) : State :=
  let a := writeFields s off v.toNat
  let s := if (rowAt off).isSome then s.wr off a.word else s
  cfgErr { s with locks := s.locks ++ a.locked } off a.refused

/-- What the block takes of a write: its accepted fields in place, every other bit 0. -/
def taken (s : State) (off : Nat) (v : Word) : Nat := (writeFields s off v.toNat).taken

/-! ### Host reads -/

/-- Tenant t's frozen ledger counter i (R34). -/
def ledgerAt (m : SMap Nat) (t i : Nat) : Nat := mget m (t * 16 + i) 0

/-- Dirty lines of a cord's share (CRD_CACHESTAT). -/
def dirtyLines (s : State) (t share : Nat) : Nat :=
  (s.l2.filter (fun e => e.1 / 2 ^ 44 == t && e.2.share == share && e.2.dirty != 0)).length

/-- The module-physical image of one register word as a host read returns it: WO fields 0, fields that copy other
state computed (R6, R9). -/
def readReg (s : State) (off : Nat) : Nat :=
  match rowAt off with
  | none => 0
  | some r =>
    let x := s.rd off
    let x := x - (x &&& r.hidden)
    let k1 := (off - r.base) / r.s1
    let k2 := (off - r.base) % r.s1 / r.s2
    if r.base = 0x0 then x + (if Config.screenX then 0x100000 else 0)
    else if r.base = 0x8 then (Config.serial k1).toNat
    else if r.base = 0x180000 then ledgerAt s.loom.frozen k1 k2
    else if r.base = 0x1000000 then setBit x 15 (s.places.any (fun k => (mget s.cords (s.cordOf k1 k) Core.zero).dbg))
    else if r.base = 0x1008008 then setBits (setBits x 0 15 (dirtyLines s k1 0)) 16 15 (dirtyLines s k1 1)
    else if r.base = 0x3000140 then setBits x 13 2 (mget s.keys (s.get MEM_KEYCMD.SLOT) KeySlot.empty).state
    else if r.base = 0x4010000 then setBit x 3 (bitAt x 1 && bits x 32 16 == 0)
    else if r.base = 0x8000400 then
      let cfg := s.rd (CHS_VI_CFG.off k1)
      setBits (setBit (setBit (setBit x 1 (bitAt cfg 1)) 2 (bits cfg 16 16 ≤ bits cfg 32 16)) 3 (bitAt cfg 14)) 16 16
        (bits cfg 32 16)
    else if r.base = 0x4100020 then (if s.flag (CHP_CFG.MODE k1) then x else 0)
    else if r.base = 0x200020 then (if s.lifecycle = life.FACTORY then x else 0)
    else if r.base = 0x600008 then (if s.role = 1 then x else 0)
    else if r.base = 0x400000 then setBits (setBit x 2 (decide (s.sec.gen ≠ 0))) 15 3 s.sec.gen
    else if r.base = 0x400010 then (if s.flag SEC_STAT.CHALV then x else 0)
    else if r.base = 0x300310 then setBit x 16 Config.screenX
    else x

/-- The effect of a host read on the registers that reading clears. -/
def readClears (s : State) (off : Nat) : State :=
  match rowAt off with
  | none => s
  | some r => if r.clr = 0 then s else s.wr off (s.rd off - (s.rd off &&& r.clr))

/-- A host read: its word in `resp`, and what reading clears. -/
def hostRead (s : State) (off : Nat) : State := { readClears s off with resp := [BitVec.ofNat 64 (readReg s off)] }

/-! ### Free values -/

/-- The next free value (log 7). -/
def State.freeVal (s : State) : Word := Config.freeWord s.free

/-- The state after a free value has been drawn. -/
def State.drew (s : State) : State := { s with free := s.free + 1 }

end Sys2Proof.Machine
end

