-- ==== Sys2Proof/Machine/Ops.lean ====
section
/-! DEFINITION. Shared operations: the profile in use, power domains, time, beat ownership, the ledger, event queues,
the record journal's staging, and the address map. -/

namespace Sys2Proof.Machine

/-! ### Updates of one entry of a table -/

def State.cord (s : State) (c : Nat) : Core := mget s.cords c Core.zero
def State.setCord (s : State) (c : Nat) (k : Core) : State := { s with cords := mput s.cords c k Core.zero }
def State.modCord (s : State) (c : Nat) (f : Core → Core) : State := s.setCord c (f (s.cord c))

def State.triad (s : State) (t : Nat) : Triad := mget s.triads t Triad.zero
def State.setTriad (s : State) (t : Nat) (x : Triad) : State := { s with triads := mput s.triads t x Triad.zero }
def State.modTriad (s : State) (t : Nat) (f : Triad → Triad) : State := s.setTriad t (f (s.triad t))

def State.port (s : State) (p : Nat) : Port := mget s.ports p Port.zero
def State.modPort (s : State) (p : Nat) (f : Port → Port) : State :=
  { s with ports := mput s.ports p (f (s.port p)) Port.zero }

def State.ctl (s : State) (h : Nat) : Ctl := mget s.ctls h Ctl.zero
def State.modCtl (s : State) (h : Nat) (f : Ctl → Ctl) : State :=
  { s with ctls := mput s.ctls h (f (s.ctl h)) Ctl.zero }

def State.shut (s : State) (n : Nat) : Shut := mget s.chs.shuts n Shut.zero
def State.setShut (s : State) (n : Nat) (x : Shut) : State :=
  { s with chs := { s.chs with shuts := mput s.chs.shuts n x Shut.zero } }
def State.modShut (s : State) (n : Nat) (f : Shut → Shut) : State := s.setShut n (f (s.shut n))

/-- The core of an agent: a cord's, or a Shuttle's (R100). -/
def State.core (s : State) : Agent → Core
  | .cord c => s.cord c
  | .shuttle n => (s.shut n).core

def State.setCore (s : State) (a : Agent) (k : Core) : State :=
  match a with
  | .cord c => s.setCord c k
  | .shuttle n => s.modShut n (fun x => { x with core := k })

def State.modCore (s : State) (a : Agent) (f : Core → Core) : State := s.setCore a (f (s.core a))

/-- A debugger action entered in the log of a cord's triad with the cord's retire count; the log keeps 32 (R61, log 14). -/
def State.logDebug (s : State) (c : Nat) (x : DbgAction) : State :=
  s.modTriad (s.triadOf c) (fun t => { t with log := (t.log ++ [((s.cord c).retire, x)]).drop (t.log.length - 31) })

/-- The beat of a cord that recovers or changes hands goes to the house (R29, R55). -/
def State.recovers (s : State) (c : Nat) : State := { s with loom := { s.loom with recover := c :: s.loom.recover } }

/-! ### Messages (R165, R166, R178) -/

/-- A message sent (R165): the last of `net`, where it stands with its sender until it holds a credit (R166). -/
def State.send (s : State) (m : Msg) : State := { s with net := s.net ++ [m] }

/-- A message received: the first equal one in flight is taken away, and its credit returns. -/
def State.take (s : State) (m : Msg) : State := { s with net := s.net.erase m }

/-- The classes of R165. -/
inductive MsgClass where
  | REQ | SNP | WB | RSP | DAT
  deriving DecidableEq, Repr

/-- Credits of a class on a hop (R165). -/
def MsgClass.credits : MsgClass → Nat
  | .REQ => 24
  | .SNP => 24
  | .WB => 16
  | .RSP => 32
  | .DAT => 32

/-- The order in which full classes drain (R178): RSP and DAT, WB, SNP, REQ. -/
def MsgClass.rank : MsgClass → Nat
  | .RSP => 0
  | .DAT => 0
  | .WB => 1
  | .SNP => 2
  | .REQ => 3

/-- A virtual channel: a class on the hop between an agent and the fabric, to the agent or from it (R166; log 39). -/
structure Chan where
  cls : MsgClass
  agent : Nat
  toAgent : Bool
  deriving DecidableEq, Repr

/-- The virtual channel of a coherence message; none of any other. -/
def Msg.chan : Msg → Option Chan
  | .req _ q => some { cls := .REQ, agent := q.src, toAgent := false }
  | .snp _ m => some { cls := .SNP, agent := m.agent, toAgent := true }
  | .wbD a _ _ => some { cls := .WB, agent := a, toAgent := false }
  | .wbC a _ _ => some { cls := .WB, agent := a, toAgent := false }
  | .cmp a _ _ _ => some { cls := .RSP, agent := a, toAgent := true }
  | .wbAck a _ => some { cls := .RSP, agent := a, toAgent := true }
  | .rspI a _ => some { cls := .RSP, agent := a, toAgent := false }
  | .rspS a _ => some { cls := .RSP, agent := a, toAgent := false }
  | .rspFwd a _ _ => some { cls := .RSP, agent := a, toAgent := false }
  | .rspEvicting a _ _ _ => some { cls := .RSP, agent := a, toAgent := false }
  | .data a _ _ _ _ _ => some { cls := .DAT, agent := a, toAgent := true }
  | _ => none

/-- The messages of a channel that hold a credit: the oldest, as many as the class has credits (R166). -/
def State.credited (s : State) (c : Chan) : List Msg :=
  (s.net.filter (fun m => m.chan == some c)).take c.cls.credits

/-- A sender holds messages of the class for want of a credit. -/
def State.classFull (s : State) (k : MsgClass) : Bool :=
  s.net.any (fun m => match m.chan with
    | some c => c.cls == k && !(s.credited c).contains m
    | none => false)

/-- Every class is full at once (R178). -/
def State.allFull (s : State) : Bool := [MsgClass.REQ, .SNP, .WB, .RSP, .DAT].all s.classFull

/-- A message of the class is in flight whose turn comes before that of another class (R178). -/
def State.earlierFlies (s : State) (k : MsgClass) : Bool :=
  s.net.any (fun m => match m.chan with
    | some c => c.cls.rank < k.rank && (s.credited c).contains m
    | none => false)

/-- The message is in flight and may arrive now. -/
def State.flies (s : State) (m : Msg) : Bool :=
  match m.chan with
  | none => s.net.contains m
  | some c => (s.credited c).contains m && !(s.allFull && s.earlierFlies c.cls)

/-! ### The profile in use (R370) -/

/-- Word i of the profile body. -/
def State.prof (s : State) (i : Nat) : Nat := (s.boot.prof.getD i 0).toNat

/-- Per-channel DDR capacity K in bytes (R180). -/
def State.kBytes (s : State) : Nat := bits (s.prof 2) 0 12 * 2 ^ 30
/-- Ranks per channel. -/
def State.ranks (s : State) : Nat := bits (s.prof 2) 13 4
/-- HDM_SIZE of CXL port p in bytes (R181). -/
def State.hdmSize (s : State) (p : Nat) : Nat := bits (s.prof (4 + 2 * p)) 0 32 * 2 ^ 28
/-- HDM_DPABASE of CXL port p. -/
def State.hdmBase (s : State) (p : Nat) : Nat := bits (s.prof (5 + 2 * p)) 28 24 * 2 ^ 28
/-- ×8 port p is in CXL mode. -/
def State.cxlMode (s : State) (p : Nat) : Bool := bitAt (s.prof 0) (23 + p)
/-- The reservation granule in bytes (R133). -/
def State.granule (s : State) : Nat := 256 * 2 ^ bits (s.prof 0) 42 2
/-- MEM_UEPOL.POLICY, the same in every controller (R201). -/
def State.poisonPolicy (s : State) : Bool := s.flag (MEM_UEPOL.POLICY 0)
/-- Inline encryption (R184). -/
def State.encOn (s : State) (h : Nat) : Bool := s.flag (MEM_CTL.ENC h)

/-! ### Power domains (R339, R340) -/

def dom.strand (t k : Nat) : Nat := 3 * t + k
def dom.l2 (t : Nat) : Nat := 144 + t
def dom.slice (k : Nat) : Nat := 192 + k
def dom.cluster (n : Nat) : Nat := 196 + n / 4
/-- Engine e: 0 to 3 cipher, 4 to 7 compression. -/
def dom.engine (e : Nat) : Nat := 204 + e
/-- The domain of home h's memory controller. -/
def dom.mem (h : Nat) : Nat := 212 + h
def dom.quad (q : Nat) : Nat := 244 + q
def dom.link (l : Nat) : Nat := 256 + l / 4

/-- A domain is ON and not held in reset; the uncore is always on (R340, R306). -/
def State.domOn (s : State) (d : Nat) : Bool := 260 ≤ d || (s.get (PWR_DOM.CUR d) == 0 && !s.fcu.held.contains d)

/-- A domain takes requests: it is ON, or a wake brings it back to ON, during which requests stall and then proceed
(R344, R346). -/
def State.lit (s : State) (d : Nat) : Bool :=
  s.domOn d || (match mget? s.pwr.trans d with
    | some x => x.wake
    | none => false)

/-- The slice before home h (06, The warp cache). -/
def sliceOf (h : Nat) : Nat := h % 16 / 4

/-! ### Time -/

/-- rclk since the latest pick boundary. -/
def State.since (s : State) : Nat := s.time.now - s.time.pickStart

def State.pick (s : State) : Nat := s.get LOOM_PICK.PICK
def State.beat (s : State) : Nat := s.get LOOM_PICK.BEAT

/-- RDTIME: PICK × 12,800 + rclk since the pick boundary (R82). -/
def State.rdtime (s : State) : Nat := s.pick * Config.rclkPerPick + s.since

/-! ### Tenants and beats (R18 to R26) -/

/-- The active assignment of a cord. -/
def State.tenantOf (s : State) (c : Nat) : Nat := s.get (LOOM_CORDA.TENANT c)
def State.assigned (s : State) (c : Nat) : Bool := s.get (LOOM_CORDA.STATE c) == 1
/-- The module-physical address of a cord's context slot. -/
def State.ctxOf (s : State) (c : Nat) : Nat := s.get (LOOM_CORDA.CTX c) * 4096

/-- The tenant an agent's accesses carry; firmware runs for the host. -/
def State.agentTenant (s : State) : Agent → Nat
  | .cord c => s.tenantOf c
  | .shuttle _ => 0

/-- Entry of beat b in the active heddle table t: KIND and TENANT (LOOM_HEDA). -/
def State.hedKind (s : State) (t b : Nat) : Nat := bits (s.rd (LOOM_HEDA.off t (b / 4))) (b % 4 * 16 + 14) 2
def State.hedTenant (s : State) (t b : Nat) : Nat := bits (s.rd (LOOM_HEDA.off t (b / 4))) (b % 4 * 16) 10

/-- The owner of a beat; none for an unowned or house beat (R23). In an open-weave replay a replayed tenant owns the beats that
it borrowed and loses those it lent (R394). -/
def State.beatOwner (s : State) (t b : Nat) : Option Nat :=
  match s.rpl.owned.find? (fun x => x.1 == t && bitAt x.2.2.1 b) with
  | some x => some x.2.1
  | none =>
    if s.hedKind t b = 0 ∧ !s.rpl.owned.any (fun x => x.1 == t && x.2.1 == s.hedTenant t b && bitAt x.2.2.2 b)
    then some (s.hedTenant t b) else none

/-- Heddle tables of R18. -/
def table.mem (h : Nat) : Nat := if h < 16 then h / 2 else 8 + (h - 16) / 2
def table.link (l : Nat) : Nat := 16 + l
def table.dma (p : Nat) : Nat := 32 + p / 4
def table.engine (e : Nat) : Nat := 44 + e

/-- The tenants with a request waiting on a table, not yet issued. -/
def State.waitTenants (s : State) (t : Nat) : List Nat :=
  ((s.loom.waiting.filter (fun w => w.table == t && !w.issued)).map Waiting.tenant).eraseDups

/-- The next of some tenants in rotation after the last borrower of a table (R24). Where nobody has borrowed yet, the spec gives no
start: the rotation starts at the lowest tenant ID (DESIGN CHOICE, log 40). -/
def rotation (last : Option Nat) (ts : List Nat) : Option Nat :=
  match last with
  | none => ts.min?
  | some l =>
    match (ts.filter (fun x => l < x)).min? with
    | some x => some x
    | none => ts.min?

/-- The last rclk of a beat in which a request of a table issues in closed weave (R24): 188 for memory commands, 140 for
warp messages. -/
def lastIssue (t : Nat) : Nat := if t < 16 then 188 else if t < 32 then 140 else 199

/-- The safe state stops every block (R308). -/
def State.stopped (s : State) : Bool := s.fcu.safe.isSome

/-- Whether a tenant's request may issue on a table in the current beat (R23 to R25): its own beat; in open weave
also a beat that is unowned or left idle by its owner, in rotation. -/
def State.mayIssue (s : State) (t n : Nat) : Bool :=
  let b := s.beat
  if s.stopped ∨ b = Config.houseBeat ∨ (s.closedWeave ∧ lastIssue t < s.since % 200) then false
  else
    match s.beatOwner t b with
    | some o =>
      o == n || (!s.closedWeave && !(s.waitTenants t).contains o
        && rotation (mget? s.loom.last t) (n :: s.waitTenants t) == some n)
    | none =>
      s.hedKind t b == 1 && !s.closedWeave && rotation (mget? s.loom.last t) (n :: s.waitTenants t) == some n

/-- An older request of the tenant waits at the table; a later one does not pass it (R25). -/
def State.waitsAhead (s : State) (t n : Nat) : Bool :=
  s.loom.waiting.any (fun w => w.table == t && w.tenant == n && !w.issued && match w.what with
    | .write _ _ _ _ _ house => !house
    | _ => true)

/-- A tenant's new request issues on a table at once. -/
def State.issuesNow (s : State) (t n : Nat) : Bool := s.mayIssue t n && !s.waitsAhead t n

/-- A request set waiting for a beat. -/
def State.await (s : State) (w : Waiting) : State := { s with loom := { s.loom with waiting := s.loom.waiting ++ [w] } }

/-- A tenant has issued on a table in this beat: noted for LENT_BEATS and BORROWED_BEATS, and for the rotation. -/
def State.noteIssue (s : State) (t n : Nat) : State :=
  let l := mget s.loom.issued t []
  let last := if s.beatOwner t s.beat = some n then s.loom.last else mset s.loom.last t n
  { s with loom := { s.loom with issued := mput s.loom.issued t (if n ∈ l then l else n :: l) [], last := last } }

/-- The house or an unowned beat: when reserves and the journal ring write (R27, R155, R383). -/
def State.houseOrUnowned (s : State) (t : Nat) : Bool :=
  !s.stopped && (s.beat == Config.houseBeat || s.hedKind t s.beat == 1)

/-! ### The ledger (R33, R34) -/

def led.CORD_BEATS : Nat := 0
def led.RETIRED : Nat := 1
def led.MEM_BEATS : Nat := 2
def led.MEM_BYTES : Nat := 3
def led.WARP_BEATS : Nat := 4
def led.WARP_BYTES : Nat := 5
def led.DMA_BEATS : Nat := 6
def led.DMA_IN_BYTES : Nat := 7
def led.DMA_OUT_BYTES : Nat := 8
def led.CIP_BEATS : Nat := 9
def led.CIP_BYTES : Nat := 10
def led.CMP_BEATS : Nat := 11
def led.CMP_IN_BYTES : Nat := 12
def led.OPS_DONE : Nat := 13
def led.LENT_BEATS : Nat := 14
def led.BORROWED_BEATS : Nat := 15

/-- A counter of a table of counters, modulo 2^64. -/
def addCount (m : SMap Nat) (t i n : Nat) : SMap Nat := mupd m (t * 16 + i) 0 (fun x => (x + n) % 2 ^ 64)

/-- A block's count of the current pick, charged to the house in the house beat (R33). -/
def State.account (s : State) (t i n : Nat) : State :=
  let t := if s.beat = Config.houseBeat then 0 else t
  { s with loom := { s.loom with acc := addCount s.loom.acc t i n } }

/-! ### Warp links (R24, R34, R312) -/

/-- The link that carries the messages of a line to a module: by the line's number among the links that are UP (R312). -/
def linkFor (s : State) (m line : Nat) : Option Nat :=
  let ls := s.spl.upLinks.filter (fun l => mget? s.spl.peers l == some m)
  ls[line % 64 % ls.length]?

/-- The tenant of a message in the ledger, and the bytes of data it carries. -/
def Msg.dataBytes : Msg → Nat
  | .data _ _ v _ _ _ => 64 * popCount v.toNat 4
  | .remoteWrite _ _ _ m _ _ => popCount m.toNat 256
  | .req (.wrLine _ _) _ => 256
  | .req (.wrPart m _ _) _ => popCount m.toNat 256
  | _ => 0

/-- A message leaves on a link for a tenant: WARP_BYTES counts its bytes, whose number for a message no rule gives (R34; log 39). -/
def State.sendOn (s : State) (tenant : Nat) (m : Msg) : State :=
  (s.send m).account tenant led.WARP_BYTES (Config.warpBytes m.dataBytes)

/-- A REQ, SNP or WB message to another module: it leaves when its tenant may send on the link, and waits for a beat otherwise
(R24). -/
def State.sendFar (s : State) (mid line tenant : Nat) (m : Msg) : State :=
  match linkFor s mid line with
  | none => s.send m
  | some l =>
    if s.issuesNow (table.link l) tenant then (s.noteIssue (table.link l) tenant).sendOn tenant m
    else s.await { table := table.link l, tenant := tenant, line := line, issued := false, what := .link m }

/-- A message of class RSP or DAT to an agent: to another module it travels in the response lane and waits for no beat (R24, R167). -/
def State.answerTo (s : State) (agent tenant : Nat) (m : Msg) : State :=
  if 64 ≤ agent then s.sendOn tenant m else s.send m

/-- A snoop or request to an agent: the proxy of another module is reached over its link. -/
def State.sendTo (s : State) (agent line tenant : Nat) (m : Msg) : State :=
  if 64 ≤ agent then s.sendFar (agent - 64) line tenant m else s.send m

/-! ### Record journal staging (R381 to R385) -/

def rplType.START : Nat := 1
def rplType.COMPLETION : Nat := 2
def rplType.INDATA : Nat := 3
def rplType.EVENT : Nat := 4
def rplType.VALUE : Nat := 5
def rplType.SLIP : Nat := 6
def rplType.FAULT : Nat := 7
def rplType.TABLE : Nat := 8
def rplType.LENDING : Nat := 9
def rplType.ASSIGN : Nat := 10
def rplType.RECOVERY : Nat := 11
def rplType.DIGEST : Nat := 12
def rplType.GAP : Nat := 13
def rplType.STOP : Nat := 14

def State.recording (s : State) : Bool := s.get RPL_STAT.STATE == 2

/-- A cord of the recorded set (R380). -/
def State.recorded (s : State) (c : Nat) : Bool := s.rpl.cords.contains c

/-- A tenant in the scope of the recording (R380). -/
def State.scopeTenant (s : State) (t : Nat) : Bool :=
  if s.flag RPL_CFG.SCOPE then t == s.get RPL_CFG.TENANT && t ≠ 0 else t ≠ 0

/-- In REPLAY (R390). -/
def State.replaying (s : State) : Bool := s.get RPL_STAT.STATE == 3

/-- Fields of a record's header (R385). -/
def jr.word (r : List Word) (i : Nat) : Nat := (r.getD i 0).toNat
def jr.typ (r : List Word) : Nat := bits (jr.word r 0) 0 8
def jr.cord (r : List Word) : Nat := bits (jr.word r 0) 8 7
def jr.units (r : List Word) : Nat := bits (jr.word r 0) 16 16
def jr.rclk (r : List Word) : Nat := bits (jr.word r 0) 32 14
def jr.tenant (r : List Word) : Nat := bits (jr.word r 0) 46 10
def jr.pick (r : List Word) : Nat := bits (jr.word r 1) 0 48
def jr.retire (r : List Word) : Nat := jr.word r 2
def jr.value (r : List Word) : Nat := jr.word r 3
def jr.body (r : List Word) (i : Nat) : Nat := jr.word r (4 + i)

/-- A journaled input of a cord at its present retire count taken from the journal; none when the journal holds none. -/
def takeJournal (s : State) (typ c : Nat) : Option (State × List Word) :=
  match s.rpl.journal.find? (fun r => jr.typ r == typ && jr.cord r == c) with
  | some r =>
    if jr.retire r = (s.cord c).retire.toNat then
      some ({ s with rpl := { s.rpl with journal := s.rpl.journal.erase r } }, r)
    else none
  | none => none

/-- The header and body of a record (R385); the body is padded to whole units of four words. -/
def rplWords (typ cord units rclk tenant pick retire value : Nat) (body : List Word) : List Word :=
  [BitVec.ofNat 64 (typ + cord * 2 ^ 8 + units * 2 ^ 16 + rclk * 2 ^ 32 + tenant * 2 ^ 46), BitVec.ofNat 64 pick,
    BitVec.ofNat 64 retire, BitVec.ofNat 64 value] ++ body ++ List.replicate (units * 4 - body.length) 0

/-- Bytes staged. -/
def stagedBytes (s : State) : Nat := s.rpl.staged.foldl (fun n r => n + r.length * 8) 0

/-- One record put into the 256 KiB staging buffer, or counted for a GAP (R383, R384). -/
def stageRaw (s : State) (typ cord tenant rclk pick retire value : Nat) (body : List Word) : State :=
  let units := (body.length + 3) / 4
  let gap := rplWords rplType.GAP 0x7F 0 rclk 0 pick 0 s.rpl.lost []
  let new := rplWords typ cord units rclk tenant pick retire value body
  let add := if s.rpl.lost = 0 then [new] else [gap, new]
  if stagedBytes s + (add.map (fun r => r.length * 8)).sum ≤ 262144 then
    { s with rpl := { s.rpl with staged := s.rpl.staged ++ add, lost := 0 } }
  else { s with rpl := { s.rpl with lost := s.rpl.lost + 1 } }

/-- A recorded input staged now, when a recording runs (R381). -/
def stage (s : State) (typ cord tenant retire value : Nat) (body : List Word) : State :=
  if s.recording then stageRaw s typ cord tenant s.since s.pick retire value body else s

/-- An input of a recorded cord. -/
def stageCord (s : State) (typ c value : Nat) (body : List Word) : State :=
  if s.recorded c then stage s typ c (s.tenantOf c) (s.cord c).retire.toNat value body else s

/-! ### Event queues (R97 to R99, R225) -/

def evqKey (tenant cord : Nat) : Nat := tenant * 128 + cord

def State.evq (s : State) (tenant cord : Nat) : Evq := mget s.chs.evqs (evqKey tenant cord) Evq.empty

def State.setEvq (s : State) (tenant cord : Nat) (q : Evq) : State :=
  { s with chs := { s.chs with evqs := mput s.chs.evqs (evqKey tenant cord) q Evq.empty } }

/-- CHS_EVQ_c.USED: the records queued on a cord number, all tenants. -/
def evqUsed (s : State) (cord : Nat) : Nat :=
  s.chs.evqs.foldl (fun n e => if e.1 % 128 = cord then n + e.2.recs.length else n) 0

def evqUpdateUsed (s : State) (cord : Nat) : State := s.put (CHS_EVQ.USED cord) (evqUsed s cord)

/-- An event descriptor (R98). -/
def evDesc (typ source status : Nat) : Word :=
  BitVec.ofNat 64 (typ + source % 2 ^ 16 * 2 ^ 32 + status % 256 * 2 ^ 48 + 2 ^ 63)

def ev.CHANNEL : Nat := 1
def ev.ENGINE : Nat := 2
def ev.SIGNAL : Nat := 3
def ev.BOUNCE : Nat := 4
def ev.OVERFLOW : Nat := 5

/-- When space has returned, one OVERFLOW record is written before any later one (R99). -/
def evqOverflow (s : State) (tenant cord : Nat) : State :=
  let q := s.evq tenant cord
  if q.lost ≠ 0 ∧ evqUsed s cord < s.get (CHS_EVQ.QUOTA cord) then
    evqUpdateUsed (s.setEvq tenant cord
      { recs := q.recs ++ [(BitVec.ofNat 64 q.lost, evDesc ev.OVERFLOW 0 0)], lost := 0 }) cord
  else s

/-- A record queued for a tenant on a cord number, or discarded and counted when the queue is full (R99). -/
def evqQueue (s : State) (tenant cord : Nat) (value desc : Word) : State :=
  let s := evqOverflow s tenant cord
  let q := s.evq tenant cord
  if evqUsed s cord < s.get (CHS_EVQ.QUOTA cord) then
    evqUpdateUsed (s.setEvq tenant cord { q with recs := q.recs ++ [(value, desc)] }) cord
  else s.setEvq tenant cord { q with lost := q.lost + 1 }

/-- A record sent to a cord by a sender, recorded as EVENT when the receiver is recorded and the sender is not
(R381). In REPLAY such a record comes from the journal (R390). -/
def evqSend (s : State) (tenant cord : Nat) (value desc : Word) (sender : Option Nat) : State :=
  let outside : Bool := match sender with
    | some x => !s.recorded x
    | none => true
  if outside ∧ s.replaying ∧ s.recorded cord then s
  else
    let s := if outside ∧ s.recorded cord then
        stage s rplType.EVENT cord tenant (s.cord cord).retire.toNat value.toNat [desc]
      else s
    evqQueue s tenant cord value desc

/-- A notice of a tenant's own operation or engine job: a recorded tenant's is no input, as its COMPLETION or its job brings it in
a replay too (R381; log 47). -/
def evqNotice (s : State) (tenant cord : Nat) (value desc : Word) : State :=
  if s.scopeTenant tenant then evqQueue s tenant cord value desc else evqSend s tenant cord value desc none

/-! ### The address map (R5, R180, R181, R311, R331) -/

/-- Where a module-physical address leads. -/
inductive Place where
  | mem (home : Nat)
  | mmio
  | window (off : Nat)
  | remote (mid : Nat)
  | farMmio (mid : Nat)
  | farWindow (mid off : Nat)
  | dead (mid : Nat)
  | hole
  deriving DecidableEq, Repr

/-- The DDR and CXL ranges of this module. The memory of a port whose pads are latched is not usable (R358; log 26). -/
def memHome (s : State) (low : Nat) : Option Nat :=
  if low < 0x100000000000 then
    let k := s.kBytes
    if k = 0 then none
    else
      let g := low / (2 * k)
      if g < 8 ∧ !s.flag (MEM_FILLSTAT.UNUSED (2 * g)) then some (2 * g + (low - 2 * k * g) / 256 % 2) else none
  else if low < 0x400000000000 then
    let p := (low - 0x100000000000) / 0x30000000000
    if p < 16 ∧ s.cxlMode p ∧ (low - 0x100000000000) % 0x30000000000 < s.hdmSize p ∧ !s.flag (MEM_FILLSTAT.UNUSED (16 + p))
      ∧ !s.flag (PWR_DOM.PADLATCH (228 + p))
    then some (16 + p)
    else none
  else none

/-- Region r of controller h holds the address (R182). -/
def inRegion (s : State) (h r low : Nat) : Bool :=
  s.flag (MEM_RGN_LO.EN h r) && s.get (MEM_RGN_LO.BASE h r) ≤ low / 0x200000
    && low / 0x200000 ≤ s.get (MEM_RGN_HI.LIMIT h r)

/-- The region of an address: the lowest-numbered one. -/
def regionOf (s : State) (h low : Nat) : Option Nat := (List.range 64).find? (fun r => inRegion s h r low)

/-- The owner of an address, 0x000 outside every region (R182). -/
def ownerOf (s : State) (h low : Nat) : Nat :=
  match regionOf s h low with
  | some r => s.get (MEM_RGN_LO.OWNER h r)
  | none => 0

/-- The address lies in an enabled SHARED region (R193). -/
def isShared (s : State) (h low : Nat) : Bool :=
  match regionOf s h low with
  | some r => s.flag (MEM_RGN_LO.SHARED h r)
  | none => false

/-- An address in a SHARED region that was left unfilled (R193). -/
def isUnfilled (s : State) (h low : Nat) : Bool :=
  match regionOf s h low with
  | some r => (s.ctl h).unfilled.contains r
  | none => false

/-- Where an address of this module leads. -/
def placeLow (s : State) (low : Nat) : Place :=
  match memHome s low with
  | some h => if isUnfilled s h low then .hole else .mem h
  | none =>
    if 0xF00000000000 ≤ low ∧ low < 0xFF0000000000 then .mmio
    else if 0xFF0000000000 ≤ low ∧ low < 0xFF0100000000 then
      (if inBlockSpan (low - 0xFF0000000000) then .window (low - 0xFF0000000000) else .hole)
    else .hole

/-- The module that serves the addresses of a MID: the twin that has taken it over, or that module (R331). -/
def servedBy (s : State) (m : Nat) : Nat := mget s.spl.routes m m

/-- Where an address of another member leads, by the four ranges (R5): its memory, its MMIO, its control window. What that module
has installed is for its homes to say. -/
def placeFar (m low : Nat) : Place :=
  if low < 0x400000000000 then .remote m
  else if 0xF00000000000 ≤ low ∧ low < 0xFF0000000000 then .farMmio m
  else if 0xFF0000000000 ≤ low ∧ low < 0xFF0100000000 then
    (if inBlockSpan (low - 0xFF0000000000) then .farWindow m (low - 0xFF0000000000) else .hole)
  else .hole

/-- Where a module-physical address leads (R5, R311, R331, R335, R336). -/
def placeOf (s : State) (pa : Nat) : Place :=
  if 2 ^ 52 ≤ pa then .hole
  else
    let m := pa / 2 ^ 48
    let low := pa % 2 ^ 48
    if m = s.mid then placeLow s low
    else if s.flag SPL_BOLT.ALIASV ∧ m = s.get SPL_BOLT.ALIAS then
      match memHome s low with
      | some h => if isShared s h low then placeLow s low else .hole
      | none => .hole
    else if s.role = 0 then .hole
    else if bitAt (s.get SPL_BOLT.DEAD) m || bitAt (s.get SPL_BOLT.DEAD) (servedBy s m) then .dead m
    else if bitAt (s.get SPL_BOLT.STANDBYS) m then .hole
    else if bitAt (s.get SPL_BOLT.MEMBERS) m then placeFar (servedBy s m) low
    else .hole

/-- The attribute of a module-physical address (R122). -/
def placeAttr (p : Place) : Attr :=
  match p with
  | .mmio => .device
  | .window _ => .device
  | .farMmio _ => .device
  | .farWindow _ _ => .device
  | _ => .cached

/-- The selvedge check of a request of tenant n at home h (R183, R186). -/
def selvedgeOk (s : State) (h low n : Nat) : Bool :=
  let m := ownerOf s h low
  (n == m || n == 0) && (!s.encOn h || (mget s.keys m KeySlot.empty).state ≠ 0)

/-- A refused request is counted (MEM_SELV). -/
def selvedgeFail (s : State) (h n : Nat) : State := (s.bump (MEM_SELV.COUNT h) 1).put (MEM_SELV.LASTTEN h) n

/-- Where an access of a tenant leads once the selvedge has been checked; a refusal is a hole (R183). -/
def placeFor (s : State) (pa n : Nat) : Place :=
  match placeOf s pa with
  | .mem h => if selvedgeOk s h (pa % 2 ^ 48) n then .mem h else .hole
  | p => p

/-- The count of a refused access, when that is why it fails. -/
def countRefusal (s : State) (pa n : Nat) : State :=
  match placeOf s pa with
  | .mem h => if selvedgeOk s h (pa % 2 ^ 48) n then s else selvedgeFail s h n
  | _ => s

end Sys2Proof.Machine
end

