-- ==== Sys2Proof/Machine/Mem.lean ====
section
/-! DEFINITION. Memory behind the homes: bytes, sectors, the code word, poison, keys, the merge buffer, the warp cache
(R154, R184 to R190, R195, R199, R200). Addresses here are the low 48 bits of a module-physical address. -/

namespace Sys2Proof.Machine

/-! ### Bytes

An unlisted address reads as zero: Fill writes zero everywhere before a cord runs (R192; log 6). -/

/-- What an unlisted byte reads as. -/
def memDefault : Byte := 0

def Mem.byte (m : Mem) (a : Nat) : Byte := mget m.cells a memDefault

/-- The canonical form of the byte list. -/
def Mem.wf (m : Mem) : Bool := mwf m.cells memDefault

def Mem.setByte (m : Mem) (a : Nat) (b : Byte) : Mem := { m with cells := mput m.cells a b memDefault }

/-- n bytes from an address, lowest first. -/
def Mem.read (m : Mem) (a : Nat) : Nat → Nat
  | 0 => 0
  | n + 1 => (m.byte a).toNat + 256 * m.read (a + 1) n

/-- n bytes written from an address. -/
def Mem.write (m : Mem) (a v : Nat) : Nat → Mem
  | 0 => m
  | n + 1 => (m.setByte a (BitVec.ofNat 8 v)).write (a + 1) (v / 256) n

/-! ### Byte masks -/

/-- The bits of a value whose byte is in the mask; n bytes. -/
def maskBits (mask : Nat) : Nat → Nat
  | 0 => 0
  | n + 1 => (if mask % 2 = 1 then 255 else 0) + 256 * maskBits (mask / 2) n

/-- Bytes of `new` where the mask is set, of `old` elsewhere; n bytes. -/
def mergeBytes (old new mask : Nat) : Nat → Nat
  | 0 => 0
  | n + 1 => (if mask % 2 = 1 then new % 256 else old % 256) + 256 * mergeBytes (old / 256) (new / 256) (mask / 2) n

/-- A line with the masked bytes replaced. -/
def mergeLine (old new : LineData) (mask : LineMask) : LineData :=
  BitVec.ofNat 2048 (mergeBytes old.toNat new.toNat mask.toNat 256)

/-- The mask of n bytes from offset o of a line. -/
def spanMask (o n : Nat) : LineMask := BitVec.ofNat 256 ((2 ^ n - 1) * 2 ^ o)

/-- A value placed at offset o of a line. -/
def spanBytes (o v : Nat) : LineData := BitVec.ofNat 2048 (v * 256 ^ o)

/-- n bytes from offset o of a line. -/
def lineBytes (d : LineData) (o n : Nat) : Nat := d.toNat / 256 ^ o % 256 ^ n

/-- Sector i of a line. -/
def lineSector (d : LineData) (i : Nat) : Nat := d.toNat / 2 ^ (512 * i) % 2 ^ 512

/-- The CRC-32C beside sector i of a line in a DATA message and in every buffer of the module (R165, R203). It is a function of
the sector's bytes, so no second copy of it is held: DEDUCED, log 46, which also says how an old check that fails enters (R202). -/
def sectorCrc (d : LineData) (i : Nat) : Nat := crc32c (bytesOf (lineSector d i) 64)

/-- The checks that a DATA message carries: one for each sector that its mask names (R165). -/
def sectorCrcs (valid : BitVec 4) (d : LineData) : List (Option Nat) :=
  (List.range 4).map fun i => if bitAt valid.toNat i then some (sectorCrc d i) else none

/-- The mask bits of sector i. -/
def maskSector (m : LineMask) (i : Nat) : Nat := m.toNat / 2 ^ (64 * i) % 2 ^ 64

/-- A line mask of whole sectors. -/
def sectorMask (v : BitVec 4) : LineMask :=
  BitVec.ofNat 256 ((List.range 4).foldl (fun n i => if bitAt v.toNat i then n + (2 ^ 64 - 1) * 2 ^ (64 * i) else n) 0)

/-- The sectors that a byte mask touches. -/
def touched (m : LineMask) : BitVec 4 :=
  BitVec.ofNat 4 ((List.range 4).foldl (fun n i => if maskSector m i ≠ 0 then n + 2 ^ i else n) 0)

/-- The sectors that a byte mask covers wholly. -/
def covered (m : LineMask) : BitVec 4 :=
  BitVec.ofNat 4 ((List.range 4).foldl (fun n i => if maskSector m i = 2 ^ 64 - 1 then n + 2 ^ i else n) 0)

/-! ### The code word (R189, R190) -/

/-- The error masks of the 80 symbols of a stored sector, and whether it is stored with its check bytes inverted. -/
def errMask (errs : List (Nat × Nat)) (sym : Nat) : Nat :=
  errs.foldl (fun x e => if e.1 = sym then x ^^^ e.2 else x) 0

/-- The symbols in error, with inverted check bytes counted when `inv`. -/
def wrongSymbols (errs : List (Nat × Nat)) (inv : Bool) : List Nat :=
  (List.range 80).filter (fun y => (errMask errs y ^^^ (if inv ∧ 64 ≤ y then 255 else 0)) ≠ 0)

/-- Steps 1 and 2 of R190 on the symbols in error: none when they do not decode, otherwise the device corrected, if
any. Device d holds symbols 8d to 8d + 7. -/
def decodeStep (marked : Option Nat) (wrong : List Nat) : Option (Option Nat) :=
  match wrong with
  | [] => some none
  | y :: _ =>
    match marked with
    | some d =>
      let others := wrong.filter (fun z => z / 8 ≠ d)
      if others.length ≤ 1 then some (some ((others.map (· / 8)).headD d)) else none
    | none => if wrong.all (fun z => z / 8 == y / 8) then some (some (y / 8)) else none

/-- What the decoder finds (R190). -/
inductive Found where
  | clean
  | corrected (dev : Nat) (erased : Bool)
  | poisoned
  | uncorrectable
  deriving DecidableEq, Repr

def decodeWord (marked : Option Nat) (errs : List (Nat × Nat)) (inv : Bool) : Found :=
  match decodeStep marked (wrongSymbols errs inv) with
  | some none => .clean
  | some (some d) => .corrected d marked.isSome
  | none =>
    match decodeStep marked (wrongSymbols errs (!inv)) with
    | some _ => .poisoned
    | none => .uncorrectable

/-- The channel address (DDR, R180) or the device-physical address (CXL, R181) of a low address. -/
def channelAddr (s : State) (h low : Nat) : Nat :=
  if h < 16 then
    let o := low % (2 * s.kBytes)
    o / 512 * 256 + o % 256
  else s.hdmBase (h - 16) + (low - 0x100000000000) % 0x30000000000

/-- The rank of a sector (R191; log 13). -/
def rankOf (s : State) (h sec : Nat) : Nat := Config.rankOf h (channelAddr s h (sec * 64) / 64) % max 1 s.ranks

/-- The subchannel of a sector: 0 for sectors 0 and 2, 1 for sectors 1 and 3 (R180). -/
def subchOf (sec : Nat) : Nat := sec % 2

/-- The device marked for a sector, if any (R191). -/
def markOf (s : State) (h sec : Nat) : Option Nat :=
  let d := bits (s.rd (MEM_MARK.off h (rankOf s h sec))) (4 * subchOf sec) 4
  if d < 10 then some d else none

/-- What a read of a stored sector finds. -/
def sectorFound (s : State) (h sec : Nat) : Found :=
  decodeWord (markOf s h sec) (mget s.mem.errs sec []) (mget s.mem.poison sec false)

/-- The version of the key a sector is written under; 0 in the clear (R184). -/
def keyVersion (s : State) (h sec : Nat) : Nat :=
  if s.encOn h then (mget s.keys (ownerOf s h (sec * 64)) KeySlot.empty).ver else 0

/-- 64 bytes of free values, eight words from the n-th on (R187). -/
def freeSector (n : Nat) : Nat :=
  (List.range 8).foldl (fun x i => x + (Config.freeWord (n + i)).toNat * 2 ^ (64 * i)) 0

/-- The plaintext of a stored sector: zero under every key when it is zero (R185); data written under another key reads
as a free value (R187). -/
def sectorPlain (s : State) (h sec : Nat) : Nat × State :=
  let d := s.mem.read (sec * 64) 64
  if d = 0 ∨ mget s.mem.keyVer sec 0 = keyVersion s h sec then (d, s)
  else (freeSector s.free, { s with free := s.free + 8 })

/-- The flip masks as symbol errors (R199). -/
def flipErrs (s : State) (h : Nat) : List (Nat × Nat) :=
  let d := s.get (MEM_FLIPC.DGRP h)
  let c := s.get (MEM_FLIPC.CGRP h)
  ((List.range 8).map (fun i => (8 * d + i, bits (s.get (MEM_FLIPD.MASK h)) (8 * i) 8))
    ++ (List.range 4).map (fun i => (64 + 4 * c + i, bits (s.get (MEM_FLIPC.CMASK h)) (8 * i) 8))).filter (fun e => e.2 ≠ 0)

/-- A sector's open merge entry goes: a write of the whole sector overwrites every byte it holds. -/
def dropMerge (s : State) (h sec : Nat) : State :=
  if (s.ctl h).merge.any (fun e => e.sector == sec) then
    s.modCtl h (fun c => { c with merge := c.merge.filter (fun e => e.sector ≠ sec) })
  else s

/-- A whole sector stored with fresh check symbols; the flip masks apply to a host-owned write while ARM is 1, unless
it is Fill's or the scrub's (R199). -/
def writeSector (s : State) (h sec data : Nat) (poison scrub : Bool) : State :=
  let flip := !scrub && s.flag (MEM_FLIPC.ARM h) && ownerOf s h (sec * 64) == 0
  let errs := if flip then flipErrs s h else []
  let ver := if data = 0 then 0 else keyVersion s h sec
  let s := dropMerge s h sec
  let m := s.mem.write (sec * 64) data 64
  let s := { s with mem := { m with
    poison := mput m.poison sec poison false
    seen := mput m.seen sec false false
    errs := mput m.errs sec errs []
    keyVer := mput m.keyVer sec ver 0 } }
  if flip then (s.putFlag (MEM_FLIPC.ARM h) false).putFlag (MEM_FLIPC.FIRED h) true else s

/-! ### Writes at the device (R24, R25, R155, R177)

A write that a controller has taken waits in `loom.waiting` until its tenant may issue; a read of its line finds it there. -/

/-- The line's number within the module, the key of memory and of the warp cache. -/
def lowLine (line : Nat) : Nat := line % 2 ^ 40

/-- What a later write makes of an older one that waits: the bytes written since are no longer its own. -/
def Waiting.superseded (w : Waiting) (low : Nat) (mask : LineMask) : Waiting :=
  match w.what with
  | .write h m b p slot house => if w.line = low then { w with what := .write h (m &&& ~~~mask) b p slot house } else w
  | _ => w

def supersede (s : State) (low : Nat) (mask : LineMask) : State :=
  { s with loom := { s.loom with waiting := s.loom.waiting.map (·.superseded low mask) } }

/-- A line and its poison with the writes that wait for it over them, oldest first. -/
def overWaiting (s : State) (low : Nat) (d : LineData) (p : BitVec 4) : LineData × BitVec 4 :=
  s.loom.waiting.foldl (fun x w => match w.what with
    | .write _ m b q _ _ =>
      if w.line = low then (mergeLine x.1 b m, (x.2 &&& ~~~covered m) ||| (q &&& touched m)) else x
    | _ => x) (d, p)

/-- The device write of a tenant may be made now: its own beat or a borrowed one, for the host's victims and the flush reserve a
house or unowned beat (R25, R155). -/
def writesNow (s : State) (h tenant : Nat) (house : Bool) : Bool :=
  if house then s.houseOrUnowned (table.mem h) else s.issuesNow (table.mem h) tenant

/-- Whole sectors of a line written to the device. -/
def storeSectors (s : State) (h low : Nat) (sel : BitVec 4) (bytes : LineData) (poison : BitVec 4) (tenant : Nat) : State :=
  (List.range 4).foldl (fun s i =>
    if bitAt sel.toNat i then
      writeSector (s.account tenant led.MEM_BYTES 64) h (low * 4 + i) (lineSector bytes i) (bitAt poison.toNat i) false
    else s) (supersede s low (sectorMask sel))

/-- Whole sectors handed to the controller: written when their tenant may issue, else set waiting in their slot. -/
def deviceSectors (s : State) (h low : Nat) (sel : BitVec 4) (bytes : LineData) (poison : BitVec 4) (tenant : Nat)
    (slot : WbSlot) (house : Bool) : State :=
  if sel = 0 then s
  else if writesNow s h tenant house then
    storeSectors (if house then s else s.noteIssue (table.mem h) tenant) h low sel bytes poison tenant
  else
    s.await { table := table.mem h, tenant := tenant, line := low, issued := false
              what := .write h (sectorMask sel) bytes poison slot house }

/-! ### The warp cache (R150, R154, R155) -/

/-- The slice before a home answers lookups: its domain is ON (R341). -/
def sliceOn (s : State) (h : Nat) : Bool := s.domOn (dom.slice (sliceOf h))

/-- The ways in which a miss of a tenant may allocate (R154). -/
def tenantWays (s : State) (h n : Nat) : List Nat :=
  (List.range Config.reserveWay).filter (fun w => !s.closedWeave || bitAt (s.get (COH_WCWAYS.WAYS (4 * sliceOf h) n)) w)

/-- Whether a miss of a tenant allocates (R154). -/
def allocates (s : State) (h n : Nat) : Bool := sliceOn s h && !(tenantWays s h n).isEmpty

def warpLine (s : State) (h line : Nat) : Option WLine := if sliceOn s h then mget? s.warp line else none

/-- The home of a line of this module, by its number within the module. -/
def homeOfLow (s : State) (low : Nat) : Option Nat := memHome s (low * 256)

/-- Lines of a slice's ways 0 to 27 that share a line's set: the one its number names (DESIGN CHOICE, log 18). -/
def warpMates (s : State) (h low : Nat) : List (Nat × WLine) :=
  s.warp.filter (fun e => decide (e.2.way < Config.reserveWay) && e.1 % Config.warpSets == low % Config.warpSets && e.1 != low
    && match homeOfLow s e.1 with
      | some x => sliceOf x == sliceOf h
      | none => false)

/-- Victim entries of a slice in use (R177). -/
def victimsHeld (s : State) (k : Nat) : Nat :=
  (s.loom.waiting.filter (fun w => match w.what with
    | .write h _ _ _ .victim _ => sliceOf h == k
    | _ => false)).length

/-- A dirty victim of a slice leaves it for its controller; the host's only in house and unowned beats (R155). -/
def warpVictim (s : State) (low : Nat) (w : WLine) : State :=
  let s := { s with warp := mdel s.warp low }
  match homeOfLow s low with
  | some h => deviceSectors s h low w.dirty w.bytes w.poison w.tenant .victim (w.tenant == 0)
  | none => s

/-- A way for a line of a tenant: a free one, the lowest, else that of a victim drawn from the tenant's ways of the set; none
when the tenant has no way there, or no victim entry is free for a dirty victim (R154, R155; log 18). -/
def warpRoom (s : State) (h low n : Nat) : State × Option Nat :=
  let ws := tenantWays s h n
  let mates := warpMates s h low
  if !sliceOn s h then (s, none)
  else
    match ws.find? (fun w => !mates.any (fun e => e.2.way == w)) with
    | some w => (s, some w)
    | none =>
      let vs := mates.filter (fun e => ws.contains e.2.way)
      match vs[s.freeVal.toNat % vs.length]? with
      | none => (s, none)
      | some (l, w) =>
        if w.dirty ≠ 0 ∧ Config.victimEntries ≤ victimsHeld s (sliceOf h) then (s, none)
        else (warpVictim s.drew l w, some w.way)

/-- Dirty sectors of a warp-cache line written to the controller, the line then clean; a line of the flush reserve leaves it. -/
def warpWriteback (s : State) (h line : Nat) : State :=
  match mget? s.warp line with
  | none => s
  | some w =>
    let s := storeSectors s h line w.dirty w.bytes w.poison w.tenant
    if Config.reserveWay ≤ w.way then { s with warp := mdel s.warp line }
    else { s with warp := mset s.warp line { w with dirty := 0 } }

/-- SHARED regions of an active spliced module: no dirty data above the home (R321). -/
def throughShared (s : State) (h low : Nat) : Bool := s.get SPL_STAT.STATE == 1 && isShared s h low

/-! ### Writes at a home -/

/-- The merge buffer's entry of a sector (R195). -/
def mergeEntry (s : State) (h sec : Nat) : Option MergeEnt := (s.ctl h).merge.find? (fun e => e.sector == sec)

/-- A poisoned or clean sector of the current line, for the bits of a partial write. -/
def sectorPoison (s : State) (sec : Nat) : Bool := mget s.mem.poison sec false

/-- The undo ring has room for one more record of 320 bytes (R322, R324). -/
def undoRoom (s : State) : Bool :=
  (s.spl.undo.length + 1) * 320 ≤ s.get SPL_CKPT.SIZE * 0x200000 - 0x3000000

/-- The first address of the checkpoint region within this module (SPL_CKPT.BASE, whose high bits name the module). -/
def ckptLow (s : State) : Nat := s.get SPL_CKPT.BASE % 2 ^ 27 * 0x200000

/-- The address lies in the checkpoint region (R324). -/
def inCheckpoint (s : State) (low : Nat) : Bool :=
  s.flag SPL_CKPT.EN && ckptLow s ≤ low && low < ckptLow s + s.get SPL_CKPT.SIZE * 0x200000

/-- Whether a write to the line needs an undo record first: the first write of the epoch to a SHARED line outside the
checkpoint region, on an active spliced module (R322). -/
def needsUndo (s : State) (h line : Nat) : Bool :=
  throughShared s h (line * 256) && s.flag SPL_CKPT.EN && !inCheckpoint s (line * 256)
    && !s.spl.undo.any (fun u => u.line == line && u.epoch == s.spl.epochNow)

/-- The line as its controller would read it: what is stored, the bytes of merge entries, and the writes that wait. -/
def lineNow (s : State) (h line : Nat) : LineData × BitVec 4 :=
  let stored : LineData × BitVec 4 :=
    (BitVec.ofNat 2048 (s.mem.read (line * 256) 256),
      BitVec.ofNat 4 ((List.range 4).foldl (fun n i => if sectorPoison s (line * 4 + i) then n + 2 ^ i else n) 0))
  let merged := (s.ctl h).merge.foldl (fun (x : LineData × BitVec 4) e =>
    if e.sector / 4 = line then
      let i := e.sector % 4
      (mergeLine x.1 (BitVec.ofNat 2048 (e.bytes.toNat * 2 ^ (512 * i))) (BitVec.ofNat 256 (e.mask.toNat * 2 ^ (64 * i))),
        if e.poison then x.2 ||| BitVec.ofNat 4 (2 ^ i) else x.2)
    else x) stored
  overWaiting s line merged.1 merged.2

/-- The undo record of a line, taken from the device (R322). -/
def undoRecord (s : State) (h line : Nat) : State :=
  if needsUndo s h line then
    let now := lineNow s h line
    { s with spl := { s.spl with undo := s.spl.undo ++
      [{ epoch := s.spl.epochNow, line := line, bytes := now.1, poison := now.2 }] } }
  else s

/-- A write must wait for undo room (R322). -/
def undoBlocks (s : State) (h line : Nat) : Bool := needsUndo s h line && !undoRoom s

end Sys2Proof.Machine
end

