-- ==== Sys2Proof/Machine/Cord.lean ====
section
/-! DEFINITION. A cord by itself: the operand stack and its cache (R65 to R70), the store buffer (R130), slips (R147)
and the cord context slot (R73, R74). -/

namespace Sys2Proof.Machine

/-! ### Stacks -/

/-- What a cord does once the instruction at hand is over: it runs, or stands stopped under its debugger (R62). -/
def Core.goes (k : Core) : Run := if k.dbg then .debug else .running

def Core.stkOf (k : Core) : Level → LvlStk
  | .U => k.stkU
  | .S => k.stkS
  | .H => k.stkH

def Core.setStkOf (k : Core) (l : Level) (x : LvlStk) : Core :=
  match l with
  | .U => { k with stkU := x }
  | .S => { k with stkS := x }
  | .H => { k with stkH := x }

/-- SP of the current level. -/
def Core.sp (k : Core) : Nat := (k.stkOf k.lvl).sp.toNat

def Core.setSp (k : Core) (v : Nat) : Core := k.setStkOf k.lvl { k.stkOf k.lvl with sp := BitVec.ofNat 64 v }

/-- Depth of a level's stack, exact (R65, R66). -/
def Core.depthOf (k : Core) (l : Level) : Int := (((k.stkOf l).sb.toNat : Int) - ((k.stkOf l).sp.toNat : Int)) / 8

def Core.depth (k : Core) : Int := k.depthOf k.lvl

/-- The checks of R66 for p pops and q pushes on a level's stack. -/
def Core.stackOk (k : Core) (l : Level) (p q : Nat) : Bool :=
  decide ((p : Int) ≤ k.depthOf l)
    && decide (((k.stkOf l).sl.toNat : Int) ≤ ((k.stkOf l).sp.toNat : Int) + 8 * (p : Int) - 8 * (q : Int))

/-! ### The store buffer (R130) -/

/-- The attribute of a module-physical address by its range (R122). -/
def addrAttr (pa : Nat) : Attr := if 0xF00000000000 ≤ pa % 2 ^ 48 then .device else .cached

/-- Bytes [a, a + n) and [b, b + m) overlap. -/
def overlaps (a n b m : Nat) : Bool := a < b + m && b < a + n

/-- The reservation lies on the bytes. -/
def Resv.covers (r : Resv) (pa n : Nat) : Bool := overlaps r.base r.size pa n

/-- The reservation, cleared by a write of the cord itself to its granule (R134). -/
def Core.clearResv (k : Core) (pa n : Nat) : Core :=
  match k.resv with
  | some r => if r.covers pa n then { k with resv := none } else k
  | none => k

/-- A store may join the entry (R130): same line, normal memory, not drained, no barrier between. -/
def SbEnt.joins (e : SbEnt) (st : StoreReq) (knot : Bool) : Bool :=
  e.line == st.pa / 256 && e.attr == st.attr && st.attr != .device && e.tenant == st.tenant && e.knot == knot
    && !e.closed && !e.sent

/-- A store joined to an entry: later bytes win. -/
def SbEnt.join (e : SbEnt) (st : StoreReq) (n : Nat) : SbEnt :=
  let m := spanMask (st.pa % 256) st.size
  { e with mask := e.mask ||| m, bytes := mergeLine e.bytes (spanBytes (st.pa % 256) (st.val % 256 ^ st.size)) m
           stores := e.stores ++ [(n, st.va)] }

/-- The newest entry of the store's line is replaced when the store joins it; none when it does not. -/
def sbJoin (st : StoreReq) (knot : Bool) (n : Nat) : List SbEnt → Option (List SbEnt)
  | [] => none
  | e :: t =>
    if e.joins st knot && !t.any (fun x => x.line == e.line) then some (e.join st n :: t)
    else (sbJoin st knot n t).map (e :: ·)

/-- A store enters the store buffer in program order; inside a knot it joins the write set (R130, R142). -/
def Core.store (k : Core) (st : StoreReq) : Core :=
  let knot := k.knot.isSome
  let new : SbEnt :=
    { line := st.pa / 256, mask := spanMask (st.pa % 256) st.size
      bytes := spanBytes (st.pa % 256) (st.val % 256 ^ st.size), tenant := st.tenant, lvl := k.lvl, attr := st.attr, pa := st.pa
      size := st.size, stores := [(k.ord, st.va)], knot := knot, closed := false, sent := false, port := 0, seq := 0 }
  let sb := match sbJoin st knot k.ord k.sbuf with
    | some l => l
    | none => k.sbuf ++ [new]
  let kn := k.knot.map (fun x => { x with writes := if st.pa / 256 ∈ x.writes then x.writes else st.pa / 256 :: x.writes })
  ({ k with sbuf := sb, ord := k.ord + 1, knot := kn, wrote := k.wrote ++ [st] }).clearResv st.pa st.size

/-- A barrier lies after every entry (R130). -/
def Core.closeEntries (k : Core) : Core := { k with sbuf := k.sbuf.map (fun e => { e with closed := true }) }

/-! ### The stack cache (R67, R70) -/

/-- The deepest cached entry goes to its home as an ordinary store. -/
def Core.spillDeepest (k : Core) (tenant : Nat) : Core :=
  match k.cache.getLast? with
  | none => k
  | some e =>
    let va := k.sp + 8 * (k.cache.length - 1)
    ({ k with cache := k.cache.dropLast }).store
      { pa := e.home, va := BitVec.ofNat 64 va, size := 8, val := e.val.toNat, tenant := tenant, attr := e.attr }

/-- n spills, deepest first. -/
def Core.spillN (k : Core) (tenant : Nat) : Nat → Core
  | 0 => k
  | n + 1 => (k.spillDeepest tenant).spillN tenant n

/-- Every cached entry of the current level spilled (R70). -/
def Core.spillAll (k : Core) (tenant : Nat) : Core := k.spillN tenant k.cache.length

/-- A push of a value whose home has been translated (R65, R67). -/
def Core.pushHome (k : Core) (tenant : Nat) (v : Word) (home : Home) : Core :=
  let k := if 32 ≤ k.cache.length then k.spillDeepest tenant else k
  let k := k.setSp (k.sp - 8)
  { k with cache := { val := v, home := home.pa, attr := home.attr } :: k.cache }

/-- A pop of the top entry, which is cached. -/
def Core.pop1 (k : Core) : Core := { (k.setSp (k.sp + 8)) with cache := k.cache.tail }

def Core.popN (k : Core) : Nat → Core
  | 0 => k
  | n + 1 => k.pop1.popN n

/-! ### Slips (R147, R148) -/

def slip.CONFLICT : Nat := 1
def slip.CAPACITY : Nat := 2
def slip.DIR_CAPACITY : Nat := 3
def slip.PICK : Nat := 4
def slip.AGE : Nat := 5
def slip.EXPLICIT : Nat := 6
def slip.TRAP : Nat := 7
def slip.UNSUPPORTED_OP : Nat := 8
def slip.DEBUG : Nat := 9
def slip.POISON : Nat := 10

/-- The slip word (R147). -/
def slipWord (cause code : Nat) : Word := BitVec.ofNat 64 (cause + if cause = slip.TRAP then code * 256 else 0)

/-- A slip of the open knot: its stores and read set go, SP and the stack cache are as at KNOT, the slip word is pushed,
and the cord continues at the handler (R147). A cord with no open knot is unchanged. -/
def Core.slip (k : Core) (tenant cause code : Nat) : Core :=
  match k.knot with
  | none => k
  | some kn =>
    let k := { k with sbuf := k.sbuf.filter (fun e => !e.knot), knot := none, cache := kn.cache, pc := kn.handler, answers := []
                      run := match k.run with
                        | .waitCinch => k.goes
                        | r => r }
    (k.setSp kn.sp.toNat).pushHome tenant (slipWord cause code) kn.home

/-- A CONFLICT slip of a recorded cord: journaled, or in REPLAY taken from the journal or noted as unrecorded (R381, R391). -/
def conflictSlip (s : State) (c line : Nat) : State :=
  if s.replaying ∧ s.recorded c then
    match takeJournal s rplType.SLIP c with
    | some (s, _) => s
    | none => { s with rpl := { s.rpl with unrec := c :: s.rpl.unrec } }
  else stageCord s rplType.SLIP c (slipWord slip.CONFLICT 0).toNat [BitVec.ofNat 64 (line * 256)]

/-- A slip of cord c, recorded when its cause is CONFLICT (R381). -/
def slipCord (s : State) (c cause code line : Nat) : State :=
  match (s.cord c).knot with
  | none => s
  | some _ =>
    let s := if cause = slip.CONFLICT then conflictSlip s c line else s
    s.modCord c (fun k => k.slip (s.tenantOf c) cause code)

/-! ### The cord context slot (R73, R74) -/

def lvlCode : Level → Nat
  | .U => 0
  | .S => 1
  | .H => 2

def lvlOfCode : Nat → Level
  | 0 => .U
  | 1 => .S
  | _ => .H

/-- PSTATE as RDCR reads it (R72). -/
def Core.pstate (k : Core) : Word :=
  BitVec.ofNat 64 (lvlCode k.lvl + boolNat k.ee * 4 + boolNat k.knot.isSome * 8)

/-- AG i. -/
def Core.ag (k : Core) (i : Nat) : AG := mget k.ags i AG.zero

/-- Words 0 to 510 of a context slot (R73). -/
def ctxBody (k : Core) : List Word :=
  [BitVec.ofNat 64 0x10001, k.pc, k.flags, k.pstate, k.fcsr, k.retire,
    k.stkU.sp, k.stkU.sb, k.stkU.sl, k.stkS.sp, k.stkS.sb, k.stkS.sl, k.stkH.sp, k.stkH.sb, k.stkH.sl,
    BitVec.ofNat 64 k.cache.length,
    k.trS.tvec, k.trS.epc, k.trS.estat, k.trS.eval, k.trH.tvec, k.trH.epc, k.trH.estat, k.trH.eval,
    k.trS.gate, k.trH.gate, k.ptbr, k.s2br, 0, 0, 0, 0]
  ++ (List.range 8).flatMap (fun i => [(k.ag i).base, (k.ag i).idx, (k.ag i).step, (k.ag i).len, (k.ag i).brk])
  ++ (List.range 32).map (fun i => match k.cache[i]? with
      | some e => e.val
      | none => 0)
  ++ (List.range 32).map (fun i => match k.cache[i]? with
      | some e => BitVec.ofNat 64 e.home
      | none => 0)
  ++ List.replicate 375 0

/-- A context slot image: 512 words, the last with the CRC-32C of the others. -/
def ctxImage (k : Core) : List Word :=
  let b := ctxBody k
  b ++ [BitVec.ofNat 64 (crc32c (bytesOfWords b))]

/-- Checks 2 and 3 of R74 on the words of a slot. -/
def ctxOk (ws : List Word) : Bool :=
  let w (i : Nat) : Nat := (ws.getD i 0).toNat
  bits (w 0) 0 17 == 0x10001 && bits (w 511) 0 32 == crc32c (bytesOfWords (ws.take 511))
    && bits (w 3) 0 2 ≠ 3 && bits (w 18) 8 2 ≠ 3 && bits (w 22) 8 2 ≠ 3
    && bits (w 18) 0 8 ≤ 16 && bits (w 22) 0 8 ≤ 16 && bits (w 4) 0 3 ≤ 4
    && (List.range 8).all (fun i => w (32 + 5 * i + 4) ≤ 32) && bits (w 15) 0 6 ≤ 32

/-- Reserved bits of a control register read as zero (R72). -/
def keepBits (w : Word) (mask : Nat) : Word := w &&& BitVec.ofNat 64 mask

def spMask : Nat := 0x0000FFFFFFFFFFF8
def tvecMask : Nat := 0x0000FFFFFFFFF000
def epcMask : Nat := 0x0000FFFFFFFFFFFC
def estatMask : Nat := 0x3FFF
def gateMask : Nat := 0x0000FFFFFFFFF0FF
def ptbrMask : Nat := 0xFFF0FFFFFFFFF001
def s2brMask : Nat := 0x000FFFFFFFFFF001
def fcsrMask : Nat := 0x1F1F1F07

/-- A count for each PEND bit that is 1. -/
def pendAll (pend n : Nat) : SMap Nat := ((List.range 5).filter (fun b => bitAt pend b)).map (fun b => (b, n))

/-- Address generator i of a slot. -/
def ctxAG (ws : List Word) (i : Nat) : AG :=
  { base := ws.getD (32 + 5 * i) 0, idx := ws.getD (33 + 5 * i) 0, step := ws.getD (34 + 5 * i) 0
    len := ws.getD (35 + 5 * i) 0, brk := ws.getD (36 + 5 * i) 0 }

/-- The cord that a checked slot describes; reservation, TLBs, predictors and caches start empty (R64). A slot holds no attribute of a
stack entry's page: the entry takes that of its address (DESIGN CHOICE, log 40). -/
def ctxCore (ws : List Word) : Core :=
  let w (i : Nat) : Word := ws.getD i 0
  { Core.zero with
    pc := keepBits (w 1) 0xFFFFFFFFFFFFFFFC, flags := keepBits (w 2) 15, lvl := lvlOfCode (bits (w 3).toNat 0 2)
    ee := bitAt (w 3).toNat 2, fcsr := keepBits (w 4) fcsrMask, retire := w 5
    stkU := { sp := keepBits (w 6) spMask, sb := keepBits (w 7) spMask, sl := keepBits (w 8) spMask }
    stkS := { sp := keepBits (w 9) spMask, sb := keepBits (w 10) spMask, sl := keepBits (w 11) spMask }
    stkH := { sp := keepBits (w 12) spMask, sb := keepBits (w 13) spMask, sl := keepBits (w 14) spMask }
    trS := { tvec := keepBits (w 16) tvecMask, epc := keepBits (w 17) epcMask, estat := keepBits (w 18) estatMask
             eval := w 19, gate := keepBits (w 24) gateMask }
    trH := { tvec := keepBits (w 20) tvecMask, epc := keepBits (w 21) epcMask, estat := keepBits (w 22) estatMask
             eval := w 23, gate := keepBits (w 25) gateMask }
    ptbr := keepBits (w 26) ptbrMask, s2br := keepBits (w 27) s2brMask
    ags := (List.range 8).foldl (fun m i => mput m i (ctxAG ws i) AG.zero) []
    cache := (List.range (bits (w 15).toNat 0 6)).map (fun i =>
      { val := w (72 + i), home := (w (104 + i)).toNat % 2 ^ 52, attr := addrAttr ((w (104 + i)).toNat % 2 ^ 52) })
    fpCount := pendAll (bits (w 4).toNat 24 5) 0 }

end Sys2Proof.Machine
end

