-- ==== Sys2Proof/Machine/Coh.lean ====
section
/-! DEFINITION. The coherence protocol's parts that read no memory: lines in L2s and eviction buffers, snoop answers
(R170), directory transitions (R169, R172), the directory's capacity (R173, R174), and writes of whole sectors at a home. -/

namespace Sys2Proof.Machine

/-! ### Lines

A line is named by its module-physical address divided by 256; an address of the alias MID names the line under this
module's own MID (R331). -/

def normLine (s : State) (pa : Nat) : Nat :=
  if pa / 2 ^ 48 ≠ s.mid ∧ s.flag SPL_BOLT.ALIASV ∧ pa / 2 ^ 48 = s.get SPL_BOLT.ALIAS then
    (s.mid * 2 ^ 48 + pa % 2 ^ 48) / 256
  else pa / 256

/-- The home of a line of this module. -/
def homeOfLine (s : State) (line : Nat) : Option Nat :=
  match placeOf s (line * 256) with
  | .mem h => some h
  | _ => none

def l2Key (t line : Nat) : Nat := t * 2 ^ 44 + line

def State.l2At (s : State) (t line : Nat) : CLine := mget s.l2 (l2Key t line) CLine.none

def State.setL2 (s : State) (t line : Nat) (c : CLine) : State :=
  { s with l2 := mput s.l2 (l2Key t line) c CLine.none }

/-- The tenant that owns a line of this module, the host any other. -/
def lineOwner (s : State) (line : Nat) : Nat :=
  match homeOfLine s line with
  | some h => ownerOf s h (line * 256 % 2 ^ 48)
  | none => 0

/-! ### Ways (R28, R150, R159) -/

/-- The ways of a place's share of an L2 (R28). -/
def shareWays (s : State) (place : Nat) : List Nat :=
  if s.voted then List.range Config.l2Ways else (List.range 8).map (· + 8 * place)

/-- A way of a triad's L2 is locked. -/
def wayLocked (s : State) (t w : Nat) : Bool := bitAt (s.get (CRD_LOCK.WAYS t)) w

/-- Other lines of a triad's L2 in a line's set, which its number names (DESIGN CHOICE, log 18). -/
def l2Mates (s : State) (t line : Nat) : List (Nat × CLine) :=
  (s.l2.filter (fun e => e.1 / 2 ^ 44 == t && e.1 % Config.l2Sets == line % Config.l2Sets && e.1 % 2 ^ 44 != line)).map
    (fun e => (e.1 % 2 ^ 44, e.2))

/-- The ways of a place's share that a miss of a tenant may fill: locked ones for tenant 0x000 while FILL is 1 and one is free,
else unlocked ones (R159). -/
def fillWays (s : State) (t place tenant line : Nat) : List Nat :=
  let mates := l2Mates s t line
  let free (w : Nat) : Bool := !mates.any (fun e => e.2.way == w)
  let locked := (shareWays s place).filter (fun w => wayLocked s t w && free w)
  if tenant = 0 ∧ s.flag (CRD_LOCK.FILL t) ∧ locked ≠ [] then locked
  else (shareWays s place).filter (fun w => !wayLocked s t w)

/-- The lowest free way for a fill; none when every way it may use holds a line. -/
def freeWay (s : State) (t place tenant line : Nat) : Option Nat :=
  (fillWays s t place tenant line).find? (fun w => !(l2Mates s t line).any (fun e => e.2.way == w))

/-- The eviction-buffer entry of triad t that holds a line. -/
def evFind (s : State) (t line : Nat) : Option (Nat × EvEnt) :=
  (List.range 16).findSome? (fun e => match mget? s.ev (t * 16 + e) with
    | some x => if x.line = line then some (e, x) else none
    | none => none)

/-- Sectors that travel with their bits. -/
structure Copy where
  valid : BitVec 4
  dirty : BitVec 4
  poison : BitVec 4
  bytes : LineData
  deriving DecidableEq, Repr

def CLine.copy (c : CLine) : Copy := { valid := c.valid, dirty := c.dirty, poison := c.poison, bytes := c.bytes }
def EvEnt.copy (c : EvEnt) : Copy := { valid := c.valid, dirty := c.dirty, poison := c.poison, bytes := c.bytes }

/-! ### Caches of a cord (R28, R163) -/

def CRD_CTL.dis (t place bit : Nat) : Fld := { off := CRD_CTL.off t, lsb := 3 * place + bit, w := 1 }

/-- The L2 share of a place of triad t is disabled. -/
def l2Off (s : State) (t place : Nat) : Bool := s.flag (CRD_CTL.dis t place 2)
/-- The L1D of a place is disabled, its own bit or its L2's. -/
def l1dOff (s : State) (t place : Nat) : Bool := s.flag (CRD_CTL.dis t place 1) || l2Off s t place
def l1iOff (s : State) (t place : Nat) : Bool := s.flag (CRD_CTL.dis t place 0) || l2Off s t place

/-- The cords of a triad. -/
def State.cordsOf (s : State) (t : Nat) : List Nat := s.places.map (s.cordOf t)

/-! ### Knots and reservations met by other agents -/

/-- The cord's open knot has the line in its write set, or, when the other access would take or invalidate the line,
in its read set (R143). -/
def Core.knotHit (k : Core) (line : Nat) (takes : Bool) : Bool :=
  match k.knot with
  | none => false
  | some kn => kn.writes.contains line || (takes && kn.reads.any (fun x => x / 4 == line))

/-- Slips of the knots of a triad's cords that an access to a line meets, the accessing cord excepted. -/
def knotsMet (s : State) (t line : Nat) (takes : Bool) (cause : Nat) (but : Option Nat) : State :=
  (s.cordsOf t).foldl (fun s c =>
    if some c ≠ but ∧ (s.cord c).knotHit line takes then slipCord s c cause 0 line else s) s

/-- Reservations of a triad's cords that lie on a line go; `evict` says that the line only leaves the cache, which does
not count while the cord's caches are disabled (R134, R163). -/
def resvsMet (s : State) (t line : Nat) (evict : Bool) (but : Option Nat) : State :=
  (s.cordsOf t).foldl (fun s c =>
    if some c = but ∨ (evict ∧ l1dOff s t (s.shareOf c)) then s
    else s.modCord c (fun k => k.clearResv (line * 256) 256)) s

/-- Reservations of Shuttles on a line go. -/
def shutResvs (s : State) (line : Nat) : State :=
  (s.chs.shuts.map Prod.fst).foldl (fun s n => s.modShut n (fun x => { x with core := x.core.clearResv (line * 256) 256 })) s

/-- A write by one agent to a line clears every other reservation on it (R134, R176). -/
def resvsWritten (s : State) (line : Nat) (but : Option Nat) : State :=
  (List.range Config.triads).foldl (fun s t => resvsMet s t line false but) (shutResvs s line)

/-! ### Writes of whole sectors at a home -/

/-- Sectors of a line written at its home: into the warp cache when it holds the line or the whole line allocates, else
to the controller, in the slot given; nothing stays dirty above the home in a SHARED region of an active spliced module (R154,
R177, R321). -/
def homeSectors (s : State) (h line : Nat) (sel : BitVec 4) (bytes : LineData) (poison : BitVec 4) (tenant : Nat) (slot : WbSlot) :
    State :=
  let low := lowLine line
  let s := undoRecord s h low
  let through := throughShared s h (low * 256)
  match warpLine s h low with
  | some w =>
    let merged (dirty : BitVec 4) : WLine :=
      { w with bytes := mergeLine w.bytes bytes (sectorMask sel), dirty := dirty
               poison := (w.poison &&& ~~~sel) ||| (poison &&& sel) }
    if through then
      deviceSectors { s with warp := mset s.warp low (merged (w.dirty &&& ~~~sel)) } h low sel bytes poison tenant slot false
    else { s with warp := mset s.warp low (merged (w.dirty ||| sel)) }
  | none =>
    if through ∨ sel ≠ 15 then deviceSectors s h low sel bytes poison tenant slot false
    else
      match warpRoom s h low tenant with
      | (s, some way) =>
        { s with warp := mset s.warp low { bytes := bytes, dirty := sel, poison := poison, tenant := tenant, way := way } }
      | (s, none) => deviceSectors s h low sel bytes poison tenant slot false

/-- Dirty sectors sent to the home of a line, here or, for tenant `n`, on another module. -/
def sectorsHome (s : State) (line n : Nat) (c : Copy) (slot : WbSlot) : State :=
  if c.dirty = 0 then s
  else
    match homeOfLine s line with
    | some h => homeSectors s h line c.dirty c.bytes c.poison (ownerOf s h (line * 256 % 2 ^ 48)) slot
    | none =>
      match placeOf s (line * 256) with
      | .remote m => s.sendOn n (.remoteWrite m line n (sectorMask c.dirty) c.bytes (c.poison &&& c.dirty))
      | _ => s

/-- The tenant for whom a triad's L2 holds a line, and for whom an agent of this module speaks. -/
def agentOwner (s : State) (agent line : Nat) : Nat :=
  if agent < 48 then s.tenantOf (s.cordOf agent (s.l2At agent line).share) else 0

/-! ### Snoop answers (R170) -/

/-- Answers of class RSP. `keep` says that the owner that forwarded keeps a copy. -/
inductive Rsp where
  | I
  | S
  | fwd (dirty : BitVec 4) (keep : Bool)
  | evicting (entry : Nat) (dirty : BitVec 4)
  deriving DecidableEq, Repr

/-- An answer with the sectors that go to the requester and those that go to the home. -/
structure Answer where
  rsp : Rsp
  toReq : Option Copy
  toHome : Option Copy
  deriving DecidableEq, Repr

def Answer.plain (r : Rsp) : Answer := { rsp := r, toReq := none, toHome := none }

/-- A line leaves an L2 and its L1s: a line of a locked way is counted, and its dirty sectors are written back first
unless they are to be discarded under INVAL (R160). -/
def dropLine (s : State) (t line : Nat) (inval : Bool) : State :=
  let c := s.l2At t line
  let locked := wayLocked s t c.way
  let s := if locked && !inval then sectorsHome s line (agentOwner s t line) c.copy .none else s
  let s := if locked then s.bump (CRD_LOCKINV.COUNT t) 1 else s
  resvsMet (s.setL2 t line CLine.none) t line true none

/-- Dirty sectors are written back before a locked line goes, so they leave it clean. -/
def leaving (s : State) (t : Nat) (c : CLine) : Copy := if wayLocked s t c.way then { c.copy with dirty := 0 } else c.copy

/-- An L2's answer to a snoop. `inval` marks the SNP_IZ of an INVAL. A disabled share gives its dirty data to the home and
drops the line (R163). -/
def snoopL2 (s : State) (k : SnpKind) (t line : Nat) (inval : Bool) : State × Answer :=
  match k with
  | .L1I => (s.setL2 t line { s.l2At t line with l1i := 0 }, .plain .I)
  | _ =>
    let takes : Bool := k == .O || k == .I || k == .IZ
    let s := knotsMet s t line takes slip.CONFLICT none
    match evFind s t line with
    | some (e, x) =>
      let r : Rsp := .evicting e x.dirty
      match k with
      | .I => (s, { rsp := r, toReq := none, toHome := some x.copy })
      | .C => (s, { rsp := r, toReq := some x.copy, toHome := some x.copy })
      | .IZ => (s, .plain r)
      | _ => (s, { rsp := r, toReq := some x.copy, toHome := none })
    | none =>
      let c := s.l2At t line
      let off := l2Off s t c.share
      match c.st with
      | .I => (s, .plain .I)
      | .S => if takes || off then (dropLine s t line inval, .plain .I) else (s, .plain .S)
      | _ =>
        if off then
          (dropLine s t line inval,
            if k == .IZ then .plain .I else { rsp := .I, toReq := none, toHome := some (leaving s t c) })
        else
          match k with
          | .S =>
            let owned : Bool := c.st == .O || (c.st == .M && c.dirty != 0)
            (s.setL2 t line { c with st := if owned then .O else .S },
              { rsp := .fwd (if owned then c.dirty else 0) true, toReq := some { c.copy with dirty := 0 }, toHome := none })
          | .C => (s, { rsp := .fwd c.dirty true, toReq := some { c.copy with dirty := 0 }, toHome := none })
          | .O => (dropLine s t line inval, { rsp := .fwd (leaving s t c).dirty false, toReq := some (leaving s t c), toHome := none })
          | .I => (dropLine s t line inval, { rsp := .I, toReq := none, toHome := some (leaving s t c) })
          | _ => (dropLine s t line inval, .plain .I)

/-- The descriptor cache's answer: a shared copy at most, which an invalidating snoop removes unless the cache is
disabled (R162). -/
def snoopDc (s : State) (k : SnpKind) (line : Nat) : State × Answer :=
  if !s.flag CHS_CFG.DCEN then (s, .plain .I)
  else
    match mget? s.chs.dc line with
    | none => (s, .plain .I)
    | some _ =>
      if k == .S || k == .C then (s, .plain .S)
      else ({ s with chs := { s.chs with dc := mdel s.chs.dc line } }, .plain .I)

/-- The ways of the descriptor cache in which a line of a tenant may be allocated (R235). -/
def dcWays (s : State) (n : Nat) : List Nat :=
  (List.range 16).filter (fun w => !s.closedWeave || bitAt (s.get (CHS_DCWAYS.WAYS n)) w)

/-- A line enters the descriptor cache in a free way of its set, which its number names, else in that of a victim drawn from its
tenant's ways; a disabled cache takes no entry (R162, R235; log 18). -/
def dcFill (s : State) (line n : Nat) (bytes : LineData) (poison : BitVec 4) : State :=
  let ws := dcWays s n
  let mates := s.chs.dc.filter (fun e => e.1 % 512 == line % 512 && e.1 != line)
  let put (s : State) (w : Nat) (out : Option Nat) : State :=
    let dc := match out with
      | some l => mdel s.chs.dc l
      | none => s.chs.dc
    { s with chs := { s.chs with dc := mset dc line { bytes := bytes, poison := poison, way := w, used := s.seq } }, seq := s.seq + 1 }
  if !s.flag CHS_CFG.DCEN then s
  else
    match ws.find? (fun w => !mates.any (fun e => e.2.way == w)) with
    | some w => put s w none
    | none =>
      let vs := mates.filter (fun e => ws.contains e.2.way)
      match vs[s.freeVal.toNat % vs.length]? with
      | some (l, x) => put s.drew x.way (some l)
      | none => s

/-- The answer of an agent of this module. -/
def snoopAgent (s : State) (k : SnpKind) (agent line : Nat) (inval : Bool) : State × Answer :=
  if agent < 48 then snoopL2 s k agent line inval else snoopDc s k line

/-! ### The directory -/

def State.dirAt (s : State) (line : Nat) : DirEnt := mget s.dir line DirEnt.none

/-- A directory entry written, its use stamped (R174). -/
def State.setDir (s : State) (line : Nat) (d : DirEnt) : State :=
  if d.st = .I then { s with dir := mdel s.dir line }
  else { s with dir := mput s.dir line { d with used := s.seq } DirEnt.none, seq := s.seq + 1 }

/-- Every holder of a line. -/
def DirEnt.holders (d : DirEnt) : List Nat :=
  match d.st with
  | .I => []
  | .S => d.sharers
  | .X => [d.owner]
  | .O => d.owner :: d.sharers

/-- The snoops that a request needs (R169). An L1I that holds a line has it in its L2 as well (R151), which the directory knows. -/
def snoopPlan (d : DirEnt) (k : ReqKind) (src : Nat) : List (SnpKind × Nat) :=
  let others := d.sharers.filter (· ≠ src)
  let shot : List (SnpKind × Nat) := others.map (fun a => (SnpKind.I, a))
  let owner (x : SnpKind) : List (SnpKind × Nat) := if d.owner = src then [] else [(x, d.owner)]
  match k, d.st with
  | _, .I => []
  | .rdS, .S => []
  | .rdS, _ => owner .S
  | .rdO, .S => shot
  | .rdO, .X => owner .O
  | .rdO, .O => owner .O ++ shot
  | .upg, .S => shot
  | .upg, .X => owner .O
  | .upg, .O => owner .O ++ shot
  | .rdOZ, .S => shot
  | .rdOZ, .X => owner .IZ
  | .rdOZ, .O => owner .O ++ shot
  | .rdOnce, .S => []
  | .rdOnce, _ => [(.C, d.owner)]
  | .wrLine _ _, _ => d.holders.map (fun a => (SnpKind.IZ, a))
  | .wrPart _ _ _, _ => d.holders.map (fun a => (SnpKind.I, a))
  | .atom _ _ _ _ _, _ => d.holders.map (fun a => (SnpKind.I, a))
  | .cmo .clean, .S => []
  | .cmo .clean, _ => [(.C, d.owner)]
  | .cmo .flush, _ => d.holders.map (fun a => (SnpKind.I, a))
  | .cmo .inval, _ => d.holders.map (fun a => (SnpKind.IZ, a))
  | .cmo .icinv, _ => (d.holders.filter (· ≠ 48)).map (fun a => (SnpKind.L1I, a))

def Told.none : Told := { fwd := false, kept := false, dirty := 0, evicting := false }

/-- What a further answer adds. -/
def Told.add (x : Told) : Rsp → Told
  | .I => x
  | .S => { x with kept := true }
  | .fwd d keep => { x with fwd := true, kept := x.kept || keep, dirty := x.dirty ||| d }
  | .evicting _ d => { x with dirty := x.dirty ||| d, evicting := true }

/-- An entry with sharers only, or none. -/
def sharersOnly (sh : List Nat) : DirEnt := if sh = [] then DirEnt.none else { DirEnt.none with st := .S, sharers := sh }

/-- The owner has given up its copy. -/
def DirEnt.ownerGone (d : DirEnt) : DirEnt := if d.st = .O then sharersOnly d.sharers else DirEnt.none

/-- The entry after a request, and the state granted (R169, R172). -/
def dirAfter (d : DirEnt) (k : ReqKind) (src : Nat) (t : Told) : DirEnt × Moesi :=
  let others := d.sharers.filter (· ≠ src)
  let own : DirEnt := { DirEnt.none with st := .X, owner := src }
  let share (sh : List Nat) : DirEnt × Moesi := ({ DirEnt.none with st := .S, sharers := sh }, .S)
  match k with
  | .rdS =>
    match d.st with
    | .I => (own, .E)
    | .S => share (src :: others)
    | .X =>
      if t.evicting then
        (if t.dirty = 0 then (own, .E) else ({ DirEnt.none with st := .O, owner := src }, .O))
      else if t.kept then
        (if t.dirty = 0 then share [src, d.owner]
          else ({ DirEnt.none with st := .O, owner := d.owner, sharers := [src] }, .S))
      else (own, .E)
    | .O =>
      if t.evicting ∧ t.dirty ≠ 0 then ({ DirEnt.none with st := .O, owner := src, sharers := others }, .O)
      else if t.kept ∧ !t.evicting then ({ DirEnt.none with st := .O, owner := d.owner, sharers := src :: others }, .S)
      else if others = [] then (own, .E)
      else share (src :: others)
  | .rdO => (own, .M)
  | .rdOZ => (own, .M)
  | .upg => (own, .M)
  | .rdOnce =>
    if d.st = .I ∨ d.st = .S ∨ (t.kept ∧ !t.evicting) then (d, .S) else (d.ownerGone, .S)
  | .wrLine _ _ => (DirEnt.none, .I)
  | .wrPart _ _ _ => (DirEnt.none, .I)
  | .atom _ _ _ _ _ => (DirEnt.none, .I)
  | .cmo .clean =>
    if d.st = .O then (if t.kept then sharersOnly (d.owner :: d.sharers) else sharersOnly d.sharers, .I)
    else if d.st = .X ∧ !t.kept then (DirEnt.none, .I)
    else (d, .I)
  | .cmo .flush => (DirEnt.none, .I)
  | .cmo .inval => (DirEnt.none, .I)
  | .cmo .icinv => (d, .I)

/-- The requester holds the data already: a UPG of a sharer, or of the owner in O. -/
def hasData (d : DirEnt) (k : ReqKind) (src : Nat) : Bool :=
  match k with
  | .upg => d.holders.contains src
  | _ => false

/-- The tag of an eviction-buffer entry: of an L2 of this module, or of another module's, which its proxy numbers within the module
(R172). -/
def evTag (agent entry : Nat) : Nat := if agent < 64 then agent * 16 + entry else (agent - 63) * 768 + entry

/-- The pending-eviction bit of an entry's tag set. -/
def evCross (s : State) (agent entry : Nat) : State :=
  let tag := evTag agent entry
  { s with evPend := if tag ∈ s.evPend then s.evPend else tag :: s.evPend }

/-- What the home does with an answer: data for the home is written, a crossing eviction noted (R172). -/
def homeTakes (s : State) (h line agent : Nat) (a : Answer) : State :=
  let s := match a.toHome with
    | some c => sectorsHome s line (agentOwner s agent line) c .none
    | none => s
  match a.rsp with
  | .evicting e _ => (evCross s agent e).bump (COH_CNT.CROSS h) 1
  | _ => s

/-! ### Directory capacity (R156, R173, R174) -/

/-- The directory set of a line at its home. -/
def dirSet (s : State) (h line : Nat) : Nat :=
  let a := line * 256
  let x := bits a 8 13 ^^^ bits a 21 13 ^^^ bits a 34 13 ^^^ bits a 47 5
  match (List.range 16).find? (fun r => s.flag (COH_DREG_LO.EN h r) && s.get (COH_DREG_LO.BASE h r) ≤ bits a 21 31
      && bits a 21 31 ≤ s.get (COH_DREG_HI.LIMIT h r)) with
  | some r => (s.get (COH_DREG_HI.SETBASE h r) + x % 2 ^ s.get (COH_DREG_HI.SETLOG2 h r)) % 6144
  | none => x % 6144

/-- A pin that still counts. -/
def pinned (s : State) (d : DirEnt) : Bool :=
  match d.stamp with
  | some t => s.time.now < t + Config.knotAge
  | none => false

/-- The entry of a list that is least by a measure. -/
def leastBy (f : Nat × DirEnt → Nat) : List (Nat × DirEnt) → Option (Nat × DirEnt)
  | [] => none
  | e :: t =>
    match leastBy f t with
    | none => some e
    | some x => if f x < f e then some x else some e

/-- The victim of a full set: the least recently used entry that is not pinned, else the youngest stamp. -/
def dirVictim (s : State) (es : List (Nat × DirEnt)) : Option (Nat × DirEnt) :=
  match leastBy (fun e => e.2.used) (es.filter (fun e => !pinned s e.2)) with
  | some e => some e
  | none => leastBy (fun e => s.time.now + Config.knotAge - e.2.stamp.getD 0) es

/-- The fill of a line is pending at an L2: its grant is on the way, or its data has come without the grant. -/
def fillPending (s : State) (agent line : Nat) : Bool :=
  s.net.any (fun m => match m with
    | .cmp a l st _ => a == agent && l == line && st != .I
    | _ => false)
  || (let c := s.l2At agent line; c.st == .I && c.valid != 0)

/-- A snoop of an L2 must wait: the line is held for its hitch time, or its fill is pending (R168). -/
def holdsOff (s : State) (k : SnpKind) (agent line : Nat) : Bool :=
  decide (agent < 48) && k != .L1I && ((s.l2At agent line).held || fillPending s agent line)

/-- A snoop of a plan must wait. -/
def planHeld (s : State) (line : Nat) (p : List (SnpKind × Nat)) : Bool := p.any (fun x => holdsOff s x.1 x.2 line)

/-- The holders in this module of an entry that is evicted: SNP_I, and knots that hold the line slip with DIR_CAPACITY. -/
def invalidateHere (s : State) (h line : Nat) (d : DirEnt) : State :=
  d.holders.foldl (fun s a =>
    if a < 48 then
      let hit := ((s.cordsOf a).filter (fun c => (s.cord c).knotHit line true)).length
      let s := (knotsMet s a line true slip.DIR_CAPACITY none).bump (COH_CNT.DIRSLIP h) hit
      let (s, ans) := snoopAgent s .I a line false
      homeTakes s h line a ans
    else if a = 48 then (snoopAgent s .I 48 line false).1
    else s) s

/-- The requester's number of a snoop that the home makes for itself. -/
def selfReq : Nat := 0xFF

/-- An entry evicted (R174): every holder is sent SNP_I. While a holder on another module has not answered, a transaction stays
open on the line and the entry stays. -/
def backInvalidate (s : State) (h line : Nat) (d : DirEnt) : State :=
  let s := (invalidateHere s h line d).bump (COH_CNT.BACKINV h) 1
  let far := d.holders.filter (fun a => decide (49 ≤ a))
  if far = [] then s.setDir line DirEnt.none
  else
    let q : Req := { src := selfReq, line := line, tenant := ownerOf s h (line * 256 % 2 ^ 48), stamp := none, bad := 0 }
    far.foldl (fun s a => s.sendTo a line q.tenant (.snp .I { agent := a, line := line, req := selfReq }))
      { s with txns := mset s.txns line { kind := .cmo .flush, req := q, waits := far, told := Told.none, queue := [] } }

/-- Room for a new entry of a line; false while its victim's holders have not given it up. -/
def dirRoom (s : State) (h line : Nat) : State × Bool :=
  if (s.dirAt line).st ≠ .I then (s, true)
  else
    let set := dirSet s h line
    let es := s.dir.filter (fun e => homeOfLine s e.1 == some h && dirSet s h e.1 == set)
    if es.length < 16 then (s, true)
    else
      match dirVictim s es with
      | none => (s, true)
      | some (l, d) =>
        if (mget? s.txns l).isSome ∨ planHeld s l (d.holders.map (fun a => (SnpKind.I, a))) then (s, false)
        else (backInvalidate s h l d, !d.holders.any (fun a => decide (49 ≤ a)))

/-! ### Snoops answered at once -/

/-- Every snoop of a plan answered by the agents of this module in turn; proxies of other modules are sent theirs. The
forwarded copy, if any, is returned. -/
def snoopAll (s : State) (h line req : Nat) (inval : Bool) :
    List (SnpKind × Nat) → Told → Option Copy → State × Told × Option Copy
  | [], t, c => (s, t, c)
  | (k, a) :: rest, t, c =>
    if a < 49 then
      let (s1, ans) := snoopAgent s k a line inval
      let s2 := homeTakes s1 h line a ans
      snoopAll s2 h line req inval rest (t.add ans.rsp) (ans.toReq.orElse (fun _ => c))
    else
      snoopAll (s.sendTo a line (ownerOf s h (line * 256 % 2 ^ 48)) (.snp k { agent := a, line := line, req := req })) h line req inval
        rest t c

/-- The plan asks an agent of another module for an answer. -/
def asksProxy (p : List (SnpKind × Nat)) : Bool := p.any (fun x => 49 ≤ x.2)

/-! ### A full line written by an agent that does not cache (R176) -/

/-- WR_LINE carried out: every copy discarded, the line written, every reservation on it cleared. -/
def wrLineDone (s : State) (h line src tenant : Nat) (bytes : LineData) (poison : BitVec 4) : State :=
  let d := s.dirAt line
  let (s, _, _) := snoopAll s h line src false (snoopPlan d (.wrLine bytes poison) src) Told.none none
  let s := s.setDir line DirEnt.none
  homeSectors (resvsWritten s line none) h line 15 bytes poison tenant .none

/-- A transaction opened on a line: its snoops are sent, and the home finishes it when they are answered (R169). -/
def openTxn (s : State) (k : ReqKind) (q : Req) : State :=
  let plan := snoopPlan (s.dirAt q.line) k q.src
  plan.foldl (fun s p => s.sendTo p.2 q.line q.tenant (.snp p.1 { agent := p.2, line := q.line, req := q.src }))
    { s with txns := mset s.txns q.line { kind := k, req := q, waits := plan.map (·.2), told := Told.none, queue := [] } }

/-- A request set behind the transaction on its line (R169). -/
def queueTxn (s : State) (x : Txn) (k : ReqKind) (q : Req) : State :=
  { s with txns := mset s.txns q.line { x with queue := x.queue ++ [(k, q)] } }

/-- A plan that this module answers in one step: nobody on another module is asked, and no cache holds the snoop off. -/
def planNow (s : State) (line : Nat) (p : List (SnpKind × Nat)) : Bool := !asksProxy p && !planHeld s line p

/-- A full line written from inside the module; false when the address refuses it. -/
def putLine (s : State) (pa tenant src : Nat) (bytes : LineData) : State × Bool :=
  match placeFor s pa tenant with
  | .mem h =>
    let line := normLine s pa
    let k : ReqKind := .wrLine bytes 0
    let q : Req := { src := src, line := line, tenant := tenant, stamp := none, bad := 0 }
    match mget? s.txns line with
    | some x => (queueTxn s x k q, true)
    | none =>
      if undoBlocks s h (lowLine line) then (openTxn (s.putFlag SPL_STAT.UNDOWAIT true) k q, true)
      else if planNow s line (snoopPlan (s.dirAt line) k src) then (wrLineDone s h line src tenant bytes 0, true)
      else (openTxn s k q, true)
  | .remote m =>
    (s.sendFar m (pa / 256) tenant
      (.req (.wrLine bytes 0) { src := src, line := pa / 256, tenant := tenant, stamp := none, bad := 0 }), true)
  | _ => (countRefusal s pa tenant, false)

/-- Words written to consecutive addresses as whole lines; the count of 32-word lines is given. -/
def putWords (s : State) (pa tenant src : Nat) (ws : List Word) : Nat → State × Bool
  | 0 => (s, true)
  | n + 1 =>
    let (s, ok) := putLine s pa tenant src (BitVec.ofNat 2048 (ofBytes (bytesOfWords (ws.take 32))))
    let (s, ok2) := putWords s (pa + 256) tenant src (ws.drop 32) n
    (s, ok && ok2)

end Sys2Proof.Machine
end

