-- ==== Sys2Proof/Machine/Fcu.lean ====
section
/-! DEFINITION. Saving a cord's context (R418), halting and migrating cords (R48, R53), and the Fault Collection Unit: the
record, the counters, the reactions, windows and the safe state (R296 to R309). -/

namespace Sys2Proof.Machine

/-! ### Triad fields by place and strand -/

def TRI_STAT.halt (t k : Nat) : Fld := { off := TRI_STAT.off t, lsb := 11 + k, w := 1 }
def TRI_STAT.ctxv (t k : Nat) : Fld := { off := TRI_STAT.off t, lsb := 13 + k, w := 1 }
def TRI_STAT.fenced (t k : Nat) : Fld := { off := TRI_STAT.off t, lsb := 3 + k, w := 1 }
def TRI_STAT.on (t k : Nat) : Fld := { off := TRI_STAT.off t, lsb := 6 + k, w := 1 }
def TRI_CNT.ce (t k : Nat) : Fld := { off := TRI_CNT.off t, lsb := 16 * k, w := 16 }

def tst.VOTED3 : Nat := 0
def tst.DEGRADED : Nat := 1
def tst.SPLIT : Nat := 2
def tst.SPARED : Nat := 3
def tst.FAILED : Nat := 4
def tst.UNUSABLE : Nat := 5

def State.tstate (s : State) (t : Nat) : Nat := s.get (TRI_STAT.TSTATE t)

/-- The strand that runs the cord of a place in Split execution (R40, R53). -/
def State.strandOf (s : State) (t k : Nat) : Nat := if s.get (TRI_STAT.SPARE t) = k + 1 then 2 else k

def pst.ON : Nat := 0
def pst.GATED : Nat := 1
def pst.RETAIN : Nat := 2
def pst.OFF : Nat := 3

/-- A domain's state set; TRI_STAT.ON follows for a strand. -/
def setDom (s : State) (d cur : Nat) : State :=
  let s := s.put (PWR_DOM.CUR d) cur
  if d < 144 then s.putFlag (TRI_STAT.on (d / 3) (d % 3)) (cur == pst.ON) else s

/-- A strand fenced and its domain powered off (R47, R49, R53). -/
def fenceStrand (s : State) (t k : Nat) : State :=
  setDom (s.putFlag (TRI_STAT.fenced t k) true) (dom.strand t k) pst.OFF

/-! ### The first-fault record (R296 to R303) -/

def sevCode : Severity → Nat
  | .CE => 0
  | .DE => 1
  | .UC => 2
  | .UF => 3

/-- A report that names no other block and carries no address. -/
def Report.of (src : Nat) (sev : Severity) : Report :=
  { src := src, sev := sev, rails := .fault, far := noFar, info := 0, cord := none, line := none }

/-- A report as the FCU takes it: severity, wire fault, and whether it was injected. -/
structure Taken where
  rep : Report
  sev : Nat
  wire : Bool
  inj : Bool
  deriving DecidableEq, Repr

/-- A report at the FCU's inputs: none where the source's pairs are ignored after a wire fault or clamped at a domain that
is not ON or held in reset (R297, R298). -/
def takeReport (s : State) (inj : Bool) (r : Report) : Option Taken :=
  if s.flag (FCU_SRC.WIRE r.src) ∨ (!inj ∧ r.src < 260 ∧ !s.domOn r.src) then none
  else
    let wire : Bool := r.rails != .fault || !bitAt (caps r.src) (sevCode r.sev)
    some { rep := r, sev := if wire then 2 else sevCode r.sev, wire := wire, inj := inj }

def Scope.covers (x : Scope) (n : Nat) : Bool :=
  match x with
  | .triad t => n / 3 == t && n < 144 || n == 144 + t
  | .domain d => n == d
  | .all => true

/-- A report in an open window (R307). -/
def consequential (s : State) (r : Report) : Bool :=
  s.fcu.windows.any (fun w => w.covers r.src || (r.far ≠ noFar && w.covers r.far))

/-- CE and DE of a masked source are counted only (R303). -/
def maskedRep (s : State) (x : Taken) : Bool := s.flag (FCU_SRC.MASK x.rep.src) && x.sev < 2

/-- The reaction chosen for a report (R305); a wire fault of a source without UC takes INTR (R297). -/
def reactionOf (s : State) (x : Taken) : Nat :=
  if x.wire ∧ !bitAt (caps x.rep.src) 2 then react.INTR
  else bits (s.rd (FCU_SRC.off x.rep.src)) (3 * x.sev) 3

/-- Block resets of a domain asserted in the last 60 s. -/
def recentResets (s : State) (d : Nat) : List Nat :=
  (mget s.fcu.resets d []).filter (fun t => s.time.now < t + Config.minuteRclk)

/-- The reaction that a report takes: INTR in place of a fourth block reset within 60 s (R306). -/
def reactionTaken (s : State) (x : Taken) : Nat :=
  let c := reactionOf s x
  if c = react.BLOCKRST ∧ 3 ≤ (recentResets s x.rep.src).length then react.INTR else c

def fcuCount (s : State) (x : Taken) : State :=
  let f : Fld := match x.sev with
    | 0 => FCU_CNT.CE x.rep.src
    | 1 => FCU_CNT.DE x.rep.src
    | 2 => FCU_CNT.UC x.rep.src
    | _ => FCU_CNT.UF x.rep.src
  let s := s.bump f 1
  if x.wire then s.putFlag (FCU_SRC.WIRE x.rep.src) true else s

def fcuAlso (s : State) (src : Nat) : State :=
  s.putFlag { off := FCU_ALSO.off (src / 64), lsb := src % 64, w := 1 } true

/-- A later report merged into the record (R301). -/
def fcuMerge (s : State) (conseq : Bool) (x : Taken) : State :=
  let s := (fcuAlso s x.rep.src).bump FCU_REC.MERGED 1
  let s := s.put FCU_REC.MAXSEV (max (s.get FCU_REC.MAXSEV) x.sev)
  if conseq then s.bump FCU_REC.CONSEQ 1 else s

/-- The report chosen of one fclk: highest severity, then lowest source (R300). -/
def chosen (xs : List Taken) : Option Taken :=
  xs.foldl (fun b x => match b with
    | none => some x
    | some y => if y.sev < x.sev ∨ (y.sev = x.sev ∧ x.rep.src < y.rep.src) then some x else b) none

/-- The record written from a report (R300). -/
def fcuWrite (s : State) (x : Taken) (conseq : Nat) : State :=
  let s := s.wr FCU_REC.SRC.off
    (x.rep.src + x.sev * 2 ^ 10 + boolNat x.wire * 2 ^ 12 + boolNat x.inj * 2 ^ 13 + x.rep.far * 2 ^ 14 + x.sev * 2 ^ 24
      + reactionTaken s x * 2 ^ 26 + min conseq 255 * 2 ^ 48 + 2 ^ 63)
  let s := s.wr FCU_RECINFO.INFO.off x.rep.info.toNat
  s.wr FCU_RECTIME.PICK.off
    (if s.time.loom then s.pick % 2 ^ 48 + s.since % 2 ^ 14 * 2 ^ 48
     else min (s.time.now - s.time.resetAt) (2 ^ 48 - 1) + 2 ^ 62)

/-- Recording and counting of the reports of one fclk (R300 to R303, R307). -/
def fcuRecord (s : State) (xs : List Taken) : State :=
  let s1 := xs.foldl fcuCount s
  let live := xs.filter (fun x => !maskedRep s x)
  if s.flag FCU_REC.VALID then live.foldl (fun t x => fcuMerge t (consequential s x.rep) x) s1
  else
    let cons := live.filter (fun x => consequential s x.rep)
    let firsts := live.filter (fun x => !consequential s x.rep)
    match chosen firsts with
    | none => cons.foldl (fun t x => (fcuAlso t x.rep.src).bump FCU_REC.CONSEQ 1) s1
    | some y => (live.erase y).foldl (fun t x => fcuAlso t x.rep.src) (fcuWrite s1 y cons.length)

/-! ### Reactions that concern no triad (R305, R306, R308) -/

/-- INTR: a signal record to HCORD under tenant 0x000. -/
def intr (s : State) (src sev : Nat) : State :=
  evqSend s 0 (s.get FCU_CFG.HCORD) (BitVec.ofNat 64 (src + sev * 1024)) (evDesc ev.SIGNAL 0xFFFF 0) none

/-- The safe state begins, or turns into one of the FENCE kind (R307, R308). -/
def safeEntry (s : State) (k : SafeKind) : State :=
  match s.fcu.safe with
  | some _ => if k = .fence then { s with fcu := { s.fcu with safe := some .fence } } else s
  | none =>
    ({ s with
        fcu := { s.fcu with safe := some k, safeDone := false, windows := [.all] }
        pins := { s.pins with fault := false, safe := false } }).put PWR_MODSTAT.LIFE life.SAFE

/-- The Shuttles of a cluster that is turned off instead of a restart: one that has restarted three times in 60 s is FAILED (R233). -/
def shutsOff (s : State) (d : Nat) : State :=
  if d < 196 ∨ 204 ≤ d then s
  else
    (List.range 4).foldl (fun s i =>
      let n := 4 * (d - 196) + i
      let rs := ((mget s.chs.shuts n Shut.zero).restarts).filter (fun t => s.time.now < t + Config.minuteRclk)
      if s.get (CHS_SHUT.STATE n) = 4 then s else s.put (CHS_SHUT.STATE n) (if 3 ≤ rs.length then 4 else 0)) s

/-- BLOCKRST of a domain: held in reset, or turned off after three resets in 60 s. -/
def blockReset (s : State) (d : Nat) : State :=
  let rs := recentResets s d
  if 3 ≤ rs.length then shutsOff ((setDom s d pst.OFF).putFlag (FCU_SRC.FAILED d) true) d
  else
    { s with fcu := { s.fcu with
        held := if d ∈ s.fcu.held then s.fcu.held else d :: s.fcu.held
        resets := mput s.fcu.resets d (s.time.now :: rs) []
        windows := if Scope.domain d ∈ s.fcu.windows then s.fcu.windows else .domain d :: s.fcu.windows } }

/-- The part of a reaction that touches no triad. A consequential report takes LOG, but a UF forces the safe state. -/
def reactBase (s : State) (conseq : Bool) (x : Taken) : State :=
  let c := reactionOf s x
  if x.sev = 3 then
    let s := safeEntry s (if c = react.FENCE then .fence else .safe)
    if conseq then s else intr s x.rep.src x.sev
  else if conseq ∨ c = react.LOG then s
  else
    let s :=
      if c = react.BLOCKRST then blockReset s x.rep.src
      else if c = react.SAFE then safeEntry s .safe
      else if c = react.FENCE then safeEntry s .fence
      else s
    intr s x.rep.src x.sev

/-- Reports of one fclk, with the reactions that touch no triad; the reports that still react are returned. -/
def reportBase (s : State) (inj : Bool) (rs : List Report) : State × List Taken :=
  let xs := rs.filterMap (takeReport s inj)
  let r := fcuRecord s xs
  let live := xs.filter (fun x => !maskedRep s x)
  (live.foldl (fun t x => reactBase t (consequential s x.rep) x) r, live.filter (fun x => !consequential s x.rep))

/-- One report from inside the module whose reactions touch no triad. -/
def report0 (s : State) (r : Report) : State := (reportBase s false [r]).1

/-! ### Saving a context (R418) and halting a cord (R48) -/

/-- A write to memory at an address meets a block that is not ON. -/
def darkAt (s : State) (pa : Nat) : Option Nat :=
  match placeOf s pa with
  | .mem h => if s.lit (dom.mem h) then none else some (dom.mem h)
  | _ => none

/-- Lines of a context slot written as tenant 0x000 from an address on; the first address that failed. -/
def saveLines (s : State) (t pa : Nat) (ws : List Word) : Nat → State × Option Nat
  | 0 => (s, none)
  | n + 1 =>
    let (s1, ok) := if (darkAt s pa).isSome then (s, false)
      else putLine s pa 0 t (BitVec.ofNat 2048 (ofBytes (bytesOfWords (ws.take 32))))
    let (s2, bad) := saveLines s1 t (pa + 256) (ws.drop 32) n
    (s2, if ok then bad else some pa)

/-- A save that is incomplete is reported as UC with the first address that failed (R418). -/
def saveFailed (s : State) (t addr : Nat) : State :=
  report0 s { Report.of (src.triad t) .UC with info := BitVec.ofNat 64 addr }

/-- Cord c's state written to the slot at an address; whether the save is complete. -/
def saveTo (s : State) (c addr : Nat) : State × Bool :=
  let t := s.triadOf c
  let (s, bad) := saveLines s t addr (ctxImage (s.cord c)) 16
  match bad with
  | none => (s, true)
  | some a => (saveFailed s t a, false)

/-- A context save clears the cord's reservation (R134). -/
def saveContext (s : State) (c : Nat) : State × Bool :=
  let (s, ok) := saveTo s c (s.ctxOf c)
  (s.modCord c (fun k => { k with resv := none }), ok)

/-- A word of a place's checkpoint copy fails its ECC (R48). -/
def Triad.copyBad (x : Triad) (k : Nat) : Bool := x.ckptBad.any (fun e => e.1 == k)

/-- A cord halts: an open knot slips with CAPACITY, a resynchronisation ends with it, HALT is set, the checkpoint copy goes to the context slot unless its
ECC failed, and UC is reported (R48, R63). -/
def haltCord (s : State) (t k : Nat) : State :=
  let c := s.cordOf t k
  let s := slipCord s c slip.CAPACITY 0 0
  let s := (s.putFlag (TRI_STAT.halt t k) true).modCord c (fun x => { x with run := .halted, paused := false })
  let s := if s.voted then s.modTriad t (fun x => { x with resync := none }) else s
  let (s, ok) := if (s.triad t).copyBad k then (s, false) else saveContext s c
  report0 (s.putFlag (TRI_STAT.ctxv t k) ok) (Report.of (src.triad t) .UC)

/-! ### Retries (R45, R52) -/

/-- Retries of the group that the cord of a place has still to pass. -/
def retriesNow (s : State) (t k : Nat) : Nat :=
  let x := s.triad t
  if mget x.retryAt k 0 = (s.cord (s.cordOf t k)).retire.toNat then mget x.retries k 0 else 0

/-- One more retry: the cord rolls back to its checkpoint, which is its state after the last retire group (log 8); its
reservation goes (R134). -/
def retryGroup (s : State) (t k : Nat) : State :=
  let c := s.cordOf t k
  let n := retriesNow s t k
  let s := s.modCord c (fun x => { x with resv := none })
  s.modTriad t (fun x => { x with retries := mput x.retries k (n + 1) 0, retryAt := mput x.retryAt k (s.cord c).retire.toNat 0 })

/-! ### Migration and fencing (R47, R49, R52, R53) -/

/-- The spare is free: cold, not fenced, and no migration runs. -/
def spareFree (s : State) (t : Nat) : Bool :=
  s.tstate t == tst.SPLIT && (s.triad t).mig.isNone && !s.flag (TRI_STAT.fenced t 2)

/-- A migration starts: the strand stops at its retire checkpoint, an open knot slips with CAPACITY. -/
def migrate (s : State) (t k strand : Nat) : State :=
  let c := s.cordOf t k
  let s := slipCord s c slip.CAPACITY 0 0
  let s := (s.modCord c (fun x => { x with paused := true, resv := none })).recovers c
  s.modTriad t (fun x => { x with
    mig := some { cord := k, strand := strand, phase := .drain, opened := s.time.now }, retries := mdel x.retries k })

/-- A hard fault of the strand that runs place k: the cord takes the spare or halts (R52). -/
def hardFault (s : State) (t k strand : Nat) : State :=
  if spareFree s t then migrate s t k strand else haltCord s t k

/-- SPARE on a strand (R305). -/
def spareStrand (s : State) (t strand : Nat) : State :=
  let s := { s with fcu := { s.fcu with
    windows := if Scope.triad t ∈ s.fcu.windows then s.fcu.windows else .triad t :: s.fcu.windows } }
  if s.flag (TRI_STAT.fenced t strand) then s
  else if s.voted then
    if s.tstate t = tst.VOTED3 then (fenceStrand s t strand).put (TRI_STAT.TSTATE t) tst.DEGRADED
    else if s.tstate t = tst.DEGRADED then haltCord ((fenceStrand s t strand).put (TRI_STAT.TSTATE t) tst.FAILED) t 0
    else s
  else
    match [0, 1].find? (fun k => s.strandOf t k == strand) with
    | none => fenceStrand s t strand
    | some k => if spareFree s t then migrate s t k strand else haltCord (fenceStrand s t strand) t k

/-- RETRY: a clean line goes, a dirty one is poisoned; the cord that read it rolls back once to its checkpoint, which is
its state after the last retire group (R305; log 8). It is a retry of R45, which allows two for a retire group: after them the cord
halts (DEDUCED, log 40). -/
def retryRead (s : State) (t : Nat) (r : Report) : State :=
  let dirty : Bool := match r.line with
    | some l => (s.l2At t l).dirty != 0
    | none => false
  let s := match r.line with
    | some l =>
      let c := s.l2At t l
      if dirty then s.setL2 t l { c with poison := c.poison ||| c.dirty } else dropLine s t l true
    | none => s
  match r.cord with
  | some c =>
    if dirty ∨ s.triadOf c ≠ t then s
    else if 2 ≤ retriesNow s t (s.shareOf c) then haltCord s t (s.shareOf c)
    else
      let s := retryGroup s t (s.shareOf c)
      { s with fcu := { s.fcu with
        windows := if Scope.triad t ∈ s.fcu.windows then s.fcu.windows else .triad t :: s.fcu.windows } }
  | none => s

/-- The part of a reaction that touches a triad. -/
def reactTriad (s : State) (x : Taken) : State :=
  let c := reactionOf s x
  if x.sev = 3 then s
  else if c = react.SPARE ∧ x.rep.src < 144 then spareStrand s (x.rep.src / 3) (x.rep.src % 3)
  else if c = react.RETRY ∧ 144 ≤ x.rep.src ∧ x.rep.src < 192 then retryRead s (x.rep.src - 144) x.rep
  else s

/-- Reports of one fclk with every reaction. -/
def reports (s : State) (inj : Bool) (rs : List Report) : State :=
  let (s, live) := reportBase s inj rs
  live.foldl reactTriad s

/-- One report raised by a block of the module. -/
def report (s : State) (r : Report) : State := reports s false [r]

/-- A report that names no other block. -/
def raise (s : State) (src : Nat) (sev : Severity) : State := report s (Report.of src sev)

/-- A report about an address. -/
def raiseAt (s : State) (src : Nat) (sev : Severity) (addr : Nat) : State :=
  report s { Report.of src sev with info := BitVec.ofNat 64 addr }

/-- A store to a domain that takes no requests is dropped and counted, with CE (R345). -/
def darkStore (s : State) (d : Nat) : State :=
  report ((s.bump PWR_DARK.COUNT 1).put PWR_DARK.DOMAIN d) { Report.of src.dark .CE with far := d }

/-- The reports of a cord's strand: 3t + s of the strand that runs it, of strand A when the triad votes. -/
def strandSrc (s : State) (c : Nat) : Nat :=
  let t := s.triadOf c
  dom.strand t (if s.voted then 0 else s.strandOf t (s.shareOf c))

end Sys2Proof.Machine
end

