-- ==== Sys2Proof/Machine/Replay.lean ====
section
/-! DEFINITION. What a replay supplies and checks while cords run (R390 to R394). -/

namespace Sys2Proof.Machine

/-- Kinds of divergence (R391). -/
def dvk.RETIRE : Nat := 1
def dvk.DIGEST : Nat := 2
def dvk.ORDER : Nat := 3
def dvk.INPUT : Nat := 4
def dvk.LATE : Nat := 5
def dvk.GAP : Nat := 6
def dvk.UNRECORDED : Nat := 7

/-- The pick offset of the replay. -/
def State.replayPick (s : State) : Nat := s.pick - s.rpl.startPick

/-- A divergence written to RPL_DIV, RPL_DIVEXP and RPL_DIVOBS. -/
def divReport (s : State) (kind c exp obs : Nat) : State :=
  let s := (((s.put RPL_DIV.PICK s.replayPick).put RPL_DIV.CORD c).put RPL_DIV.KIND kind).putFlag RPL_DIV.VALID true
  let s := (s.put RPL_DIVEXP.VALUE exp).put RPL_DIVOBS.VALUE obs
  { s with rpl := { s.rpl with divCord := some c, divNow := true } }

/-- A divergence (R392): the first is reported with CE; later ones are counted, and a lower cord of the same pick is reported
instead. -/
def diverge (s : State) (kind c exp obs : Nat) : State :=
  match s.rpl.divCord with
  | none => raise (divReport s kind c exp obs) src.record .CE
  | some d =>
    let s := s.bump RPL_STAT.DIVCNT 1
    if s.rpl.divNow ∧ c < d then divReport s kind c exp obs else s

/-- A device load or RDTIME of a replayed cord: the journaled value, or 0 with UNRECORDED. -/
def replayValue (s : State) (c : Nat) : State × Nat :=
  match takeJournal s rplType.VALUE c with
  | some (s, r) => (s, jr.value r)
  | none => (diverge s dvk.UNRECORDED c 0 0, 0)

/-- A cord whose inputs come from the journal. -/
def State.replayed (s : State) (c : Nat) : Bool := s.replaying && s.recorded c

/-- The digest of a cord at the end of its work (R382). -/
def Core.digestEnd (k : Core) : Nat := crc64 k.digest.toNat (bytesOf k.retire.toNat 8)

/-- In an open-weave replay the digest is compared when the cord reaches the recorded retire count; several DIGEST records
may carry the same count (R394). -/
def openDigest (s : State) (c : Nat) : Nat → State
  | 0 => s
  | n + 1 =>
    if s.closedWeave ∨ !s.replayed c then s
    else
      match takeJournal s rplType.DIGEST c with
      | none => s
      | some (s, r) =>
        let d := (s.cord c).digestEnd
        let s := if jr.value r = d then s else diverge s dvk.DIGEST c (jr.value r) d
        openDigest (s.modCord c (fun k => { k with digest := 0 })) c n

end Sys2Proof.Machine
end

