-- ==== Sys2Proof/Machine/Flit.lean ====
section
/-! DEFINITION. The bytes of flits and frames on a Weft link: Reed–Solomon check bytes, CRC-32C, headers and control messages (R247 to
R249, R253, R254). The spec names no field polynomial, root or byte order of the code: log 44. -/

namespace Sys2Proof.Machine

/-! ### GF(2^8) (R249) -/

/-- A field element times x. -/
def gfX (a : Byte) : Byte := if a.getLsbD 7 then (a <<< 1) ^^^ Config.fecPoly else a <<< 1

/-- The product with the top n bits of b. -/
def gfTop (a b : Byte) : Nat → Byte
  | 0 => 0
  | n + 1 => gfX (gfTop a b n) ^^^ (if b.getLsbD (7 - n) then a else 0)

def gfMul (a b : Byte) : Byte := gfTop a b 8

def gfPow (a : Byte) : Nat → Byte
  | 0 => 1
  | n + 1 => gfMul a (gfPow a n)

/-- The inverse of an element other than 0. -/
def gfInv (a : Byte) : Byte := gfPow a 254

/-! ### One interleave (R249) -/

/-- A remainder by the code's generator, whose roots are two consecutive powers of x: the two check bytes. -/
structure Rem where
  hi : Byte
  lo : Byte
  deriving DecidableEq, Repr

/-- The remainder once one more byte has come. -/
def Rem.next (r : Rem) (x : Byte) : Rem :=
  let a := gfPow 2 Config.fecRoot
  let b := gfX a
  let f := x ^^^ r.hi
  { hi := r.lo ^^^ gfMul f (a ^^^ b), lo := gfMul f (gfMul a b) }

/-- The check bytes of an interleave. -/
def fecCheck (bs : List Byte) : Rem := bs.foldl Rem.next { hi := 0, lo := 0 }

/-- The interleave, last byte first, with the one byte corrected whose error leaves remainder `e`; `p` is what an error of 1 in the
byte at hand leaves. -/
def fecFind (e : Rem) : Rem → List Byte → Option (List Byte)
  | _, [] => none
  | p, x :: t =>
    if (p.hi ≠ 0 ∨ p.lo ≠ 0) ∧ gfMul e.hi p.lo = gfMul e.lo p.hi then
      some ((x ^^^ (if p.hi ≠ 0 then gfMul e.hi (gfInv p.hi) else gfMul e.lo (gfInv p.lo))) :: t)
    else (fecFind e (p.next 0) t).map (x :: ·)

/-- An interleave received with its check bytes: corrected where one byte was wrong, and whether one was. An interleave with more
errors stays as it is. -/
def fecFix (bs : List Byte) (c : Rem) : List Byte × Bool :=
  let r := fecCheck bs
  let e : Rem := { hi := r.hi ^^^ c.hi, lo := r.lo ^^^ c.lo }
  if e.hi = 0 ∧ e.lo = 0 then (bs, false)
  else if e.hi = 0 ∨ e.lo = 0 then (bs, true)
  else
    match fecFind e (Rem.next { hi := 0, lo := 0 } 1) bs.reverse with
    | some l => (l.reverse, true)
    | none => (bs, false)

/-- The bytes of interleave k among bytes 0 to 249. -/
def laneOf (bs : List Byte) (k : Nat) : List Byte := (((bs.take 250).zipIdx).filter (fun e => e.2 % 3 == k)).map (·.1)

/-- Bytes 250 to 255 of a flit. -/
def fecBytes (bs : List Byte) : List Byte :=
  let cs := (List.range 3).map (fun k => fecCheck (laneOf bs k))
  cs.map Rem.hi ++ cs.map Rem.lo

/-- Bytes 0 to 249 of a flit after correction, and the number of bytes corrected. -/
def fecDecode (bs : List Byte) : List Byte × Nat :=
  let ls := (List.range 3).map (fun k => fecFix (laneOf bs k) { hi := bs.getD (250 + k) 0, lo := bs.getD (253 + k) 0 })
  ((List.range 250).map (fun i => ((ls.getD (i % 3) ([], false)).1).getD (i / 3) 0), (ls.filter (·.2)).length)

/-! ### Flits (R248) -/

/-- A flit read: its header, payload, the bytes that the FEC corrected and whether the CRC holds after it. -/
structure Flit where
  kind : Nat
  fseq : Nat
  ackSeq : Nat
  nak : Bool
  ackv : Bool
  credit : Nat
  corrected : Nat
  crcOk : Bool
  body : List Byte
  deriving DecidableEq, Repr

/-- The 256 bytes that arrive read as a flit: corrected first, then checked. Reserved-zero bits are not looked at. -/
def flitOf (bs : List Byte) : Flit :=
  let (b, n) := fecDecode bs
  let fh := ofBytes (b.take 2)
  let ack := ofBytes ((b.drop 2).take 2)
  { kind := bits fh 0 2, fseq := bits fh 2 10, ackSeq := bits ack 0 10, nak := bitAt ack 10, ackv := bitAt ack 11
    credit := bits (ofBytes ((b.drop 4).take 2)) 0 12, corrected := n
    crcOk := ofBytes ((b.drop 246).take 4) == crc32c (b.take 246), body := (b.drop 6).take 240 }

/-- The 256 bytes of a flit; `corrected` and `crcOk` are no part of it. -/
def Flit.bytes (f : Flit) : List Byte :=
  let b := bytesOf (f.kind + f.fseq * 4) 2 ++ bytesOf (f.ackSeq + boolNat f.nak * 2 ^ 10 + boolNat f.ackv * 2 ^ 11) 2 ++ bytesOf f.credit 2
    ++ (f.body ++ List.replicate 240 0).take 240
  let b := b ++ bytesOf (crc32c b) 4
  b ++ fecBytes b

/-! ### Control messages (R247) -/

/-- The INIT message in the payload of a control flit. -/
def initOf (b : List Byte) : InitMsg :=
  { version := (b.getD 1 0).toNat, credits := ofBytes ((b.drop 2).take 2), fseq := ofBytes ((b.drop 4).take 2)
    kind := (b.getD 6 0).toNat, mid := (b.getD 7 0).toNat, ident := BitVec.ofNat 64 (ofBytes ((b.drop 8).take 8)) }

def initBytes (m : InitMsg) : List Byte :=
  [1, BitVec.ofNat 8 m.version] ++ bytesOf m.credits 2 ++ bytesOf m.fseq 2 ++ [BitVec.ofNat 8 m.kind, BitVec.ofNat 8 m.mid]
    ++ bytesOf m.ident.toNat 8

/-! ### Frames (R253, R254) -/

/-- The 32 bytes of a frame's header. -/
def headerBytes (f : Frame) : List Byte :=
  bytesOf (f.typ + f.smid * 2 ^ 8 + f.ver * 2 ^ 12 + f.session * 2 ^ 16 + f.subch * 2 ^ 32 + f.device * 2 ^ 48) 8
    ++ bytesOf (f.seq + f.len * 2 ^ 48 + boolNat f.poison * 2 ^ 61 + boolNat f.last * 2 ^ 62) 8
    ++ bytesOf (f.count + f.cmd * 2 ^ 32 + f.md * 2 ^ 40) 8
    ++ bytesOf (f.ccwno + f.dstat.toNat * 2 ^ 16) 8

/-- Header, payload, CRC and padding to 16 bytes (R253). -/
def frameBytes (f : Frame) : Nat := (36 + f.len + 15) / 16 * 16

/-- The bytes of a frame: header, payload, CRC-32C over both, and zeros to the next 16-byte boundary. -/
def wireBytes (f : Frame) : List Byte :=
  let b := headerBytes f ++ f.payload
  let b := b ++ bytesOf (crc32c b) 4
  b ++ List.replicate (frameBytes f - b.length) 0

/-- The frame whose header, payload and CRC stand at the start of the bytes. -/
def frameAt (bs : List Byte) : Frame :=
  let w (i : Nat) : Nat := ofBytes ((bs.drop (8 * i)).take 8)
  let len := bits (w 1) 48 13
  { typ := bits (w 0) 0 8, smid := bits (w 0) 8 4, ver := bits (w 0) 12 4, session := bits (w 0) 16 16, subch := bits (w 0) 32 16
    device := bits (w 0) 48 16, seq := bits (w 1) 0 48, len := len, poison := bitAt (w 1) 61, last := bitAt (w 1) 62
    count := bits (w 2) 0 32, cmd := bits (w 2) 32 8, md := bits (w 2) 40 16, ccwno := bits (w 3) 0 12
    dstat := BitVec.ofNat 16 (bits (w 3) 16 16)
    rzOk := !bitAt (w 1) 63 && bits (w 2) 56 8 == 0 && bits (w 3) 12 4 == 0 && bits (w 3) 32 32 == 0
    crcOk := ofBytes ((bs.drop (32 + len)).take 4) == crc32c (bs.take (32 + len)), payload := (bs.drop 32).take len }

/-- The frames that stand whole in a stream of payload bytes, and what is left; units of 16 bytes that begin with zero where a frame
could start are padding (R253). The fuel is the number of units. -/
def framesIn : Nat → List Byte → List Frame × List Byte
  | 0, bs => ([], bs)
  | n + 1, bs =>
    if bs.length < 16 then ([], bs)
    else if bs.headD 0 = 0 then framesIn n (bs.drop 16)
    else if bs.length < 32 ∨ bs.length < frameBytes (frameAt bs) then ([], bs)
    else
      let (fs, r) := framesIn n (bs.drop (frameBytes (frameAt bs)))
      (frameAt bs :: fs, r)

/-- Bytes cut into flit payloads of 240 bytes, the last filled with zeros. -/
def flitBodies (bs : List Byte) : Nat → List (List Byte)
  | 0 => []
  | n + 1 => if bs.isEmpty then [] else (bs ++ List.replicate 240 0).take 240 :: flitBodies (bs.drop 240) n

end Sys2Proof.Machine
end

