-- ==== Sys2Proof/Machine/MemCtl.lean ====
section
/-! DEFINITION. A memory controller at work: reading and decoding sectors, its error logs, the merge buffer and the patrol
scrub (R190, R195 to R198, R200, R201, R203), and the reads and writes of a home above it. -/

namespace Sys2Proof.Machine

/-! ### Error logs (R198, MEM_UELOG) -/

/-- The source a controller reports on. -/
def memSrc (h : Nat) : Nat := src.mem h

/-- A corrected error logged in the ring. -/
def ceLog (s : State) (h sec dev : Nat) (scrub erased : Bool) : State :=
  let head := s.get (MEM_CEPTR.HEAD h)
  let last := (head + 63) % 64
  if s.flag (MEM_CELOG_B.VALID h last) ∧ s.get (MEM_CELOG_A.SECTOR h last) = sec then
    s.bump (MEM_CELOG_B.COUNT h last) 1
  else
    let full : Bool := (head + 1) % 64 == s.get (MEM_CEPTR.TAIL h)
    let s := (s.wr (MEM_CELOG_A.off h head) (sec * 64)).wr (MEM_CELOG_B.off h head)
      (dev + subchOf sec * 2 ^ 4 + rankOf s h sec * 2 ^ 5 + 1 * 2 ^ 8 + boolNat scrub * 2 ^ 24 + boolNat erased * 2 ^ 25
        + 2 ^ 63)
    let s := s.put (MEM_CEPTR.HEAD h) ((head + 1) % 64)
    if full then (s.put (MEM_CEPTR.TAIL h) ((s.get (MEM_CEPTR.TAIL h) + 1) % 64)).bump (MEM_CEPTR.LOSTCNT h) 1 else s

/-- MEM_UELOG: the first event is kept, a later one sets OVERFLOW. KIND 0 demand, 1 scrub, 2 handover, 3 merge. -/
def ueLog (s : State) (h sec kind : Nat) : State :=
  if s.flag (MEM_UELOG.VALID h) then s.putFlag (MEM_UELOG.OVERFLOW h) true
  else s.wr (MEM_UELOG.off h) (sec * 64 + kind * 2 ^ 48 + 2 ^ 63)

/-- The module-physical address of a sector of this module. -/
def secAddr (s : State) (sec : Nat) : Nat := s.mid * 2 ^ 48 + sec * 64

/-- A poisoned sector detected for the first time: UELOG and DE (R201). -/
def detect (s : State) (h sec kind : Nat) : State :=
  if mget s.mem.seen sec false then s
  else
    let s := { s with mem := { s.mem with seen := mput s.mem.seen sec true false } }
    raiseAt (ueLog s h sec kind) (memSrc h) .DE (secAddr s sec)

/-! ### Reads of a sector -/

/-- A stored sector read and decoded; its data and whether it is delivered poisoned (R190). The data of an
uncorrectable word is a free value. -/
def readStored (s : State) (h sec kind : Nat) : State × Nat × Bool :=
  match sectorFound s h sec with
  | .clean => let (d, s) := sectorPlain s h sec; (s, d, false)
  | .corrected dev erased =>
    let (d, s) := sectorPlain s h sec
    (raiseAt (ceLog s h sec dev (kind == 1) erased) (memSrc h) .CE (secAddr s sec), d, false)
  | .poisoned => let (d, s) := sectorPlain s h sec; (s, d, true)
  | .uncorrectable =>
    (detect { s with free := s.free + 8 } h sec kind, freeSector s.free, true)

/-! ### The merge buffer (R195, R196) -/

/-- A closed entry's read-modify-write; an uncorrectable read makes the merged sector poisoned, with DE, and so does poison that
came with the bytes (R200). -/
def closeMerge (s : State) (h : Nat) (e : MergeEnt) : State :=
  let s := s.modCtl h (fun c => { c with merge := c.merge.erase e })
  let (s, d, p) := readStored s h e.sector 3
  let data := mergeBytes d e.bytes.toNat e.mask.toNat 64
  let seen := mget s.mem.seen e.sector false
  let s := writeSector (s.account e.tenant led.MEM_BYTES 128) h e.sector data (e.poison || (p && e.mask != BitVec.allOnes 64)) false
  if seen ∧ p then { s with mem := { s.mem with seen := mput s.mem.seen e.sector true false } } else s

/-- The open entry of a sector, closed. -/
def closeSector (s : State) (h sec : Nat) : State :=
  match mergeEntry s h sec with
  | some e => closeMerge s h e
  | none => s

/-- A new entry of a sector. -/
def MergeEnt.of (s : State) (sec tenant mask bytes : Nat) (poison : Bool) : MergeEnt :=
  { sector := sec, tenant := tenant, mask := BitVec.ofNat 64 mask, bytes := BitVec.ofNat 512 bytes, poison := poison, opened := s.time.now }

/-- A further write merged into an entry of its sector. -/
def MergeEnt.add (x : MergeEnt) (mask bytes : Nat) (poison : Bool) : MergeEnt :=
  { x with mask := x.mask ||| BitVec.ofNat 64 mask, bytes := BitVec.ofNat 512 (mergeBytes x.bytes.toNat bytes mask 64)
           poison := x.poison || poison }

/-- An entry opened; the oldest closes first when all 8 are open. -/
def openMerge (s : State) (h sec tenant mask bytes : Nat) (poison : Bool) : State :=
  let s := if (s.ctl h).merge.length < 8 then s
    else
      match (s.ctl h).merge with
      | e :: _ => closeMerge s h e
      | [] => s
  s.modCtl h (fun c => { c with merge := c.merge ++ [MergeEnt.of s sec tenant mask bytes poison] })

/-- Fewer than 64 bytes of a sector written: gathered in the merge buffer (R195). -/
def mergeWrite (s : State) (h sec tenant mask bytes : Nat) (poison : Bool) : State :=
  match mergeEntry s h sec with
  | some e =>
    if e.tenant = tenant then
      s.modCtl h (fun c => { c with merge := c.merge.map (fun x => if x.sector = sec then x.add mask bytes poison else x) })
    else openMerge (closeMerge s h e) h sec tenant mask bytes poison
  | none => openMerge s h sec tenant mask bytes poison

/-- The beat is the last of a run that a tenant owns at a table (R24, R196). -/
def runEnds (s : State) (t n : Nat) : Bool := s.beatOwner t s.beat == some n && s.beatOwner t (s.beat + 1) != some n

/-- Part of a line may be written at the device now: in closed weave not once the entries of the tenant's run have closed (R196); the
flush reserve writes in house and unowned beats (R419). -/
def partNow (s : State) (h tenant : Nat) (house : Bool) : Bool :=
  writesNow s h tenant house
    && (house || !(s.closedWeave && runEnds s (table.mem h) tenant && decide (160 ≤ s.since % 200)))

/-- Bytes of a line written at the controller: covered sectors whole, the others through the merge buffer. -/
def putPart (s : State) (h low : Nat) (mask : LineMask) (bytes : LineData) (poison : BitVec 4) (tenant : Nat) : State :=
  (List.range 4).foldl (fun s i =>
    let m := maskSector mask i
    if m = 0 then s
    else if m = 2 ^ 64 - 1 then
      writeSector (s.account tenant led.MEM_BYTES 64) h (low * 4 + i) (lineSector bytes i) (bitAt poison.toNat i) false
    else mergeWrite s h (low * 4 + i) tenant m (lineSector bytes i) (bitAt poison.toNat i)) s

/-- As `putPart`, for a new write, over those that wait. -/
def storePart (s : State) (h low : Nat) (mask : LineMask) (bytes : LineData) (poison : BitVec 4) (tenant : Nat) : State :=
  putPart (supersede s low mask) h low mask bytes poison tenant

/-- Bytes of a line handed to the controller: written when their tenant may issue, else set waiting. -/
def devicePart (s : State) (h low : Nat) (mask : LineMask) (bytes : LineData) (poison : BitVec 4) (tenant : Nat)
    (house : Bool) : State :=
  if partNow s h tenant house then
    storePart (if house then s else s.noteIssue (table.mem h) tenant) h low mask bytes poison tenant
  else
    s.await { table := table.mem h, tenant := tenant, line := low, issued := false
              what := .write h mask bytes poison .none house }

/-- A writeback that waited has been made: its eviction-buffer entry is acknowledged (R172, R177). -/
def slotDone (s : State) (slot : WbSlot) : State :=
  match slot with
  | .entry tag =>
    if tag < 768 then s.answerTo (tag / 16) 0 (.wbAck (tag / 16) (tag % 16))
    else s.answerTo (tag / 768 + 63) 0 (.wbAck (tag / 768 + 63) (tag % 768))
  | _ => s

/-- A write that waited is made, over the older ones that still wait. -/
def waitedWrite (s : State) (w : Waiting) : State :=
  match w.what with
  | .write h m b p slot _ =>
    let before := s.loom.waiting.takeWhile (· ≠ w)
    let after := (s.loom.waiting.dropWhile (· ≠ w)).drop 1
    let s := { s with loom := { s.loom with waiting := before.map (·.superseded w.line m) ++ after } }
    slotDone (putPart s h w.line m b p w.tenant) slot
  | _ => s

/-- The tenant's merge entries at a controller closed. -/
def closeTenant (s : State) (h tenant : Nat) : State :=
  ((s.ctl h).merge.filter (fun e => e.tenant == tenant)).foldl (fun s e => closeMerge s h e) s

/-- Closed weave, rclk 160 of a beat: the open entries of every tenant whose run of beats ends close (R196). -/
def closeRuns (s : State) : State :=
  if s.closedWeave then
    (List.range Config.homes).foldl (fun s h =>
      match s.beatOwner (table.mem h) s.beat with
      | some n => if runEnds s (table.mem h) n then closeTenant s h n else s
      | none => s) s
  else s

/-- A sector read for a requester: an open entry of it closes first. -/
def readSector (s : State) (h sec : Nat) : State × Nat × Bool := readStored (closeSector s h sec) h sec 0

/-! ### Failed handovers (R203) -/

/-- Sectors whose fabric check fails at the controller: logged and reported. -/
def handoverFail (s : State) (h line : Nat) (bad : BitVec 4) : State :=
  (List.range 4).foldl (fun s i =>
    if bitAt bad.toNat i then
      let sec := lowLine line * 4 + i
      let s := { s with mem := { s.mem with seen := mput s.mem.seen sec true false } }
      raiseAt (ueLog s h sec 2) (memSrc h) .DE (secAddr s sec)
    else s) s

/-! ### A line read and written at its home -/

/-- The four sectors of a line from the controller, with the writes that wait there. -/
def readLineCtl (s : State) (h low : Nat) : State × LineData × BitVec 4 :=
  let (s, d, p) := (List.range 4).foldl (fun (x : State × LineData × BitVec 4) i =>
    let (s, d, p) := readSector x.1 h (low * 4 + i)
    (s, x.2.1 ||| BitVec.ofNat 2048 (d * 2 ^ (512 * i)), if p then x.2.2 ||| BitVec.ofNat 4 (2 ^ i) else x.2.2))
    (s, 0, 0)
  (s, overWaiting s low d p)

/-- Whether a read of the line reaches the memory device: the warp cache does not hold it. -/
def needsDevice (s : State) (h line : Nat) : Bool := (warpLine s h (lowLine line)).isNone

/-- A line read at its home for a tenant: from the warp cache, or from the controller into it (R154). -/
def homeRead (s : State) (h line tenant : Nat) : State × LineData × BitVec 4 :=
  let low := lowLine line
  match warpLine s h low with
  | some w => (s, w.bytes, w.poison)
  | none =>
    let (s, d, p) := readLineCtl (s.account tenant led.MEM_BYTES 256) h low
    match warpRoom s h low tenant with
    | (s, some way) =>
      ({ s with warp := mset s.warp low { bytes := d, dirty := 0, poison := p, tenant := tenant, way := way } }, d, p)
    | (s, none) => (s, d, p)

/-- Bytes of a line written at its home (R176, R195): into the warp cache when it holds the line, else whole sectors to
the controller and parts of sectors through its merge buffer. Covered sectors lose their poison; `poison` are sectors whose
bytes come poisoned (R200). -/
def homePartial (s : State) (h line tenant : Nat) (mask : LineMask) (bytes : LineData) (poison : BitVec 4) (house : Bool) : State :=
  let low := lowLine line
  match warpLine s h low with
  | some w =>
    homeSectors s h line (touched mask) (mergeLine w.bytes bytes mask)
      ((w.poison &&& ~~~covered mask) ||| (poison &&& touched mask)) tenant .none
  | none => devicePart (undoRecord s h low) h low mask bytes poison tenant house

/-! ### Patrol scrub (R197) -/

/-- The lowest low address of a controller's line number, none beyond its memory. -/
def ctlLine (s : State) (h n : Nat) : Option Nat :=
  if h < 16 then
    let k := s.kBytes
    if k / 256 ≤ n then none else some ((h / 2 * (2 * k) + n * 512) / 256 + h % 2)
  else
    if s.hdmSize (h - 16) / 256 ≤ n then none
    else some ((0x100000000000 + (h - 16) * 0x30000000000) / 256 + n)

/-- Lines of a controller. -/
def ctlLines (s : State) (h : Nat) : Nat := if h < 16 then s.kBytes / 256 else s.hdmSize (h - 16) / 256

/-- One sector scrubbed: a CE is corrected in memory and logged, an uncorrectable word is logged, and rewritten as
poisoned under POISON. The read closes an open merge entry of the sector first (R195). -/
def scrubSector (s : State) (h sec : Nat) : State :=
  let s := closeSector s h sec
  match sectorFound s h sec with
  | .clean => s
  | .poisoned => s
  | .corrected dev erased =>
    let s := raiseAt (ceLog s h sec dev true erased) (memSrc h) .CE (secAddr s sec)
    { s with mem := { s.mem with errs := mput s.mem.errs sec [] [] } }
  | .uncorrectable =>
    let s := detect s h sec 1
    if s.poisonPolicy then
      { s with mem := { s.mem with errs := mput s.mem.errs sec [] [], poison := mput s.mem.poison sec true false } }
    else s

def scrubLine (s : State) (h line : Nat) : State :=
  (List.range 4).foldl (fun s i => scrubSector s h (line * 4 + i)) s

/-- n lines scrubbed from where the last house beat stopped; a pass ends at the controller's last line. -/
def scrubLines (s : State) (h : Nat) : Nat → State
  | 0 => s
  | n + 1 =>
    let next := s.get (MEM_SCRUB.NEXT h)
    let s := match ctlLine s h next with
      | some l => scrubLine s h l
      | none => s
    let s := if ctlLines s h ≤ next + 1 then (s.put (MEM_SCRUB.NEXT h) 0).bump (MEM_SCRUB.PASSES h) 1
      else s.put (MEM_SCRUB.NEXT h) (next + 1)
    scrubLines s h n

/-- The scrub of a house beat at every controller in use. -/
def scrubAll (s : State) : State :=
  (List.range Config.homes).foldl (fun s h =>
    if ctlLines s h = 0 ∨ s.flag (MEM_FILLSTAT.UNUSED h) ∨ !s.domOn (dom.mem h) then s
    else scrubLines s h (s.get (MEM_SCRUB.RATE h))) s

end Sys2Proof.Machine
end

