-- ==== Sys2Proof/Machine/Home.lean ====
section
/-! DEFINITION. Homes: requests served by the directory, message by message (R165 to R176), and the same transactions run
to their end at once for an access of this module. -/

namespace Sys2Proof.Machine

/-! ### The ALU of a home (R87, R175) -/

/-- A value's signed reading in w bits. -/
def signedOf (w x : Nat) : Int := if x % 2 ^ w < 2 ^ (w - 1) then (x % 2 ^ w : Nat) else ((x % 2 ^ w : Nat) : Int) - 2 ^ w

/-- The new value of an atomic operation on w bits; none for an undefined AOP. CAS takes expected and new. -/
def atomOp (w aop old x y : Nat) : Option Nat :=
  let x := x % 2 ^ w
  let y := y % 2 ^ w
  match aop with
  | 0 => some ((old + x) % 2 ^ w)
  | 1 => some (old &&& x)
  | 2 => some (old ||| x)
  | 3 => some (old ^^^ x)
  | 4 => some x
  | 5 => some (if old = x then y else old)
  | 6 => some (if signedOf w old ≤ signedOf w x then old else x)
  | 7 => some (if signedOf w x ≤ signedOf w old then old else x)
  | 8 => some (min old x)
  | 9 => some (max old x)
  | _ => none

/-! ### The end of a transaction -/

/-- A request needs the line's data from the home: no cache has forwarded it and the requester has none. -/
def needsData (d : DirEnt) (k : ReqKind) (src : Nat) (t : Told) : Bool :=
  match k with
  | .rdS => !t.fwd && !(t.evicting)
  | .rdO => !t.fwd && !(t.evicting)
  | .upg => !t.fwd && !(t.evicting) && !hasData d .upg src
  | .rdOnce => !t.fwd && !(t.evicting)
  | .atom _ _ _ _ _ => true
  | _ => false

/-- A grant: the state, the sectors for the requester, and an atomic's old value with its poison. -/
structure Grant where
  st : Moesi
  copy : Option Copy
  old : Nat
  poison : Bool
  deriving DecidableEq, Repr

def Grant.plain (st : Moesi) (c : Option Copy) : Grant := { st := st, copy := c, old := 0, poison := false }

/-- The dirty sectors of the owner of a line of this module written to its home, the copy then clean (CLEAN of R158). -/
def cleanCopy (s : State) (t line : Nat) : State :=
  let c := s.l2At t line
  if c.st = .M ∨ c.st = .O then
    (sectorsHome s line (agentOwner s t line) c.copy .none).setL2 t line { c with dirty := 0, st := if c.st = .M then .E else .S }
  else s

/-- The reservations of other triads and of Shuttles that a grant of ownership ends (R134). -/
def resvsOthers (s : State) (line src : Nat) : State :=
  (List.range Config.triads).foldl (fun s t => if t = src then s else resvsMet s t line false none) (shutResvs s line)

/-- A kind of request by which its agent comes to hold the line as its only copy. -/
def ReqKind.owns (k : ReqKind) : Bool := k == .rdO || k == .rdOZ || k == .upg

/-- A far atomic carried out at its home (R175): on bytes of the current line, written back with the poison of an operand whose
check failed (R203). -/
def homeAtom (s : State) (h line : Nat) (q : Req) (addr : Nat) (wide : Bool) (aop : BitVec 4) (x y : Word) : State × Grant :=
  let n := if wide then 8 else 4
  let (s, bytes, poison) := homeRead s h line q.tenant
  let o := addr % 256 / n * n
  let old := lineBytes bytes o n
  let g : Grant := { st := .I, copy := none, old := old, poison := bitAt poison.toNat (o / 64) }
  match atomOp (8 * n) aop.toNat old x.toNat y.toNat with
  | some v =>
    let bad := q.bad &&& touched (spanMask o n)
    (handoverFail (homePartial (resvsWritten s line none) h line q.tenant (spanMask o n) (spanBytes o v) bad q.house) h line bad, g)
  | none => (s, g)

/-- A transaction's last part at its home: the directory moves, data is read or written, reservations go (R169, R175,
R176). `copy` is what a cache forwarded. -/
def homeFinish (s : State) (h line : Nat) (k : ReqKind) (q : Req) (t : Told) (copy : Option Copy) : State × Grant :=
  let d := s.dirAt line
  let need := needsData d k q.src t
  let (d', g) := dirAfter d k q.src t
  let stamp := q.stamp.orElse (fun _ => d.stamp)
  let clean : Bool := k == .cmo .clean
  let s := if clean ∧ d.owner < 48 ∧ (d.st = .X ∨ d.st = .O) then cleanCopy s d.owner line else s
  let s := s.setDir line { d' with stamp := if d'.st = .I then none else stamp }
  let s := if k.owns then resvsOthers s line q.src else s
  match k with
  | .wrLine bytes poison =>
    let s := homeSectors (resvsWritten s line none) h line 15 bytes (poison ||| q.bad) q.tenant .none
    (handoverFail s h line q.bad, .plain .I none)
  | .wrPart mask bytes poison =>
    let bad := q.bad &&& touched mask
    let s := homePartial (resvsWritten s line none) h line q.tenant mask bytes (poison ||| bad) q.house
    ((handoverFail s h line bad).bump (COH_CNT.MERGE h) 1, .plain .I none)
  | .atom addr wide aop x y => homeAtom s h line q addr wide aop x y
  | _ =>
    if need then
      let (s, bytes, poison) := homeRead s h line q.tenant
      (s, .plain g (some { valid := 15, dirty := 0, poison := poison ||| q.bad, bytes := bytes }))
    else (s, .plain g (if k = .rdOZ then none else copy))

/-! ### Beats at a memory device (R24, R25) -/

/-- A waiting read of a tenant for a line. -/
def waitsFor (s : State) (t n line : Nat) : Option Waiting :=
  s.loom.waiting.find? (fun w => w.table == t && w.tenant == n && w.line == line && w.what == .read)

/-- A read of a line that must reach the device: whether it may issue now; else it waits for a beat. -/
def beatFor (s : State) (t n line : Nat) : State × Bool :=
  match waitsFor s t n line with
  | some w =>
    if w.issued then ({ s with loom := { s.loom with waiting := s.loom.waiting.erase w } }, true) else (s, false)
  | none =>
    if s.issuesNow t n then (s.noteIssue t n, true)
    else (s.await { table := t, tenant := n, line := line, issued := false, what := .read }, false)

/-- Whether serving the request will read the device: needed data that the warp cache does not hold. -/
def readsDevice (s : State) (h line : Nat) (k : ReqKind) (q : Req) (t : Told) : Bool :=
  needsData (s.dirAt line) k q.src t && needsDevice s h line

/-! ### Requests message by message -/

/-- A kind of request that writes memory. -/
def ReqKind.writes : ReqKind → Bool
  | .wrLine _ _ => true
  | .wrPart _ _ _ => true
  | .atom _ _ _ _ _ => true
  | _ => false

/-- A kind of request that makes a directory entry. -/
def ReqKind.allocs : ReqKind → Bool
  | .rdS => true
  | .rdO => true
  | .rdOZ => true
  | .upg => true
  | _ => false

/-- A kind of request that takes a merge-buffer entry of the home (R176). -/
def ReqKind.merges : ReqKind → Bool
  | .wrPart _ _ _ => true
  | _ => false

/-- Merge-buffer entries of a home in use: its WR_PARTs under way (R176). -/
def mergesHeld (s : State) (h : Nat) : Nat := (s.txns.filter (fun e => e.2.kind.merges && homeOfLine s e.1 == some h)).length

/-- A WR_PART finds the home's merge buffer full. -/
def mergesFull (s : State) (h : Nat) (k : ReqKind) : Bool := k.merges && decide (Config.mergeEntries ≤ mergesHeld s h)

/-- What the requester is sent: CMP, and DATA when there is some, an atomic's old value in its place in the line (R165, R175).
CMP reports a failed handover (R203). -/
def sendGrant (s : State) (k : ReqKind) (q : Req) (g : Grant) : State :=
  if q.src = selfReq then s
  else
    let s := s.answerTo q.src q.tenant (.cmp q.src q.line (if k.allocs then g.st else .I) (if q.bad = 0 then .good else .failed))
    match k with
    | .atom addr wide _ _ _ =>
      let n := if wide then 8 else 4
      let o := addr % 256 / n * n
      let v : BitVec 4 := touched (spanMask o n)
      s.answerTo q.src q.tenant (.data q.src q.line v 0 (if g.poison then v else 0) (spanBytes o g.old))
    | _ =>
      match g.copy with
      | some c => s.answerTo q.src q.tenant (.data q.src q.line c.valid c.dirty c.poison c.bytes)
      | none => s

/-- All answers are in: the home finishes. The transaction stays open while undo room or a directory way is wanting or the data
must wait for a beat (R25, R174, R322). -/
def homeComplete (s : State) (h : Nat) (x : Txn) : State × Bool :=
  let line := x.req.line
  let stay (s : State) : State × Bool := ({ s with txns := mset s.txns line x }, false)
  if x.kind.writes ∧ undoBlocks s h (lowLine line) then stay (s.putFlag SPL_STAT.UNDOWAIT true)
  else
    let (s, room) := if x.kind.allocs then dirRoom s h line else (s, true)
    if !room then stay s
    else
      let (s, go) := if readsDevice s h line x.kind x.req x.told then beatFor s (table.mem h) x.req.tenant line else (s, true)
      if !go then stay s
      else
        let (s, g) := homeFinish s h line x.kind x.req x.told none
        (sendGrant { s with txns := mdel s.txns line } x.kind x.req g, true)

/-- A request that an owner makes for the line it owns already: no cache sends it (log 3). -/
def selfOwned (d : DirEnt) (k : ReqKind) (src : Nat) : Bool :=
  k.allocs && (d.st == .X || (d.st == .O && k != .upg)) && d.owner == src

/-- A home takes a request up: snoops are sent, or it completes at once. A WR_PART that finds the merge buffer full waits. -/
def homeStart (s : State) (h : Nat) (k : ReqKind) (q : Req) : State :=
  let line := q.line
  if selfOwned (s.dirAt line) k q.src then s
  else if mergesFull s h k then s.modCtl h (fun c => { c with parts := c.parts ++ [(k, q)] })
  else if snoopPlan (s.dirAt line) k q.src = [] then
    (homeComplete s h { kind := k, req := q, waits := [], told := Told.none, queue := [] }).1
  else openTxn s k q

/-- A module that is to be admitted: a worker, or a standby twin (R314, R318). -/
def awaitsAdmission (s : State) : Bool :=
  !s.flag SPL_BOLT.ADMITTED && (s.role == 2 || (s.role != 0 && s.flag SPL_CFG.SPLICED && s.flag SPL_CFG.START))

/-- While the module leaves its bolt a request of another module is served as RD_ONCE (R335). -/
def homeDrains (s : State) (k : ReqKind) (q : Req) : ReqKind :=
  if s.flag SPL_LEAVE.BUSY ∧ 64 ≤ q.src ∧ k.allocs then .rdOnce else k

/-- A request that its home refuses: CMP says why (R183, R345). -/
def sendRefusal (s : State) (q : Req) (e : CmpEnd) : State :=
  if q.src = selfReq then s else s.answerTo q.src q.tenant (.cmp q.src q.line .I e)

/-- A request reaches its home (R169, R183): refused as a hole, queued behind the line's transaction, or taken up. -/
def homeRequest (s : State) (k : ReqKind) (q : Req) : State :=
  let k := homeDrains s k q
  match placeFor s (q.line * 256) q.tenant with
  | .mem h =>
    match mget? s.txns q.line with
    | some x => queueTxn s x k q
    | none => homeStart s h k q
  | _ => sendRefusal (countRefusal s (q.line * 256) q.tenant) q .hole

/-- A WR_PART that waited for a merge-buffer entry of a home takes one that has become free. -/
def partsGo (s : State) (h : Nat) : State :=
  match (s.ctl h).parts with
  | [] => s
  | (k, q) :: rest =>
    if mergesFull s h k then s else homeRequest (s.modCtl h (fun c => { c with parts := rest })) k q

/-- A transaction goes on: when no answer is outstanding it completes and the requests behind it are taken up in turn. -/
def txnGo (s : State) (line : Nat) : State :=
  match mget? s.txns line, homeOfLine s line with
  | some x, some h =>
    if x.waits = [] then
      let (s, done) := homeComplete s h x
      if done then partsGo (x.queue.foldl (fun s p => homeRequest s p.1 p.2) s) h else s
    else s
  | _, _ => s

/-- Every transaction whose answers are in and that has had to wait goes on if it can. -/
def txnsGo (s : State) : State := (s.txns.map Prod.fst).foldl txnGo s

/-- An answer of class RSP reaches the home of a line. -/
def homeAnswer (s : State) (agent line : Nat) (r : Rsp) : State :=
  match mget? s.txns line with
  | none => s
  | some x =>
    if agent ∈ x.waits then
      txnsGo { s with txns := mset s.txns line { x with waits := x.waits.erase agent, told := x.told.add r } }
    else s

/-! ### Requests run to their end at once -/

/-- How an access of this module at a home ends. -/
inductive Now where
  | done
  | waits
  | refused (e : CmpEnd)
  deriving DecidableEq, Repr

/-- A request of an agent of this module carried out at its home in one step; it waits while a transaction is open on
the line, while an agent of another module must answer, while a cache holds a snoop off (R168), while undo room, a directory way
or a merge-buffer entry is wanting, or for a beat. The selvedge has been checked. -/
def homeNow (s : State) (h : Nat) (k : ReqKind) (q : Req) : State × Now × Grant :=
  let line := q.line
  let none' : Grant := .plain .I none
  let plan := snoopPlan (s.dirAt line) k q.src
  if (mget? s.txns line).isSome ∨ mergesFull s h k then (s, .waits, none')
  else if k.writes ∧ undoBlocks s h (lowLine line) then (s.putFlag SPL_STAT.UNDOWAIT true, .waits, none')
  else if asksProxy plan then (homeStart s h k q, .waits, none')
  else if planHeld s line plan then (s, .waits, none')
  else
    let (s, room) := if k.allocs then dirRoom s h line else (s, true)
    if !room then (s, .waits, none')
    else
      let guess : Told := if plan.any (fun p => p.1 == .S || p.1 == .O || p.1 == .C) then { Told.none with fwd := true } else Told.none
      let (s, go) := if readsDevice s h line k q guess then beatFor s (table.mem h) q.tenant line else (s, true)
      if !go then (s, .waits, none')
      else
        let (s, told, copy) := snoopAll s h line q.src (k == .cmo .inval) plan Told.none none
        let (s, g) := homeFinish s h line k q told copy
        (s, .done, g)

/-- A request without a knot. -/
def Req.of (src line tenant : Nat) : Req := { src := src, line := line, tenant := tenant, stamp := none, bad := 0 }

/-- A line's home takes a write from inside the module at once. -/
def takesNow (s : State) (h : Nat) (k : ReqKind) (q : Req) : Bool :=
  (mget? s.txns q.line).isNone && !undoBlocks s h (lowLine q.line) && !mergesFull s h k && planNow s q.line (snoopPlan (s.dirAt q.line) k q.src)

/-- A write from inside the module handed to a line's home, which takes it at once or, while it cannot, keeps it in the line's
transaction (R169, R176). -/
def writeNow (s : State) (h : Nat) (k : ReqKind) (q : Req) : State :=
  let plan := snoopPlan (s.dirAt q.line) k q.src
  match mget? s.txns q.line with
  | some x => queueTxn s x k q
  | none =>
    if undoBlocks s h (lowLine q.line) then openTxn (s.putFlag SPL_STAT.UNDOWAIT true) k q
    else if mergesFull s h k then s.modCtl h (fun c => { c with parts := c.parts ++ [(k, q)] })
    else if planNow s q.line plan then
      let (s, told, copy) := snoopAll s h q.line q.src false plan Told.none none
      (homeFinish s h q.line k q told copy).1
    else openTxn s k q

/-! ### Requests that await their answers (R166) -/

/-- The record of a request that an agent has out. -/
def State.owedFor (s : State) (agent who line : Nat) (k : ReqKind) : Option Owed :=
  s.owed.find? (fun o => o.agent == agent && o.who == who && o.line == line && o.kind == k)

/-- A request goes out: its CMP slot and data buffer are reserved. -/
def State.owe (s : State) (agent who line : Nat) (k : ReqKind) : State :=
  { s with owed := s.owed ++ [{ agent := agent, who := who, line := line, kind := k, cmp := none, copy := none }] }

/-- The module that serves a line homed elsewhere. -/
def farModule (s : State) (line : Nat) : Option Nat :=
  match placeOf s (line * 256) with
  | .remote m => some m
  | .farMmio m => some m
  | .farWindow m _ => some m
  | _ => none

/-- A request for a line of another module sent to its home there; a write of the flush reserve goes out in the beat it is given
(R311, R312, R419). -/
def farAsk (s : State) (who : Nat) (k : ReqKind) (q : Req) : State :=
  match farModule s q.line with
  | some m =>
    let s := s.owe q.src who q.line k
    if q.house then s.sendOn 0 (.req k { q with house := false }) else s.sendFar m q.line q.tenant (.req k q)
  | none => s

/-- A request is answered by data, not by CMP alone. -/
def ReqKind.answers : ReqKind → Bool
  | .rdOnce => true
  | .atom _ _ _ _ _ => true
  | _ => false

/-- A request whose end its requester itself takes up: any but a plain write. -/
def ReqKind.noted (k : ReqKind) : Bool :=
  match k with
  | .wrLine _ _ => false
  | .wrPart _ _ _ => false
  | _ => true

/-- Everything owed for a request has come: its CMP, and its data unless it was refused. -/
def Owed.complete (o : Owed) : Bool :=
  match o.cmp with
  | none => false
  | some e => e.refuses || !o.kind.answers || o.copy.isSome

/-- How an access ends on the answers to its request. -/
def Owed.end_ (o : Owed) : Now :=
  match o.cmp with
  | some e => if e.refuses then .refused e else .done
  | none => .waits

/-- What the answers grant: the data, an atomic's old value at its place. -/
def Owed.grant (o : Owed) : Grant :=
  let c : LineData × BitVec 4 := o.copy.getD (0, 0)
  match o.kind with
  | .atom addr wide _ _ _ =>
    let n := if wide then 8 else 4
    let b := addr % 256 / n * n
    { st := .I, copy := none, old := lineBytes c.1 b n, poison := bitAt c.2.toNat (b / 64) }
  | _ => .plain .I (some { valid := 15, dirty := 0, poison := c.2, bytes := c.1 })

/-- A request that caches nothing, for requester `who` of its agent: done at its home here, or sent, after which its answers are
awaited. -/
def onceNow (s : State) (who : Nat) (k : ReqKind) (q : Req) : State × Now × Grant :=
  match s.owedFor q.src who q.line k with
  | some o => if o.complete then ({ s with owed := s.owed.erase o }, o.end_, o.grant) else (s, .waits, .plain .I none)
  | none =>
    match homeOfLine s q.line with
    | some h =>
      if (mget? s.txns q.line).isNone ∧ asksProxy (snoopPlan (s.dirAt q.line) k q.src) then
        homeNow (s.owe q.src who q.line k) h k q
      else homeNow s h k q
    | none => (farAsk s who k q, .waits, .plain .I none)

/-! ### Fills and evictions of an L2 -/

/-- The bits of the strands that run a place: all three in Voted, one in Split execution. -/
def l1Bits (s : State) (t place : Nat) : BitVec 3 :=
  if s.voted then 7 else BitVec.ofNat 3 (2 ^ s.strandOf t place)

/-- A line newly granted to an L2, in a way; one granted in M or E is held for its hitch time (R168). -/
def install (s : State) (t place line way : Nat) (st : Moesi) (c : Copy) : State :=
  s.setL2 t line { st := st, valid := c.valid, dirty := c.dirty, poison := c.poison, bytes := c.bytes, way := way, share := place
                   l1d := 0, l1i := 0, held := st == .M || st == .E }

/-- A free eviction-buffer entry of a place's half (R153). -/
def evFree (s : State) (t place : Nat) : Option Nat :=
  let es := if s.voted then List.range 16 else (List.range 8).map (· + 8 * place)
  es.find? (fun e => (mget? s.ev (t * 16 + e)).isNone)

/-- A writeback or eviction notice on its way to the home of a line. -/
def sendWb (s : State) (line tenant : Nat) (m : Msg) : State :=
  match farModule s line with
  | some mid => if (homeOfLine s line).isSome then s.send m else s.sendFar mid line tenant m
  | none => s.send m

/-- A victim line moves to the eviction buffer and WB_D or WB_C is sent (R152); a locked way is never chosen (R159), and
a line whose eviction no entry can take stays. -/
def evict (s : State) (t line : Nat) : State :=
  let c := s.l2At t line
  if c.st = .I ∨ wayLocked s t c.way then s
  else
    match evFree s t c.share with
    | none => s
    | some e =>
      let n := agentOwner s t line
      let s := knotsMet s t line true slip.CAPACITY none
      let s := { (dropLine s t line false) with
        ev := mset s.ev (t * 16 + e) { line := line, st := c.st, valid := c.valid, dirty := c.dirty, poison := c.poison, bytes := c.bytes } }
      sendWb s line n (if c.dirty = 0 then .wbC t e line else .wbD t e line)

/-- A way for a fill: a free one, else that of a victim drawn from the ways it may use, which is evicted; none when the eviction
buffer is full (R150, R153, R159; log 18). -/
def fillRoom (s : State) (t place tenant line : Nat) : State × Option Nat :=
  match freeWay s t place tenant line with
  | some w => (s, some w)
  | none =>
    let ws := fillWays s t place tenant line
    let vs := (l2Mates s t line).filter (fun e => e.2.st != .I && ws.contains e.2.way)
    match vs[s.freeVal.toNat % vs.length]? with
    | none => (s, none)
    | some (l, c) => if (evFree s t c.share).isNone then (s, none) else (evict s.drew t l, some c.way)

/-! ### A cord's access to a line of cached memory -/

/-- How a line was obtained for a cord. -/
inductive Line where
  | ready
  | waits
  | refused (e : CmpEnd)
  deriving DecidableEq, Repr

/-- The rclk at which the cord's knot opened, the pin's stamp (R173). -/
def knotStamp (s : State) (c : Nat) : Option Nat := (s.cord c).knot.map (·.opened)

/-- Sectors of a line that a triad may use are not all there: a fill is under way. -/
def CLine.filling (c : CLine) (need : BitVec 4) : Bool :=
  (c.st == .I && c.valid != 0) || (c.st != .I && c.valid &&& need != need)

/-- A request of a cord's L2 for a line, once a way is ready: granted at a home here, or sent to another module. -/
def fill (s : State) (c line way : Nat) (k : ReqKind) : State × Line :=
  let t := s.triadOf c
  let x := s.l2At t line
  let q : Req := { Req.of t line (s.tenantOf c) with stamp := knotStamp s c }
  match homeOfLine s line with
  | none =>
    (match s.owed.find? (fun o => o.agent == t && o.line == line && o.kind.allocs) with
      | none => (farAsk s 0 k q, .waits)
      | some o =>
        match o.cmp with
        | some e => ({ s with owed := s.owed.erase o }, .refused e)
        | none => (s, .waits))
  | some h =>
    match homeNow s h k q with
    | (s, .waits, _) => (s, .waits)
    | (s, .refused e, _) => (s, .refused e)
    | (s, .done, g) =>
      match g.copy with
      | some d => (install s t (s.shareOf c) line way g.st d, .ready)
      | none =>
        if x.st ≠ .I then (s.setL2 t line { x with st := g.st, held := true }, .ready)
        else (install s t (s.shareOf c) line way g.st { valid := 15, dirty := 0, poison := 0, bytes := 0 }, .ready)

/-- The L2 of cord c holds the sectors `need` of the line, in M when it is to be written; `zero` obtains it without data (ZLINE).
Where the line leads has been checked. A line in the triad's own eviction buffer is waited for (R170). -/
def obtain (s : State) (c line : Nat) (need : BitVec 4) (write zero : Bool) : State × Line :=
  let t := s.triadOf c
  let x := s.l2At t line
  if (evFind s t line).isSome ∨ x.filling need ∨ fillPending s t line then (s, .waits)
  else
    let s := knotsMet s t line write slip.CONFLICT (some c)
    let s := if write then resvsMet s t line false (some c) else s
    if x.st ≠ .I ∧ (!write ∨ x.st = .M ∨ x.st = .E) then
      (if write then s.setL2 t line { s.l2At t line with st := .M } else s, .ready)
    else if x.st ≠ .I then fill s c line x.way .upg
    else
      match fillRoom s t (s.shareOf c) (s.tenantOf c) line with
      | (s, none) => (s, .waits)
      | (s, some way) => fill s c line way (if !write then .rdS else if zero then .rdOZ else .rdO)

/-- A line in the eviction buffer of the triad that asks for it (R170). -/
def evicting (s : State) (agent line : Nat) : Bool := decide (agent < 48) && (evFind s agent line).isSome

/-- A line read once, not cached (RD_ONCE), for requester `who` of an agent: its bytes and poison. -/
def readOnce (s : State) (src who tenant line : Nat) : State × Now × LineData × BitVec 4 :=
  if evicting s src line then (s, .waits, 0, 0)
  else
    match onceNow s who .rdOnce (Req.of src line tenant) with
    | (s, .waits, _) => (s, .waits, 0, 0)
    | (s, .refused e, _) => (s, .refused e, 0, 0)
    | (s, .done, g) =>
      match g.copy with
      | some c => (s, .done, c.bytes, c.poison)
      | none => (s, .done, 0, 0)

/-- A far atomic at a line's home; the old value and its poison (R175). -/
def atomNow (s : State) (src who tenant pa : Nat) (wide : Bool) (aop : BitVec 4) (x y : Word) : State × Now × Nat × Bool :=
  let line := normLine s pa
  if evicting s src line then (s, .waits, 0, false)
  else
    match onceNow s who (.atom (pa % 256) wide aop x y) (Req.of src line tenant) with
    | (s, .done, g) => (s, .done, g.old, g.poison)
    | (s, x, _) => (s, x, 0, false)

end Sys2Proof.Machine
end

