-- ==== Sys2Proof/Machine/Dma.lean ====
section
/-! DEFINITION. Reads and writes of memory by the module itself: page walkers, Shuttles, engines, channel DMA, the context
loader, and the two-stage walk (R117 to R122). A read that must wait for a beat, a transaction or another module says so in
`wants`, and its command then only starts what it waits for; a write is handed to the line's home (log 12). -/

namespace Sys2Proof.Machine

/-! ### Commands that must wait (R25, R166) -/

/-- The number of the module's own accesses among the requesters of an agent. -/
def selfWho : Nat := 0x100

/-- A wait noted. -/
def State.want (s : State) (w : Want) : State := { s with wants := s.wants ++ [w] }

/-- What is waited for is started: the read queues for its beat, the home opens its transaction, the request goes to the other
module. -/
def startWant (s : State) (w : Want) : State :=
  match w with
  | .beat t n line =>
    if s.loom.waiting.any (fun w => w.table == t && w.tenant == n && w.line == line && w.what == .read && !w.issued) then s
    else s.await { table := t, tenant := n, line := line, issued := false, what := .read }
  | .home h k q =>
    if (s.owedFor q.src selfWho q.line k).isSome ∨ (mget? s.txns q.line).isSome then s
    else homeStart (s.owe q.src selfWho q.line k) h k q
  | .far who k q => if (s.owedFor q.src who q.line k).isSome then s else farAsk s who k q
  | .turn => s

/-- The state of a command that met something it must wait for: as before it, with what it waits for started. -/
def turnBack (s t : State) : State := (t.wants.drop s.wants.length).foldl startWant s

/-- The command met something to wait for. -/
def wanting (s t : State) : Bool := decide (s.wants.length < t.wants.length)

/-- A command carried out whole, or turned back to be given again. -/
def orWait (f : State → State) (s : State) : State :=
  let t := f s
  if wanting s t then turnBack s t else t

/-! ### Lines -/

/-- How a read or write of the module's own ends. -/
inductive Reach where
  | ok
  | hole
  | dark (d : Nat)
  deriving DecidableEq, Repr

/-- How an access of the module's own ends on the answers to its request; the domain of another module's dark block is not known here. -/
def Owed.reach (o : Owed) : Reach :=
  match o.cmp with
  | some .hole => .hole
  | some .dark => .dark Config.domains
  | _ => .ok

/-- The bytes and poison that came. -/
def Owed.grantBytes (o : Owed) : LineData × BitVec 4 := o.copy.getD (0, 0)

/-- Where a read or write of a tenant may go: memory that is ON, another module, or nowhere. -/
inductive Spot where
  | mem (h : Nat)
  | remote (m : Nat)
  | hole
  | dark (d : Nat)
  deriving DecidableEq, Repr

/-- Where an access of the module's own leads. An address in the MMIO range or a control window is no memory that it reaches: it meets a
hole there (DESIGN CHOICE, log 40), and a page-table access traps MACHINE_CHECK (R121). -/
def spotFor (s : State) (pa tenant : Nat) : Spot :=
  match placeFor s pa tenant with
  | .mem h => if s.lit (dom.mem h) then .mem h else .dark (dom.mem h)
  | .remote m => .remote m
  | _ => .hole

/-- A line of this module read coherently by a request `k`, or what it must wait for; `now` reads without a beat, as the context
loader does in its fixed time (R27; log 12). -/
def peekHere (s : State) (h : Nat) (k : ReqKind) (q : Req) (now : Bool) : State × LineData × BitVec 4 :=
  let plan := snoopPlan (s.dirAt q.line) k q.src
  let fwd : Bool := plan ≠ []
  let t := table.mem h
  let device : Bool := !now && readsDevice s h q.line k q { Told.none with fwd := fwd }
  let (s, room) := if k.allocs then dirRoom s h q.line else (s, true)
  if (mget? s.txns q.line).isSome ∨ evicting s q.src q.line ∨ !room then (s.want .turn, 0, 0)
  else if asksProxy plan then (s.want (.home h k q), 0, 0)
  else if planHeld s q.line plan then (s.want .turn, 0, 0)
  else if device ∧ !(waitsFor s t q.tenant q.line).any Waiting.issued
      ∧ !((waitsFor s t q.tenant q.line).isNone && s.issuesNow t q.tenant) then
    (s.want (.beat t q.tenant q.line), 0, 0)
  else
    let s := if device then (beatFor s t q.tenant q.line).1 else s
    let (s, told, copy) := snoopAll s h q.line q.src false plan Told.none none
    let (s, g) := homeFinish s h q.line k q told copy
    match g.copy with
    | some c => (s, c.bytes, c.poison)
    | none => (s, 0, 0)

/-- A line read coherently, once (RD_ONCE), by an agent of the module itself. -/
def peekLineAt (s : State) (src tenant pa : Nat) (now : Bool) : State × Reach × LineData × BitVec 4 :=
  let line := normLine s pa
  let q := Req.of src line tenant
  match s.owedFor src selfWho line .rdOnce with
  | some o =>
    if o.complete then ({ s with owed := s.owed.erase o }, o.reach, o.grantBytes) else (s.want .turn, .ok, 0, 0)
  | none =>
    match spotFor s pa tenant with
    | .hole => (countRefusal s pa tenant, .hole, 0, 0)
    | .dark d => (s, .dark d, 0, 0)
    | .remote _ => (s.want (.far selfWho .rdOnce q), .ok, 0, 0)
    | .mem h =>
      let (s, d, p) := peekHere s h .rdOnce q now
      (s, .ok, d, p)

def peekLine (s : State) (src tenant pa : Nat) : State × Reach × LineData × BitVec 4 := peekLineAt s src tenant pa false

/-- Bytes of one line written by an agent that does not cache: a WR_LINE when they are all of it, else a WR_PART (R176).
`poison` marks the data poisoned, `bad` the sectors whose check fails at the handover to memory (R203). A write made for `who` that is
not performed at once is owed its CMP. -/
def pokeLineFor (who : Option Nat) (s : State) (src tenant pa : Nat) (mask : LineMask) (bytes : LineData) (poison : Bool) (bad : BitVec 4) :
    State × Reach :=
  let line := normLine s pa
  let p : BitVec 4 := if poison then touched mask else 0
  let k : ReqKind := if mask = BitVec.allOnes 256 then .wrLine bytes p else .wrPart mask bytes p
  let q : Req := { Req.of src line tenant with bad := bad }
  match spotFor s pa tenant with
  | .hole => (countRefusal s pa tenant, .hole)
  | .dark d => (s, .dark d)
  | .remote m => (match who with
      | some w => farAsk s w k q
      | none => s.sendFar m line tenant (.req k q), .ok)
  | .mem h => (match who with
      | some w => writeNow (if takesNow s h k q then s else s.owe src w line k) h k q
      | none => writeNow s h k q, .ok)

def pokeLine (s : State) (src tenant pa : Nat) (mask : LineMask) (bytes : LineData) (poison : Bool) (bad : BitVec 4) : State × Reach :=
  pokeLineFor none s src tenant pa mask bytes poison bad

/-! ### Runs of bytes -/

/-- A run of bytes read: where it first failed, its bytes as a number, and whether a poisoned sector was among it. -/
structure Bytes where
  reach : Reach
  at_ : Nat
  val : Nat
  poison : Bool
  deriving DecidableEq, Repr

/-- Bytes [pa, pa + n) read line by line; the fuel is the number of lines. -/
def readRun (s : State) (src tenant pa n : Nat) (now : Bool) : Nat → State × Bytes
  | 0 => (s, { reach := .ok, at_ := pa, val := 0, poison := false })
  | f + 1 =>
    if n = 0 then (s, { reach := .ok, at_ := pa, val := 0, poison := false })
    else
      let k := min n (256 - pa % 256)
      let (s, r, d, p) := peekLineAt s src tenant pa now
      if r ≠ .ok then (s, { reach := r, at_ := pa, val := 0, poison := false })
      else
        let bad : Bool := (p &&& touched (spanMask (pa % 256) k)) != 0
        let (s, t) := readRun s src tenant (pa + k) (n - k) now f
        (s, { t with val := lineBytes d (pa % 256) k + t.val * 256 ^ k, poison := bad || t.poison })

def readBytes (s : State) (src tenant pa n : Nat) : State × Bytes := readRun s src tenant pa n false (n / 256 + 2)

/-- The sector of a line whose handover fails, when the byte at offset `bad` of the n bytes from pa lies there. -/
def badSector (pa n : Nat) (bad : Option Nat) : BitVec 4 :=
  match bad with
  | some o => if o < n then BitVec.ofNat 4 (2 ^ ((pa % 256 + o) / 64)) else 0
  | none => 0

/-- Bytes written line by line for `who`; where it first failed. `bad` is the offset of a byte whose sector fails its check at the
handover to memory (R203). -/
def writeRun (who : Option Nat) (s : State) (src tenant pa n v : Nat) (poison : Bool) (bad : Option Nat) : Nat → State × Reach × Nat
  | 0 => (s, .ok, pa)
  | f + 1 =>
    if n = 0 then (s, .ok, pa)
    else
      let k := min n (256 - pa % 256)
      let (s, r) := pokeLineFor who s src tenant pa (spanMask (pa % 256) k) (spanBytes (pa % 256) (v % 256 ^ k)) poison (badSector pa k bad)
      if r ≠ .ok then (s, r, pa)
      else writeRun who s src tenant (pa + k) (n - k) (v / 256 ^ k) poison (bad.bind (fun o => if o < k then none else some (o - k))) f

def writeBytes (s : State) (src tenant pa n v : Nat) (poison : Bool) : State × Reach × Nat :=
  writeRun none s src tenant pa n v poison none (n / 256 + 2)

/-- As `writeBytes`, for a channel operation, which awaits what is not performed at once. -/
def writeBytesFor (who : Nat) (s : State) (src tenant pa n v : Nat) (poison : Bool) (bad : Option Nat) : State × Reach × Nat :=
  writeRun (some who) s src tenant pa n v poison bad (n / 256 + 2)

/-- A far atomic OR of a 64-bit word here, or what it must wait for; the poison of the old value (R175). -/
def orHere (s : State) (h : Nat) (k : ReqKind) (q : Req) : State × Bool :=
  let plan := snoopPlan (s.dirAt q.line) k q.src
  let t := table.mem h
  let device : Bool := needsDevice s h q.line
  if (mget? s.txns q.line).isSome ∨ evicting s q.src q.line then (s.want .turn, false)
  else if undoBlocks s h (lowLine q.line) then ((s.putFlag SPL_STAT.UNDOWAIT true).want .turn, false)
  else if asksProxy plan then (s.want (.home h k q), false)
  else if planHeld s q.line plan then (s.want .turn, false)
  else if device ∧ !(waitsFor s t q.tenant q.line).any Waiting.issued
      ∧ !((waitsFor s t q.tenant q.line).isNone && s.issuesNow t q.tenant) then
    (s.want (.beat t q.tenant q.line), false)
  else
    let s := if device then (beatFor s t q.tenant q.line).1 else s
    let (s, told, copy) := snoopAll s h q.line q.src false plan Told.none none
    let (s, g) := homeFinish s h q.line k q told copy
    (s, g.poison)

/-- A far atomic OR of a 64-bit word, as the walker and the dirty log do (R122, R238): at its home here or on another module. -/
def orWord (s : State) (src tenant pa : Nat) (v : Nat) : State × Reach × Bool :=
  let line := normLine s pa
  let k : ReqKind := .atom (pa % 256) true 2 (BitVec.ofNat 64 v) 0
  let q := Req.of src line tenant
  match s.owedFor src selfWho line k with
  | some o =>
    if o.complete then ({ s with owed := s.owed.erase o }, o.reach, o.grant.poison) else (s.want .turn, .ok, false)
  | none =>
    match spotFor s pa tenant with
    | .hole => (countRefusal s pa tenant, .hole, false)
    | .dark d => (s, .dark d, false)
    | .remote _ => (s.want (.far selfWho k q), .ok, false)
    | .mem h =>
      let (s, p) := orHere s h k q
      (s, .ok, p)

/-! ### Page-table entries (R120) -/

def pte.V (e : Nat) : Bool := bitAt e 0
def pte.T (e : Nat) : Bool := bitAt e 1
def pte.R (e : Nat) : Bool := bitAt e 2
def pte.W (e : Nat) : Bool := bitAt e 3
def pte.X (e : Nat) : Bool := bitAt e 4
def pte.U (e : Nat) : Bool := bitAt e 5
def pte.A (e : Nat) : Bool := bitAt e 6
def pte.D (e : Nat) : Bool := bitAt e 7
def pte.ATTR (e : Nat) : Nat := bits e 8 2
def pte.G (e : Nat) : Bool := bitAt e 10
def pte.ADDR (e : Nat) : Nat := bits e 12 40 * 4096

/-- What an access needs of a page. `fill` reads and writes, `exec` needs X without being a fetch, `rx` R or X; `probe` needs W and
writes nothing. -/
inductive Acc1 where
  | load | store | fill | fetch | exec | rx | probe
  deriving DecidableEq, Repr

def Acc1.writes : Acc1 → Bool
  | .store => true
  | .fill => true
  | _ => false

/-- The entry's R, W and X allow the access (R121). -/
def Acc1.allowed (a : Acc1) (r w x : Bool) : Bool :=
  match a with
  | .load => r
  | .store => w
  | .fill => r && w
  | .fetch => x
  | .exec => x
  | .rx => r || x
  | .probe => w

def attrOf : Nat → Attr
  | 0 => .cached
  | 1 => .uncached
  | _ => .device

/-- The stronger of two attributes (R122). -/
def Attr.max (a b : Attr) : Attr :=
  match a, b with
  | .device, _ => .device
  | _, .device => .device
  | .uncached, _ => .uncached
  | _, .uncached => .uncached
  | _, _ => .cached

/-- An entry is well formed at a level: V, T where it must be, ATTR and the reserved-zero bits (R120, R121). A table
entry ignores its permission and attribute bits. -/
def pteOk (stage1 : Bool) (level e : Nat) : Bool :=
  let size := 2 ^ (12 + 9 * (level - 1))
  pte.V e && !bitAt e 11
    && (if stage1 then bits e 48 4 == 0 else true)
    && (if pte.T e then decide (level ≠ 1)
        else
          decide (level ≠ 4) && decide (pte.ATTR e ≠ 3) && decide (pte.ADDR e % size = 0)
            && (stage1 || (!pte.U e && !pte.G e)))

/-- The index of an address at a level. -/
def walkIdx (a level : Nat) : Nat := bits a (12 + 9 * (level - 1)) 9

/-- How a walk ends. Traps carry EVAL. -/
inductive WalkEnd (α : Type) where
  | ok (x : α)
  | page (eval : Nat)
  | check (eval : Nat)
  deriving DecidableEq, Repr

/-- The final entry of a walk: its own module-physical address, its value and the address it maps. -/
structure Leaf where
  at_ : Nat
  entry : Nat
  out : Nat
  deriving DecidableEq, Repr

/-- One table entry read as a tenant. A hole, a dark block, a refusal or poison is a machine check (R121). -/
def readPte (s : State) (src tenant pa : Nat) : State × Option Nat :=
  let (s, b) := readBytes s src tenant pa 8
  (s, if b.reach = .ok ∧ !b.poison then some b.val else none)

/-- The stage-2 walk of a tenant-physical address from a table at a level; tables carry tenant 0x000 (R122). -/
def walk2 (s : State) (src table ipa : Nat) : Nat → State × WalkEnd Leaf
  | 0 => (s, .page ipa)
  | level + 1 =>
    let pa := table + 8 * walkIdx ipa (level + 1)
    match readPte s src 0 pa with
    | (s, none) => (s, .check pa)
    | (s, some e) =>
      if !pteOk false (level + 1) e then (s, .page ipa)
      else if pte.T e then walk2 s src (pte.ADDR e) ipa level
      else (s, .ok { at_ := pa, entry := e, out := pte.ADDR e + ipa % 2 ^ (12 + 9 * level) })

/-- A stage-2 root: whether stage 2 is on and the address of its level-4 table. -/
structure Root where
  en : Bool
  table : Nat
  deriving DecidableEq, Repr

def Root.ofS2br (w : Word) : Root := { en := bitAt w.toNat 0, table := bits w.toNat 12 40 * 4096 }

/-- A translated page: address, permissions and attribute. -/
structure Page where
  pa : Nat
  r : Bool
  w : Bool
  x : Bool
  attr : Attr
  dirty : Bool
  deriving DecidableEq, Repr

/-- A and D bits of a stage-2 entry that an access must set. -/
def adBits (e : Nat) (writes : Bool) : Nat :=
  (if pte.A e then 0 else 64) + (if writes && !pte.D e then 128 else 0)

/-- Sets A and D in an entry with a far atomic OR as a tenant; false on a machine check (R121, R122). -/
def setAD (s : State) (src tenant pa b : Nat) : State × Bool :=
  if b = 0 then (s, true)
  else
    let (s, r, p) := orWord s src tenant pa b
    (s, r == .ok && !p)

/-- A tenant-physical address translated by stage 2 and the access checked; A and D are set when `mark` (R117, R121,
R122). The address must lie below 2^48. -/
def stage2 (s : State) (src : Nat) (root : Root) (ipa : Nat) (a : Acc1) (mark : Bool) : State × WalkEnd (Page × Leaf) :=
  if !root.en then
    (s, .ok ({ pa := s.mid * 2 ^ 48 + ipa % 2 ^ 48, r := true, w := true, x := true, attr := .cached, dirty := true },
      { at_ := 0, entry := 0xFF, out := 0 }))
  else
    match walk2 s src root.table ipa 4 with
    | (s, .page e) => (s, .page e)
    | (s, .check e) => (s, .check e)
    | (s, .ok l) =>
      let e := l.entry
      if !a.allowed (pte.R e) (pte.W e) (pte.X e) then (s, .page ipa)
      else
        let (s, ok) := if mark then setAD s src 0 l.at_ (adBits e a.writes) else (s, true)
        if !ok then (s, .check l.at_)
        else
          (s, .ok ({ pa := l.out, r := pte.R e, w := pte.W e, x := pte.X e, attr := attrOf (pte.ATTR e)
                     dirty := pte.D e || a.writes }, l))

end Sys2Proof.Machine
end

