-- ==== Sys2Proof/Machine/Flush.lean ====
section
/-! DEFINITION. Loading and releasing cords (R57, R58, R74), the reassignment flush and the flush reserve (R27 to R31,
R419). -/

namespace Sys2Proof.Machine

/-! ### Loading a context (R74) -/

/-- The words of a context slot read as tenant 0x000, in the fixed time that R27 gives it; none when a read meets a hole, a dark
block or poison. -/
def readSlot (s : State) (src pa : Nat) : State × Option (List Word) :=
  let (s, b) := readRun s src 0 pa 4096 true 18
  (s, if b.reach = .ok ∧ !b.poison then some (wordsOf (bytesOf b.val 4096) 512) else none)

/-- A place's checkpoint copy written anew: every word has fresh ECC (R48). -/
def freshCopy (s : State) (t k : Nat) : State :=
  if (s.triad t).ckptBad = [] then s else s.modTriad t (fun x => { x with ckptBad := x.ckptBad.filter (fun e => e.1 != k) })

/-- Cord c loaded from its slot and left stopped; a slot that fails a check is reported and loads nothing. While the slot's lines
must be waited for, nothing is loaded and the wait is noted. -/
def loadContext (s : State) (c : Nat) : State × Bool :=
  let t := s.triadOf c
  let bad (s : State) : State × Bool := (raiseAt s (src.triad t) .UC (s.ctxOf c), false)
  match readSlot s t (s.ctxOf c) with
  | (s', none) => if wanting s s' then (s', false) else bad s'
  | (s', some ws) =>
    let s0 := s
    let s := s'
    if wanting s0 s then (s, false)
    else if ctxOk ws then (freshCopy (s.setCord c { (ctxCore ws) with run := .stopped }) t (s.shareOf c), true)
    else bad s

/-- The triad can run its cords: it is neither FAILED nor UNUSABLE (R58). -/
def triadRuns (s : State) (t : Nat) : Bool := s.tstate t != tst.FAILED && s.tstate t != tst.UNUSABLE

/-- A loaded cord starts to run, unless its triad cannot (R58) or one of its domains lost its state (R348). -/
def releaseCord (s : State) (c : Nat) : State :=
  let t := s.triadOf c
  if triadRuns s t then s.modCord c (fun k => { k with run := .running })
  else s.modCord c (fun k => { k with run := .idle })

/-! ### Uncovered bounces (R139) -/

/-- A bounce that no barrier reports: a record of TYPE 0x04 and CE on the triad's source. -/
def uncovered (s : State) (c tenant : Nat) (va : Word) : State :=
  raise (evqSend s tenant c va (evDesc ev.BOUNCE 0 0) none) (src.triad (s.triadOf c)) .CE

/-- Stores of an entry bounce: those that a waiting barrier covers wait for its trap, others are uncovered (R138, R139); a knot store
slips its knot (R146). -/
def bounced (s : State) (c : Nat) (e : SbEnt) : State :=
  if e.knot then slipCord s c slip.UNSUPPORTED_OP 0 e.line
  else
    match (s.cord c).run with
    | .waitBarrier _ _ => s.modCord c (fun k => { k with bounced := k.bounced ++ e.stores })
    | _ => e.stores.foldl (fun s x => uncovered s c e.tenant x.2) s

/-! ### The reassignment flush (R27) -/

def State.flushOf (s : State) (c : Nat) : Option Flush := mget? s.loom.flushes c

def State.setFlush (s : State) (c : Nat) (f : Option Flush) : State :=
  { s with loom := { s.loom with flushes := match f with
    | some x => mset s.loom.flushes c x
    | none => mdel s.loom.flushes c } }

/-- Fields of an assignment word (LOOM_CORDA). -/
def asg.tenant (w : Nat) : Nat := bits w 0 10
def asg.state (w : Nat) : Nat := bits w 10 2
def asg.ctx (w : Nat) : Nat := bits w 12 40 * 4096

/-- The tile of a cord. -/
def tileOf (s : State) (c : Nat) : Nat := s.triadOf c / Config.triadsPerTile

def LOOM_FLUSHRES.free (tile : Nat) : Fld := { off := LOOM_FLUSHRES.FREE0.off, lsb := 4 * tile, w := 4 }

/-- Claims that a reassignment takes (R31). -/
def claimsNeeded (s : State) : Nat := if s.voted then 2 else 1

def State.claimsOf (s : State) (tile : Nat) : List Claim := mget s.loom.claims tile []

def State.setClaims (s : State) (tile : Nat) (cs : List Claim) : State :=
  { s with loom := { s.loom with claims := mput s.loom.claims tile cs [] } }

/-- Claims whose lines and stores are all done go back to the tile (R31). -/
def claimsReturn (s : State) (tile : Nat) : State :=
  let cs := s.claimsOf tile
  let keep := cs.filter (fun c => !(c.filled && c.lines.isEmpty && c.stores.isEmpty))
  (s.setClaims tile keep).put (LOOM_FLUSHRES.free tile) (s.get (LOOM_FLUSHRES.free tile) + (cs.length - keep.length))

/-- The lowest of a tile's eight claims that is free. -/
def freeClaim (s : State) (tile : Nat) : Nat :=
  ((List.range 8).find? (fun i => !(s.claimsOf tile).any (fun x => x.way == i))).getD 0

/-- n claims of a tile taken for a cord. -/
def takeClaims (s : State) (tile c tenant : Nat) : Nat → State
  | 0 => s
  | n + 1 =>
    takeClaims (s.setClaims tile (s.claimsOf tile ++
      [{ way := freeClaim s tile, cord := c, tenant := tenant, filled := false, lines := [], stores := [] }])) tile c tenant n

/-- The cord had state of its own when the boundary stopped it: it ran or waited (R419). -/
def Run.hadState : Run → Bool
  | .idle => false
  | .halted => false
  | .flushing => false
  | .held => false
  | .stopped => false
  | _ => true

/-- The boundary applies a reassignment to a cord: it stops, an open knot slips with PICK, a halt ends, claims are taken
(R27, R31, R58). The knot slips under the outgoing tenant. -/
def flushStart (s : State) (c new : Nat) : State :=
  let t := s.triadOf c
  let k := s.shareOf c
  let old := s.rd (LOOM_CORDA.off c)
  let tile := tileOf s c
  let n := claimsNeeded s
  let s := slipCord s c slip.PICK 0 0
  let ran := (s.cord c).run.hadState
  let s := s.modCord c (fun x => { x with run := .flushing })
  let s := (s.putFlag (TRI_STAT.halt t k) false).putFlag (TRI_STAT.ctxv t k) false
  let s := s.modTriad t (fun x => { x with resume := mdel x.resume k })
  let s := s.put (LOOM_FLUSHRES.free tile) (s.get (LOOM_FLUSHRES.free tile) - n)
  let s := takeClaims s tile c (asg.tenant old) n
  (s.wr (LOOM_CORDA.off c) new).setFlush c
    (some { old := BitVec.ofNat 64 old, new := BitVec.ofNat 64 new, step := 0, ran := ran, loaded := false })

/-- The first claim of a cord's flush that is not filled, changed. -/
def claimChange (c : Nat) (f : Claim → Claim) : List Claim → List Claim
  | [] => []
  | x :: t => if x.cord = c ∧ !x.filled then f x :: t else x :: claimChange c f t

/-- The store buffer's move (R419): what it has not performed goes to the first claim, and the outgoing state is
saved to the outgoing slot; a bounce no barrier has reported is uncovered. -/
def flushMove (s : State) (c : Nat) (f : Flush) : State :=
  let tile := tileOf s c
  let left := (s.cord c).sbuf.filter (fun e => !e.knot)
  let lost := (s.cord c).bounced
  let s := s.setClaims tile (claimChange c (fun x => { x with stores := x.stores ++ left }) (s.claimsOf tile))
  let s := s.modCord c (fun k => { k with sbuf := [], bounced := [] })
  let s := lost.foldl (fun s b => uncovered s c (asg.tenant f.old.toNat) b.2) s
  let s := if f.ran then (saveTo s c (asg.ctx f.old.toNat)).1 else s
  (s.modCord c (fun k => { k with resv := none })).setFlush c (some { f with step := 1 })

/-- Dirty lines of a place's share. -/
def dirtyOf (s : State) (t place : Nat) : List (Nat × CLine) :=
  ((s.l2.filter (fun e => e.1 / 2 ^ 44 == t && e.2.share == place && e.2.dirty != 0))).map (fun e => (e.1 % 2 ^ 44, e.2))

/-- A dirty line put into the flush reserve, in a claim's way: a local one stands in the warp cache, where a later read finds it. -/
def reserveLine (s : State) (t line way : Nat) (c : CLine) : State :=
  let s := match homeOfLine s line with
    | some h =>
      let low := lowLine line
      let s := undoRecord s h low
      let old : LineData × BitVec 4 × BitVec 4 := match mget? s.warp low with
        | some w => (w.bytes, w.poison, w.dirty)
        | none => ((lineNow s h low).1, (lineNow s h low).2, 0)
      let w : WLine := { bytes := mergeLine old.1 c.bytes (sectorMask c.valid), dirty := old.2.2 ||| c.dirty
                         poison := (old.2.1 &&& ~~~c.valid) ||| (c.poison &&& c.valid), tenant := 0, way := Config.reserveWay + way }
      { s with warp := mset s.warp low w }
    | none => s
  s.setL2 t line { c with dirty := 0, st := if c.st = .O then .S else .E }

/-- Lines put into the next claim of a cord that is not filled. -/
def fillClaim (s : State) (c : Nat) (ds : List (Nat × CLine)) : State :=
  let tile := tileOf s c
  match (s.claimsOf tile).find? (fun x => x.cord == c && !x.filled) with
  | none => s
  | some cl =>
    let s := ds.foldl (fun s e => reserveLine s (s.triadOf c) e.1 cl.way e.2) s
    s.setClaims tile (claimChange c (fun x => { x with filled := true, lines := ds.map (fun e =>
      { line := e.1, sel := e.2.dirty, poison := e.2.poison, bytes := e.2.bytes, sent := false }) }) (s.claimsOf tile))

/-- The dirty lines of the share go to the cord's claims, up to 8,192 to a claim. -/
def flushDirty (s : State) (c : Nat) (f : Flush) : State :=
  let ds := dirtyOf s (s.triadOf c) (s.shareOf c)
  let s := fillClaim (fillClaim s c (ds.take 8192)) c (ds.drop 8192)
  (claimsReturn s (tileOf s c)).setFlush c (some { f with step := 2 })

/-- An agent no longer holds a line. -/
def dirForget (s : State) (line agent : Nat) : State :=
  let d := s.dirAt line
  match d.st with
  | .I => s
  | .S => s.setDir line (sharersOnly (d.sharers.filter (· ≠ agent)))
  | .X => if d.owner = agent then s.setDir line DirEnt.none else s
  | .O =>
    if d.owner = agent then s.setDir line (sharersOnly d.sharers)
    else s.setDir line { d with sharers := d.sharers.filter (· ≠ agent) }

/-- Every line of a share invalidated (R160 counts locked ones). -/
def dropShare (s : State) (t place : Nat) : State :=
  (s.l2.filter (fun e => e.1 / 2 ^ 44 == t && e.2.share == place)).foldl (fun s e =>
    dirForget (dropLine s t (e.1 % 2 ^ 44) false) (e.1 % 2 ^ 44) t) s

/-- The L1s of a place's strands emptied, of lines in the triad's other share too. -/
def dropL1s (s : State) (t place : Nat) : State :=
  let b := l1Bits s t place
  (s.l2.filter (fun e => e.1 / 2 ^ 44 == t)).foldl (fun s e =>
    s.setL2 t (e.1 % 2 ^ 44) { e.2 with l1d := e.2.l1d &&& ~~~b, l1i := e.2.l1i &&& ~~~b }) s

/-- The cord keeps nothing of the outgoing tenant: caches, translations, registers, and what it was owed. -/
def flushDrop (s : State) (c : Nat) (f : Flush) : State :=
  let t := s.triadOf c
  let s := dropShare (dropL1s s t (s.shareOf c)) t (s.shareOf c)
  let s := { s with tlb := s.tlb.filter (fun e => e.cord ≠ c)
                    owed := s.owed.filter (fun o => !(o.agent == t && o.who == c && o.kind.answers)) }
  (s.setCord c { Core.zero with run := .flushing }).setFlush c (some { f with step := 3 })

/-- The incoming state is read from the incoming slot, none when the cord is left unassigned. -/
def flushLoad (s : State) (c : Nat) (f : Flush) : State :=
  if asg.state f.new.toNat ≠ 1 then s.setFlush c (some { f with step := 4 })
  else
    let (s, ok) := loadContext s c
    let s := s.modCord c (fun k => { k with run := .flushing })
    s.setFlush c (some { f with step := 4, loaded := ok })

/-- The cord runs for its new tenant, or is idle. -/
def flushRelease (s : State) (c : Nat) (f : Flush) : State :=
  let s := s.setFlush c none
  if f.loaded then releaseCord s c else s.modCord c (fun k => { k with run := .idle })

/-- The rclk after the boundary from which a step of the flush may be taken (R27). -/
def flushFrom : Nat → Nat
  | 0 => 200
  | 1 => 200
  | 2 => 3480
  | 3 => 3890
  | _ => 4000

/-- The rclk after the boundary by which it has been taken (R27). -/
def flushBy : Nat → Nat
  | 0 => 200
  | 1 => 3480
  | 2 => 3890
  | 3 => 3950
  | _ => 4000

/-- The next step of a cord's flush. -/
def flushNext (s : State) (c : Nat) : State :=
  match s.flushOf c with
  | none => s
  | some f =>
    match f.step with
    | 0 => flushMove s c f
    | 1 => flushDirty s c f
    | 2 => flushDrop s c f
    | 3 => flushLoad s c f
    | _ => flushRelease s c f

/-- A step's command: the step when it is the next one and its time has come. -/
def flushStep (s : State) (c step : Nat) : State :=
  match s.flushOf c with
  | none => s
  | some f => if f.step = step ∧ flushFrom step ≤ s.since then flushNext s c else s

/-- A state in which cord c's slot was to be waited for, at a time that leaves none: nothing is loaded, and that is reported (DESIGN
CHOICE, log 12). -/
def slotLate (s t : State) (c : Nat) : State :=
  if wanting s t then { raiseAt t (src.triad (t.triadOf c)) .UC (t.ctxOf c) with wants := s.wants } else t

/-- A step that is due is taken whatever it would wait for. -/
def flushForced (s : State) (c : Nat) : State := slotLate s (flushNext s c) c

/-- Steps of a cord's flush that are due before a time after the boundary; the fuel is their number. -/
def flushUntil (s : State) (c by_ : Nat) : Nat → State
  | 0 => s
  | n + 1 =>
    match s.flushOf c with
    | none => s
    | some f => if flushBy f.step < by_ then flushUntil (flushForced s c) c by_ n else s

/-- Time is about to come to an rclk after the boundary: no flush is behind its table (R27). -/
def flushesDue (s : State) (by_ : Nat) : State :=
  (s.loom.flushes.map Prod.fst).foldl (fun s c => flushUntil s c by_ 5) s

/-! ### The reserve's drain (R31) -/

/-- A store that awaits the CMP of a home on another module names this port. -/
def farPort : Nat := Config.ports

/-- The reserve may write a line to its home now: a house or unowned beat of the home's group, or of the line's warp link. -/
def reserveBeat (s : State) (line : Nat) : Bool :=
  match homeOfLine s line with
  | some h => s.houseOrUnowned (table.mem h)
  | none =>
    match (farModule s line).bind (fun m => linkFor s m line) with
    | some l => s.houseOrUnowned (table.link l)
    | none => true

/-- The number of a claim among the requesters of an agent. -/
def claimWho (tile way : Nat) : Nat := 0x200 + 8 * tile + way

/-- The reserve's write of a line to another module. -/
def ClaimLine.kind (x : ClaimLine) : ReqKind := .wrPart (sectorMask x.sel) x.bytes (x.poison &&& x.sel)

/-- A claim's line sent to its home on another module, which answers with CMP. -/
def claimSend (s : State) (tile : Nat) (cl : Claim) (x : ClaimLine) : State :=
  let q := Req.of (s.triadOf cl.cord) x.line cl.tenant
  match farModule s x.line with
  | some m =>
    (s.owe q.src (claimWho tile cl.way) x.line x.kind).sendOn 0
      (.remoteWrite m x.line cl.tenant (sectorMask x.sel) x.bytes (x.poison &&& x.sel))
  | none => s

/-- RESERVE_LINE_DRAIN: the first line of a claim that is not on its way is written to its home, one of a module that has been lost is
discarded (R336); a claim with nothing left is returned. -/
def reserveDrain (s : State) (tile i : Nat) : State :=
  match (s.claimsOf tile)[i]? with
  | none => s
  | some cl =>
    match cl.lines.find? (fun x => !x.sent) with
    | none => claimsReturn s tile
    | some x =>
      if !reserveBeat s x.line then s
      else
        match homeOfLine s x.line with
        | some h =>
          let s := warpWriteback s h (lowLine x.line)
          claimsReturn (s.setClaims tile ((s.claimsOf tile).set i { cl with lines := cl.lines.erase x })) tile
        | none =>
          if (farModule s x.line).isNone then
            claimsReturn (s.setClaims tile ((s.claimsOf tile).set i { cl with lines := cl.lines.erase x })) tile
          else
            let lines := cl.lines.map (fun y => if y.line = x.line then { y with sent := true } else y)
            claimSend (s.setClaims tile ((s.claimsOf tile).set i { cl with lines := lines })) tile cl x

/-- The home of a claim's line or moved store on another module has answered: what it has taken is done, and a store that it refuses as
a hole is uncovered (R31, R139). -/
def claimSettled (s : State) (who line : Nat) (e : CmpEnd) : State :=
  let tile := (who - 0x200) / 8
  let way := (who - 0x200) % 8
  let mine (y : SbEnt) : Bool := y.sent && y.port == farPort && normLine s y.pa == line
  let lost := ((s.claimsOf tile).filter (fun x => x.way == way)).flatMap (fun x => (x.stores.filter mine).map (fun y => (x.cord, y)))
  let s := if e = .hole then lost.foldl (fun s p => p.2.stores.foldl (fun s z => uncovered s p.1 p.2.tenant z.2) s) s else s
  claimsReturn (s.setClaims tile ((s.claimsOf tile).map (fun (x : Claim) =>
    if x.way = way then
      { x with lines := x.lines.filter (fun y => !(y.sent && y.line == line)), stores := x.stores.filter (fun y => !mine y) }
    else x))) tile

/-! ### Requests that their home has answered (R137, R165) -/

/-- A store that waited for the CMP of a home on another module has been taken, or bounces at a hole (R137); one that met a dark block
is dropped there (R345). -/
def farStored (s : State) (c line : Nat) (e : CmpEnd) : State :=
  let mine (x : SbEnt) : Bool := x.sent && x.port == farPort && x.line == line
  match (s.cord c).sbuf.find? mine with
  | none => s
  | some x =>
    let s := s.modCord c (fun k => { k with sbuf := k.sbuf.erase x })
    if e = .hole then bounced s c x else s

/-- The requester number from which writes are those of channel operations: two for each cell of the pool. -/
def opBase : Nat := 0x100000

/-- The CMP of a request that caches nothing: its record notes it, or, when nothing more is owed, goes. A write of a channel operation
that has not ended well stays for the operation (R203, R421). -/
def owedCmp (s : State) (o : Owed) (e : CmpEnd) : State :=
  if o.kind.noted ∨ (opBase ≤ o.who ∧ e ≠ .good) then { s with owed := s.owed.map (fun x => if x = o then { o with cmp := some e } else x) }
  else if opBase ≤ o.who then { s with owed := s.owed.erase o }
  else
    let s := { s with owed := s.owed.erase o }
    if 0x200 ≤ o.who then claimSettled s o.who o.line e else farStored s o.who o.line e

end Sys2Proof.Machine
end

