-- ==== Sys2Proof/Machine/Triads.lean ====
section
/-! DEFINITION. Triads: the voter, resynchronisation, retries and hard faults, migration, the restart of a halted cord and
the voter self-test (R45 to R60). -/

namespace Sys2Proof.Machine

/-! ### The record of a disagreement (TRI_LASTDIS) -/

def cmpCode : CmpKind → Nat
  | .signature => 0
  | .addressOrType => 1
  | .dataOrMask => 2

/-- TRI_LASTDIS written: retire count of the group, DIFF, KIND and OUTCOME. -/
def lastDis (s : State) (t k diff kind outcome : Nat) : State :=
  s.wr (TRI_LASTDIS.off t)
    ((s.cord (s.cordOf t k)).retire.toNat % 2 ^ 32 + diff * 2 ^ 32 + kind * 2 ^ 35 + outcome * 2 ^ 37 + 2 ^ 63)

/-- The strands in use: those not fenced. -/
def strandsInUse (s : State) (t : Nat) : List Nat := [0, 1, 2].filter (fun k => !s.flag (TRI_STAT.fenced t k))

/-- The DIFF bits of strands. -/
def diffBits (ks : List Nat) : Nat := ks.foldl (fun x k => x + 2 ^ k) 0

/-! ### A group that passes after a retry (R45, R52, R63) -/

/-- A retry that resolved: counted, and CE on the strand flagged in Split execution, or on the triad where there was no majority. -/
def retryResolved (s : State) (t k : Nat) (record : Bool) : State :=
  if retriesNow s t k = 0 then s
  else
    let x := s.triad t
    let flagged : Option Nat := if s.voted then none else (mget x.detected k []).head?
    let diff := match flagged with
      | some x => 2 ^ x
      | none => diffBits (strandsInUse s t)
    let kind := mget x.kinds k 0
    let s := s.modTriad t (fun x => { x with retries := mdel x.retries k, detected := mdel x.detected k })
    let s := s.bump (TRI_CNT.RETRY t) 1
    let s := if record then lastDis s t k diff kind 1 else s
    raise s (match flagged with
      | some x => dom.strand t x
      | none => src.triad t) .CE

/-- Every line of a triad's L2 changed. -/
def mapL2 (s : State) (t : Nat) (f : CLine → CLine) : State :=
  { s with l2 := s.l2.map (fun (e : Nat × CLine) => if e.1 / 2 ^ 44 = t then (e.1, f e.2) else e) }

/-! ### The voter (R45 to R47) -/

/-- The suspect strand after a persistent no-majority (R47). -/
def suspect (s : State) (t : Nat) (detected : List Nat) : Nat :=
  let keep (q : List Nat) (p : Nat → Bool) : List Nat := if (q.filter p).isEmpty then q else q.filter p
  let q := keep [0, 1, 2] (fun k => detected.contains k)
  let most := q.foldl (fun m k => max m (mget (s.triad t).counts k 0)) 0
  let q := keep q (fun k => mget (s.triad t).counts k 0 == most)
  q.foldl max 0

/-- A resynchronisation starts (R46): the minority strand stops and its L1s are invalidated; the majority's result goes forward. The
group compared by its signature and the next one still retire, of a request the group that it belongs to (DEDUCED, log 43). -/
def resyncStart (s : State) (t strand kind : Nat) : State :=
  let s := lastDis s t 0 (2 ^ strand) kind 0
  let s := (raise s (dom.strand t strand) .CE).recovers (s.cordOf t 0)
  let drop (b : BitVec 3) : BitVec 3 := b &&& ~~~(BitVec.ofNat 3 (2 ^ strand))
  let s := mapL2 s t (fun x => { x with l1d := drop x.l1d, l1i := drop x.l1i })
  s.modTriad t (fun x => { x with resync := some { strand := strand, opened := s.time.now, left := if kind = 0 then 2 else 1 } })

/-- The majority strands stop: an open knot slips with CAPACITY and the reservation goes (R46, R50, R134). -/
def resyncStop (s : State) (t : Nat) (r : Resync) : State :=
  let c := s.cordOf t 0
  let s := (slipCord s c slip.CAPACITY 0 0).modCord c (fun x => { x with paused := true, resv := none })
  s.modTriad t (fun x => { x with resync := some { r with left := 0 } })

/-- A retire group of a cord has ended: a resynchronisation of its triad may stop it there (R46). -/
def groupEnds (s : State) (c : Nat) : State :=
  let t := s.triadOf c
  match (s.triad t).resync with
  | none => s
  | some r =>
    if r.left = 1 then resyncStop s t r
    else s.modTriad t (fun x => { x with resync := some { r with left := r.left - 1 } })

/-- The words of the checkpoint copy that a group has changed are written with fresh ECC (R48). -/
def freshEcc (s : State) (t k : Nat) (before after : Core) : State :=
  if (s.triad t).ckptBad = [] then s
  else
    let same (i : Nat) : Bool := (ctxBody before)[i]? == (ctxBody after)[i]?
    s.modTriad t (fun x => { x with ckptBad := x.ckptBad.filter (fun e => e.1 != k || same e.2) })

/-- The cord runs or waits: it has a group to compare. -/
def Run.live : Run → Bool
  | .running => true
  | .waitEvent => true
  | .waitTlb => true
  | .waitBarrier _ _ => true
  | .waitCinch => true
  | .waitLoad _ => true
  | _ => false

/-- A read of the checkpoint copy that finds an uncorrectable word halts the cord (R48). -/
def ckptRead (s : State) (t k : Nat) : State × Bool :=
  if (s.triad t).copyBad k then (haltCord s t k, false) else (s, true)

/-- No majority: a retry, or after the second one the cord halts and the triad loses a strand or fails (R45). -/
def voteSplit (s : State) (t diff : Nat) (cmp : Comparison) : State :=
  let old := mget (s.triad t).detected 0 []
  let seen := old ++ cmp.detected.filter (fun x => x < 3 && !old.contains x)
  if retriesNow s t 0 < 2 then
    let s := s.modTriad t (fun x => { x with detected := mset x.detected 0 seen, kinds := mset x.kinds 0 (cmpCode cmp.kind) })
    match ckptRead s t 0 with
    | (s, true) => retryGroup s t 0
    | (s, false) => s
  else
    let three : Bool := s.tstate t == tst.VOTED3
    let s := (lastDis s t 0 diff (cmpCode cmp.kind) 2).bump (TRI_CNT.FAILRETRY t) 1
    let s := haltCord s t 0
    let s := s.modTriad t (fun x => { x with detected := mdel x.detected 0, retries := mdel x.retries 0 })
    if three then (fenceStrand s t (suspect s t seen)).put (TRI_STAT.TSTATE t) tst.DEGRADED
    else s.put (TRI_STAT.TSTATE t) tst.FAILED

/-- RETIRE_GROUP_VOTE: a comparison of the strands in use for the cord's next retire group or request. While a resynchronisation lets
the majority end its groups those two are compared, as no minority of them can be named. -/
def vote (s : State) (t : Nat) (cmp : Comparison) : State :=
  let three : Bool := s.tstate t == tst.VOTED3
  let pair : Bool := s.tstate t == tst.DEGRADED
  if !s.voted ∨ !(three || pair) ∨ !(s.cord t).run.live ∨ (s.cord t).paused ∨ s.fcu.safe.isSome then s
  else
    match cmp.result with
    | .agree => retryResolved s t 0 true
    | .oneOut x =>
      if three && (s.triad t).resync.isNone then
        (if 3 ≤ x then s else resyncStart (retryResolved s t 0 false) t x (cmpCode cmp.kind))
      else voteSplit s t (diffBits (strandsInUse s t)) cmp
    | .noMajority => voteSplit s t (diffBits (strandsInUse s t)) cmp

/-- RESYNC_RESTART: the checkpoint copy is in the minority strand and the strands restart; beyond RSLIM the strand is
fenced (R46, R49). The pause is recorded (R381). A cord that had no group to end stops here. -/
def resyncRestart (s : State) (t : Nat) : State :=
  match (s.triad t).resync with
  | none => s
  | some r =>
    let c := s.cordOf t 0
    let s := if r.left = 0 then s else resyncStop s t r
    let s := s.modTriad t (fun x => { x with resync := none, counts := mupd x.counts r.strand 0 (· + 1) })
    let s := s.bump (TRI_CNT.ce t r.strand) 1
    match ckptRead s t 0 with
    | (s, false) => s
    | (s, true) =>
      let s := s.modCord c (fun x => { x with paused := false })
      let s := stageCord s rplType.RECOVERY c ((s.time.now - r.opened) % 2 ^ 32) []
      let lim := s.get (TRI_CFG.RSLIM t)
      if lim ≠ 0 ∧ lim < mget (s.triad t).counts r.strand 0 ∧ s.tstate t = tst.VOTED3 then
        (fenceStrand (raise s (dom.strand t r.strand) .CE) t r.strand).put (TRI_STAT.TSTATE t) tst.DEGRADED
      else s

/-! ### Split execution (R51, R52) -/

/-- The place of the cord that a strand runs. -/
def placeOfStrand (s : State) (t strand : Nat) : Option Nat := [0, 1].find? (fun k => s.strandOf t k == strand)

/-- A detection that needs a retry, or after two a hard fault. -/
def strandRetry (s : State) (t k : Nat) (e : StrandError) : State :=
  if retriesNow s t k < 2 then
    let s := s.modTriad t (fun x => { x with detected := mset x.detected k [e.strand], kinds := mset x.kinds k 3 })
    match ckptRead s t k with
    | (s, true) => retryGroup s t k
    | (s, false) => s
  else
    let clear (s : State) (k : Nat) : State :=
      s.modTriad t (fun x => { x with detected := mdel x.detected k, retries := mdel x.retries k })
    if e.bothHard then
      let s := clear (clear s 0) 1
      let free := spareFree s t
      let s := lastDis s t 0 (2 ^ s.strandOf t 0) 3 (if free then 3 else 2)
      let s := hardFault s t 0 (s.strandOf t 0)
      haltCord (lastDis s t 1 (2 ^ s.strandOf t 1) 3 2) t 1
    else
      let s := clear s k
      let s := lastDis s t k (2 ^ e.strand) 3 (if spareFree s t then 3 else 2)
      hardFault s t k e.strand

/-- A word of a place's checkpoint copy fails its ECC from now on. -/
def ckptFails (s : State) (t k word : Nat) : State :=
  s.modTriad t (fun x => { x with ckptBad := if (k, word % 512) ∈ x.ckptBad then x.ckptBad else (k, word % 512) :: x.ckptBad })

/-- STRAND_CHECK_ERROR: a strand's internal check detects an error in Split execution (R51, R52). In Voted execution a strand's own
detections go to the voter with its comparison (R47), and an error of the voter's checkpoint copy is found when the voter next reads
the word (R44, R48). -/
def strandCheck (s : State) (t : Nat) (e : StrandError) : State :=
  if Config.triads ≤ t ∨ s.fcu.safe.isSome then s
  else if s.voted then
    match e.kind with
    | .checkpointUncorrectable => ckptFails s t 0 e.word
    | .singleBit => if e.strand < 3 then raise s (dom.strand t e.strand) .CE else s
    | _ => s
  else
    match placeOfStrand s t e.strand with
    | none => s
    | some k =>
      if !(s.cord (s.cordOf t k)).run.live ∨ (s.cord (s.cordOf t k)).paused then s
      else
        match e.kind with
        | .singleBit => raise (s.bump (TRI_CNT.ce t e.strand) 1) (dom.strand t e.strand) .CE
        | .residueOrParity => strandRetry s t k e
        | .uncorrectable => strandRetry s t k e
        | .checkpointUncorrectable => haltCord (lastDis (ckptFails s t k e.word) t k (2 ^ e.strand) 3 2) t k

/-! ### Migration (R53) -/

def setMig (s : State) (t : Nat) (m : Option Migration) : State := s.modTriad t (fun x => { x with mig := m })

/-- MIGRATION_SPARE_ON: strand C is powered and its L1s are empty. -/
def migSpareOn (s : State) (t : Nat) : State :=
  match (s.triad t).mig with
  | none => s
  | some m =>
    if m.phase ≠ .power then s
    else
      let keep (b : BitVec 3) : BitVec 3 := b &&& 3
      let s := mapL2 s t (fun x => { x with l1d := keep x.l1d, l1i := keep x.l1i })
      setMig (setDom s (dom.strand t 2) pst.ON) t (some { m with phase := .copy })

/-- MIGRATION_STATE_COPIED: the retire checkpoint is in strand C, whose TLBs are empty. -/
def migCopied (s : State) (t : Nat) : State :=
  match (s.triad t).mig with
  | none => s
  | some m =>
    if m.phase ≠ .copy then s
    else
      match ckptRead s t m.cord with
      | (s, false) => setMig s t none
      | (s, true) =>
        let c := s.cordOf t m.cord
        setMig { s with tlb := s.tlb.filter (fun e => e.cord ≠ c) } t (some { m with phase := .finish })

/-- MIGRATION_COMPLETE: CE, the failing strand fenced, SPARE and TSTATE updated, and C resumes the cord. -/
def migComplete (s : State) (t : Nat) : State :=
  match (s.triad t).mig with
  | none => s
  | some m =>
    if m.phase ≠ .finish then s
    else
      let c := s.cordOf t m.cord
      let s := raise (setMig s t none) (dom.strand t m.strand) .CE
      let s := fenceStrand s t m.strand
      let s := (s.put (TRI_STAT.SPARE t) (m.cord + 1)).put (TRI_STAT.TSTATE t) tst.SPARED
      let s := stageCord s rplType.RECOVERY c ((s.time.now - m.opened) % 2 ^ 32) []
      s.modCord c (fun x => { x with paused := false })

/-! ### Restart of a halted cord (R57) -/

/-- A RESUME of a place is taken: the cord is halted with CTXV 1, its triad can run and a tenant holds it. -/
def resumeOk (s : State) (t k : Nat) : Bool :=
  s.flag (TRI_STAT.halt t k) && s.flag (TRI_STAT.ctxv t k) && triadRuns s t && s.get (LOOM_CORDA.STATE (s.cordOf t k)) != 0

/-- TRI_RESUME: a write of TRI_CTL. RESUME1 is ignored in Voted execution, a RESUME that waits keeps its time. -/
def triResume (s : State) (t : Nat) (v : Word) : State :=
  let w := taken s (TRI_CTL.off t) v
  s.places.foldl (fun s k =>
    if bitAt w k ∧ resumeOk s t k ∧ (mget? (s.triad t).resume k).isNone then
      s.modTriad t (fun x => { x with resume := mset x.resume k s.time.now })
    else s)
    (hostWrite s (TRI_CTL.off t) v)

/-- A RESUME of a place taken: its cord is loaded and released. While the slot's lines must be waited for it stays asked for. -/
def resumeCord (s : State) (t k : Nat) : State :=
  let c := s.cordOf t k
  let (s', ok) := loadContext s c
  if wanting s s' then turnBack s s'
  else
    let s := s'.modTriad t (fun x => { x with resume := mdel x.resume k })
    if ok then releaseCord ((s.putFlag (TRI_STAT.halt t k) false).putFlag (TRI_STAT.ctxv t k) false) c
    else s.modCord c (fun x => { x with run := .halted })

/-- At a boundary the halted cords asked for at least 16 rclk before are loaded and released (R57). -/
def resumeApply (s : State) (t : Nat) : State :=
  (s.triad t).resume.foldl (fun s e =>
    if s.time.now < e.2 + 16 then s
    else if resumeOk s t e.1 then resumeCord s t e.1
    else s.modTriad t (fun x => { x with resume := mdel x.resume e.1 })) s

/-! ### The voter self-test (R59, R60) -/

/-- The order of the tests: lane, then polarity, then pattern. -/
def failKey (f : LaneFail) : Nat := f.lane * 10 + boolNat f.pol * 5 + f.pattern

/-- A failed test that the self-test has: lanes 0 to 37 and patterns 0 to 4. -/
def failReal (f : LaneFail) : Bool := f.lane < 38 && f.pattern < 5

/-- The first of the failed tests. -/
def firstFail (fs : List LaneFail) : Option LaneFail :=
  (fs.filter failReal).foldl (fun b f => match b with
    | none => some f
    | some g => if failKey f < failKey g then some f else b) none

/-- VOTER_SELF_TEST_DONE: the record, and UNUSABLE with UC at the first unexpected outcome; else the state of the mode,
or what a warm reset has kept. -/
def selfTestDone (s : State) (t : Nat) (fs : List LaneFail) : State :=
  if !(s.triad t).selfTest then s
  else
    let s := s.modTriad t (fun x => { x with selfTest := false })
    match firstFail fs with
    | some f =>
      let s := s.wr (TRI_VSTEST.off t) (1 + f.lane * 4 + f.pattern * 2 ^ 8 + boolNat f.pol * 2 ^ 11)
      raise (s.put (TRI_STAT.TSTATE t) tst.UNUSABLE) (src.triad t) .UC
    | none => s.wr (TRI_VSTEST.off t) 3

end Sys2Proof.Machine
end

