-- ==== Sys2Proof/Machine/Weft.lean ====
section
/-! DEFINITION. What a Weft port sends: flits, frames, acknowledgements and credits, in the beats they may have (R243, R247 to R255). -/

namespace Sys2Proof.Machine

/-! ### Frame types (R255) -/

def ft.SESS_OPEN : Nat := 0x01
def ft.SESS_ACCEPT : Nat := 0x02
def ft.SESS_CLOSE : Nat := 0x03
def ft.CMD : Nat := 0x04
def ft.DATA_OUT : Nat := 0x05
def ft.DATA_IN : Nat := 0x06
def ft.STATUS : Nat := 0x07
def ft.DUPACK : Nat := 0x08
def ft.ABORT : Nat := 0x09
def ft.ABORT_DONE : Nat := 0x0A
def ft.REG_RD : Nat := 0x0B
def ft.REG_WR : Nat := 0x0C
def ft.REG_RSP : Nat := 0x0D

/-- A register frame, or the blank of any other frame (R254). -/
def frameOf (s : State) (typ seq len count : Nat) (payload : List Byte) : Frame :=
  { typ := typ, smid := s.mid, ver := 1, session := 0, subch := 0, device := 0, seq := seq, len := len, poison := false
    last := false, count := count, cmd := 0, md := 0, ccwno := 0, dstat := 0, rzOk := true, crcOk := true, payload := payload }

/-- Credits that a frame consumes (R252). -/
def frameCredits (f : Frame) : Nat := (frameBytes f + 255) / 256

/-- Flits of a frame that starts in a fresh flit, as padding allows (R253; log 29). -/
def frameFlits (f : Frame) : Nat := (frameBytes f + 239) / 240

/-- CHP_STAT.LINK codes. -/
def lnk.DOWN : Nat := 0
def lnk.TRAINING : Nat := 1
def lnk.UP : Nat := 2
def lnk.RETRAIN : Nat := 3

def linkUp (s : State) (p : Nat) : Bool := s.get (CHP_STAT.LINK p) == lnk.UP

/-- A frame of a tenant may start now: in closed weave in its own beat and no later than rclk 184 (R243). A frame that
carries no tenant's data or commands is queued with 0, a tenant's with its number + 1. -/
def mayStart (s : State) (p who : Nat) : Bool :=
  who == 0 || (s.mayIssue (table.dma p) (who - 1) && !(s.closedWeave && decide (184 < s.since % 200)))

/-! ### Flits sent (R248, R250, R252) -/

/-- A flit put on the link: it carries the ACK or NAK that is due, the last FSEQ accepted, and credits to return. -/
def sendFlit (s : State) (p kind fseq : Nat) (body : List Byte) : State :=
  let x := s.port p
  let f : Flit := { kind := kind, fseq := fseq, ackSeq := (x.rxSeq + 1023) % 1024, nak := x.nakDue, ackv := x.ackPending
                    credit := min x.freed 4095, corrected := 0, crcOk := true, body := body }
  (s.modPort p (fun x => { x with ackPending := false, nakDue := false, freed := x.freed - min x.freed 4095 })).send (.flit p f.bytes)

/-- A payload or control flit: it takes the next FSEQ and a place in the replay buffer. -/
def newFlit (s : State) (p kind : Nat) (body : List Byte) : State :=
  let n := (s.port p).txSeq
  let s := s.modPort p (fun x => { x with
    txSeq := (n + 1) % 1024, replay := x.replay ++ [{ fseq := n, at_ := s.time.now, kind := kind, body := body }] })
  sendFlit s p kind n body

/-- What the port owes the far end, an ACK, a NAK or credits, goes in an idle flit when no other has taken it. It goes at once; the spec
gives an ACK 100 rclk (DESIGN CHOICE, log 44). -/
def flitReply (s : State) (p : Nat) : State :=
  let x := s.port p
  if (x.ackPending ∨ x.nakDue ∨ x.freed ≠ 0) ∧ s.get (CHP_STAT.LINK p) ≠ lnk.DOWN then sendFlit s p 0 0 [] else s

/-- Every unacknowledged flit is sent again, in order. -/
def resendFlits (s : State) (p : Nat) : State :=
  let s := s.modPort p (fun x => { x with replay := x.replay.map (fun e => { e with at_ := s.time.now }) })
  (s.port p).replay.foldl (fun s e => sendFlit s p e.kind e.fseq e.body) s

/-- The INIT message of a port (R247). -/
def ownInit (s : State) (p : Nat) : InitMsg :=
  { version := 1, credits := Config.weftCredits, fseq := (s.port p).rxSeq, kind := 1, mid := s.mid, ident := BitVec.ofNat 64 p }

/-- INIT sent in a control flit; with the replay buffer full it waits. -/
def sendInit (s : State) (p : Nat) : State :=
  if 512 ≤ (s.port p).replay.length then s
  else
    let n := (s.port p).txSeq
    newFlit (s.modPort p (fun x => { x with inits := x.inits ++ [n] })) p 2 (initBytes (ownInit s p))

/-! ### Frames sent (R243, R252, R253) -/

/-- The frame that leaves next: the oldest whose tenant may start one now. Frames of a tenant keep their order, and another tenant's
do not hold them up (R243). -/
def nextTx (s : State) (p : Nat) : Option (Nat × Frame) := (s.port p).tx.find? (fun e => mayStart s p e.1)

/-- A frame leaves in flits of its own. -/
def sendFrame (s : State) (p : Nat) (f : Frame) : State :=
  (flitBodies (wireBytes f) (frameFlits f)).foldl (fun s b => newFlit s p 1 b)
    (s.modPort p (fun y => { y with credits := y.credits - frameCredits f }))

/-- Frames leave the port while the link is UP, credits last, the replay buffer has room and the beat allows. -/
def portPump (s : State) (p : Nat) : Nat → State
  | 0 => s
  | n + 1 =>
    match nextTx s p with
    | none => s
    | some (who, f) =>
      let x := s.port p
      if linkUp s p ∧ !x.releasing ∧ !x.released ∧ frameCredits f ≤ x.credits ∧ x.replay.length + frameFlits f ≤ 512 then
        let s := s.modPort p (fun y => { y with tx := y.tx.erase (who, f) })
        let s := if who = 0 then s else s.noteIssue (table.dma p) (who - 1)
        portPump (sendFrame s p f) p n
      else s

/-- What waits at a port leaves as far as it can. -/
def portGo (s : State) (p : Nat) : State := portPump s p (s.port p).tx.length

/-- A frame queued at a port and sent when it may go. -/
def weftSend (s : State) (p who : Nat) (f : Frame) : State :=
  portGo (s.modPort p (fun x => { x with tx := x.tx ++ [(who, f)] })) p

/-! ### Injection of bursts (R242) -/

def State.injAt (s : State) (q : Nat) : Inj := mget s.chs.inj q Inj.zero

/-- rclk that a burst of n bytes occupies its quad's injector. -/
def burstRclk (n : Nat) : Nat := (n + 639) / 640

/-- A tenant's burst of n bytes may start at a port now: its beat, the injector free, and in closed weave over by the beat's end (R24,
R242). -/
def burstMay (s : State) (p tenant n : Nat) (inward : Bool) : Bool :=
  let g := s.injAt (p / 4)
  s.mayIssue (table.dma p) tenant && !(s.closedWeave && 200 < s.since % 200 + burstRclk n)
    && decide ((if inward then g.inTo else g.outTo) ≤ s.time.now)

/-- A burst started at a port. -/
def burstTaken (s : State) (p tenant n : Nat) (inward : Bool) : State :=
  let till := s.time.now + burstRclk n
  let s := s.noteIssue (table.dma p) tenant
  let g := s.injAt (p / 4)
  let g : Inj := if inward then { g with inTo := till, inLast := p % 4 } else { g with outTo := till, outLast := p % 4 }
  { s with chs := { s.chs with inj := mput s.chs.inj (p / 4) g Inj.zero } }

/-- The ports of a quad in the order in which the injector serves them. -/
def burstTurn (q last : Nat) : List Nat := (List.range 4).map (fun i => 4 * q + (last + 1 + i) % 4)

/-- A received burst waits at a port. -/
def burstWaits (s : State) (p : Nat) : Bool := (s.port p).rx.any (fun f => f.typ == ft.DATA_IN)

/-- It is the port's turn: no port before it in the rotation has a burst waiting. -/
def inTurn (s : State) (p : Nat) : Bool :=
  ((burstTurn (p / 4) (s.injAt (p / 4)).inLast).takeWhile (· ≠ p)).all (fun x => !burstWaits s x)

/-- The next sequence number of a port's register frames. -/
def nextReg (s : State) (p : Nat) : Nat := ((s.port p).regSeq + 1) % 2 ^ 48

/-- A register frame of a tenant, with the port's next sequence number (R245). -/
def regSend (s : State) (p tenant typ off len val : Nat) : State × Nat :=
  let q := nextReg s p
  (weftSend (s.modPort p (fun x => { x with regSeq := q })) p (tenant + 1) (frameOf s typ q len off (bytesOf val len)), q)

end Sys2Proof.Machine
end

