-- ==== Sys2Proof/Machine/Flags.lean ====
section
/-! DEFINITION. FLAGS: their bits, the conditions of R77, and the flag rules of R84, R85, R101 and R103. -/

namespace Sys2Proof.Machine

/-- FLAGS [3] N, [2] Z, [1] C, [0] V (R72). -/
structure Flags where
  n : Bool
  z : Bool
  c : Bool
  v : Bool
  deriving DecidableEq, Repr

/-- The flags in a FLAGS word. -/
def Flags.of (w : Word) : Flags := { n := w.getLsbD 3, z := w.getLsbD 2, c := w.getLsbD 1, v := w.getLsbD 0 }

/-- FLAGS as a word; bits [63:4] read as zero. -/
def Flags.word (f : Flags) : Word :=
  BitVec.ofNat 64 ((if f.n then 8 else 0) + (if f.z then 4 else 0) + (if f.c then 2 else 0) + (if f.v then 1 else 0))

/-- COND holds (R77). -/
def condHolds (f : Flags) (c : BitVec 3) : Bool :=
  match c.toNat with
  | 0 => true
  | 1 => f.z
  | 2 => !f.z
  | 3 => f.n != f.v
  | 4 => f.n == f.v
  | 5 => !f.c
  | 6 => f.c
  | _ => f.v

/-- N and Z after a result (R84). -/
def Flags.nz (f : Flags) (r : Word) : Flags := { f with n := r.msb, z := r == 0 }

/-- C and V set. -/
def Flags.cv (f : Flags) (c v : Bool) : Flags := { f with c := c, v := v }

/-- A result and the flags an instruction with S = 1 leaves. -/
structure Res where
  val : Word
  fl : Flags
  deriving DecidableEq, Repr

/-- A signed value outside 64 bits. -/
def overflows (x : Int) : Bool := x < -(2 ^ 63 : Int) || (2 ^ 63 : Int) ≤ x

/-- a + b + cin with carry out and signed overflow (R84). -/
def addRes (f : Flags) (a b : Word) (cin : Bool) : Res :=
  let i : Nat := if cin then 1 else 0
  let r := a + b + BitVec.ofNat 64 i
  { val := r, fl := (f.nz r).cv (2 ^ 64 ≤ a.toNat + b.toNat + i) (overflows (a.toInt + b.toInt + i)) }

/-- a − b − (1 − cin) with no-borrow and signed overflow (R84). -/
def subRes (f : Flags) (a b : Word) (cin : Bool) : Res :=
  let i : Nat := if cin then 0 else 1
  let r := a - b - BitVec.ofNat 64 i
  { val := r, fl := (f.nz r).cv (b.toNat + i ≤ a.toNat) (overflows (a.toInt - b.toInt - i)) }

/-- A result whose flags are N and Z alone (R84). -/
def nzRes (f : Flags) (r : Word) : Res := { val := r, fl := f.nz r }

/-- The last bit shifted out becomes C, unless nothing is shifted (R85). -/
def shiftRes (f : Flags) (r : Word) (n : Nat) (last : Bool) : Res :=
  { val := r, fl := { f.nz r with c := if n = 0 then f.c else last } }

/-- Leading zeros, counted from bit i - 1 down (R84). -/
def clzFrom (x : Word) : Nat → Nat
  | 0 => 0
  | i + 1 => if x.getLsbD i then 0 else clzFrom x i + 1

/-- The number of ones in the low i bits (R84). -/
def popcTo (x : Word) : Nat → Nat
  | 0 => 0
  | i + 1 => (if x.getLsbD i then 1 else 0) + popcTo x i

/-- MUL: C when the unsigned, V when the signed product is out of range (R101). -/
def mulRes (f : Flags) (a b : Word) : Res :=
  let r := a * b
  { val := r, fl := (f.nz r).cv (2 ^ 64 ≤ a.toNat * b.toNat) (overflows (a.toInt * b.toInt)) }

/-- A result with C = 0 and V = 0 (R101). -/
def plainRes (f : Flags) (r : Word) : Res := { val := r, fl := (f.nz r).cv false false }

/-- MIN of R101. -/
def minWord : Word := 0x8000000000000000#64

/-- DIVS with b ≠ 0, rounded toward zero; MIN ÷ −1 is MIN with V = 1 (R101, R103). -/
def divsRes (f : Flags) (a b : Word) : Res :=
  if a = minWord ∧ b = BitVec.allOnes 64 then { val := minWord, fl := { n := true, z := false, c := false, v := true } }
  else plainRes f (BitVec.ofInt 64 (a.toInt.tdiv b.toInt))

/-- FLAGS of DIVS with S = 0: only V, and only for MIN ÷ −1 (R103). -/
def divsQuiet (f : Flags) (a b : Word) : Flags :=
  if a = minWord ∧ b = BitVec.allOnes 64 then { f with v := true } else f

/-- REMS with b ≠ 0 (R101). -/
def remsRes (f : Flags) (a b : Word) : Res := plainRes f (BitVec.ofInt 64 (a.toInt.tmod b.toInt))

end Sys2Proof.Machine
end

