-- ==== Sys2Proof/Machine/Operands.lean ====
section
/-! DEFINITION. Operand forms: access sizes, address forms and address generators (R86, R87, R91), and the
instruction's condition. -/

namespace Sys2Proof.Machine

/-- The access size in bytes (R86). -/
def sizeOf (sz : BitVec 2) : Nat := 2 ^ sz.toNat

/-- The memory operand of formats M and A: AM, AG, size and the displacement in bytes. -/
structure MemForm where
  am : Nat
  ag : Nat
  size : Nat
  disp : Word
  deriving DecidableEq, Repr

def MemForm.ofM (f : FM) : MemForm :=
  { am := f.am.toNat, ag := f.ag.toNat, size := sizeOf f.sz, disp := f.disp.signExtend 64 }

def MemForm.ofA (f : FA) : MemForm :=
  { am := f.am.toNat, ag := f.ag.toNat, size := sizeOf f.sz, disp := f.disp.signExtend 64 }

/-- The address comes from the stack: AM 0b000. -/
def MemForm.pops (m : MemForm) : Nat := if m.am = 0 then 1 else 0

/-- Bits [k-1:0] of x in reverse order (R91). -/
def bitReverse (x : Nat) : Nat → Nat
  | 0 => 0
  | k + 1 => x % 2 * 2 ^ k + bitReverse (x / 2) k

/-- BASE + offset + DISP. -/
def AG.addr (g : AG) (off : Nat) (disp : Word) : Word := g.base + BitVec.ofNat 64 off + disp

/-- The linear generator: its address and its next IDX (R91). -/
def AG.linear (g : AG) (disp : Word) : Word × Word := (g.addr g.idx.toNat disp, g.idx + g.step)

/-- The modulo generator (R91): the sum is exact, the result in [0, LEN). -/
def AG.modulo (g : AG) (disp : Word) : Word × Word :=
  (g.addr g.idx.toNat disp,
    if g.len = 0 then g.idx + g.step
    else BitVec.ofInt 64 (((g.idx.toNat : Int) + g.step.toInt) % (g.len.toNat : Int)))

/-- The bit-reversed generator (R91). -/
def AG.reversed (g : AG) (size : Nat) (disp : Word) : Word × Word :=
  let k := g.brk.toNat
  (g.addr (bitReverse g.idx.toNat k * size) disp, BitVec.ofNat 64 ((g.idx + g.step).toNat % 2 ^ k))

/-- An address formed: the address, and the generator that steps with its next IDX. -/
structure Formed where
  va : Word
  step : Option (Nat × Word)
  deriving DecidableEq, Repr

/-- The address of an access (R86); `top` is the popped address under AM 0b000. -/
def MemForm.form (m : MemForm) (k : Core) (top : Word) : Formed :=
  let gen (r : Word × Word) : Formed := { va := r.1, step := some (m.ag, r.2) }
  match m.am with
  | 0 => { va := top + m.disp, step := none }
  | 1 => gen ((k.ag m.ag).linear m.disp)
  | 2 => gen ((k.ag m.ag).modulo m.disp)
  | 3 => gen ((k.ag m.ag).reversed m.size m.disp)
  | 4 => { va := (k.stkOf k.lvl).sp + m.disp, step := none }
  | _ => { va := k.pc + m.disp, step := none }

/-- An address generator set. -/
def Core.setAg (k : Core) (i : Nat) (g : AG) : Core := { k with ags := mput k.ags i g AG.zero }

/-- The generator steps once the access has completed (R92). -/
def Core.stepAg (k : Core) : Option (Nat × Word) → Core
  | none => k
  | some (i, x) => k.setAg i { k.ag i with idx := x }

/-- A part of an address generator (R82). -/
def AG.part (g : AG) : Nat → Word
  | 0 => g.base
  | 1 => g.idx
  | 2 => g.step
  | 3 => g.len
  | _ => g.brk

def AG.setPart (g : AG) (p : Nat) (v : Word) : AG :=
  match p with
  | 0 => { g with base := v }
  | 1 => { g with idx := v }
  | 2 => { g with step := v }
  | 3 => { g with len := v }
  | _ => { g with brk := v }

def Core.fl (k : Core) : Flags := Flags.of k.flags
def Core.setFl (k : Core) (f : Flags) : Core := { k with flags := f.word }

/-- The target of a relative branch (R90). -/
def branchTo (pc : Word) (off : BitVec 22) : Word := pc + (off.signExtend 64) * 4

/-- The handler of a KNOT (R90). -/
def knotHandler (pc : Word) (off : BitVec 16) : Word := pc + (off.signExtend 64) * 4

end Sys2Proof.Machine
end

