-- ==== Sys2Proof/Machine/Xlate.lean ====
section
/-! DEFINITION. How a part of an instruction ends, and the translation of a cord's addresses (R117 to R125). -/

namespace Sys2Proof.Machine

/-! ### Trap causes (R93) -/

def trap.ILLEGAL : Nat := 1
def trap.PRIV : Nat := 2
def trap.ALIGN : Nat := 3
def trap.PAGE_S1 : Nat := 4
def trap.PAGE_S2 : Nat := 5
def trap.STACK_LIMIT : Nat := 6
def trap.BUS_DARK : Nat := 7
def trap.ADDR_HOLE : Nat := 8
def trap.POISON : Nat := 9
def trap.MACHINE_CHECK : Nat := 10
def trap.STORE_BOUNCED : Nat := 11
def trap.FP_IMPRECISE : Nat := 12
def trap.DIVZERO : Nat := 13
def trap.DEBUG : Nat := 14
def trap.SYSCALL : Nat := 15
def trap.EVENT : Nat := 16

/-- A trap to be taken: its cause and EVAL; `via` is the level it is routed from when that is not the current one (R96),
`next` that EPC is the address of the next instruction (R93). -/
structure Trap where
  cause : Nat
  eval : Word
  via : Option Level := none
  next : Bool := false
  deriving DecidableEq, Repr

/-- How a part of an instruction ends: with a value, a trap, a slip of the open knot, a wait (the instruction is tried
again later), or the cord parked in a waiting state. -/
inductive Got (α : Type) where
  | ok (x : α)
  | trap (t : Trap)
  | slip (cause : Nat)
  | wait
  | park (r : Run)
  deriving DecidableEq, Repr

/-- One part of an instruction after another. -/
def andThen {α β : Type} (x : State × Got α) (f : State → α → State × Got β) : State × Got β :=
  match x with
  | (s, .ok a) => f s a
  | (s, .trap t) => (s, .trap t)
  | (s, .slip c) => (s, .slip c)
  | (s, .wait) => (s, .wait)
  | (s, .park r) => (s, .park r)

/-- A trap with a numeric EVAL. -/
def trapAt {α : Type} (s : State) (cause eval : Nat) : State × Got α :=
  (s, .trap { cause := cause, eval := BitVec.ofNat 64 eval })

/-! ### The two stages -/

/-- Fields of S_PTBR (R122). -/
def ptbrEn (w : Word) : Bool := bitAt w.toNat 0
def ptbrRoot (w : Word) : Nat := bits w.toNat 12 36 * 4096
def ptbrAsid (w : Word) : Nat := bits w.toNat 52 12

/-- What an access brings to a translation: the cord's walker, tenant, level and roots. -/
structure Regime where
  src : Nat
  tenant : Nat
  lvl : Level
  ptbr : Word
  s2 : Root
  deriving DecidableEq, Repr

/-- The final stage-1 entry: its tenant-physical address as well. -/
structure Leaf1 where
  ea : Nat
  leaf : Leaf
  deriving DecidableEq, Repr

/-- Stage 2 of an address, its faults as traps. -/
def stage2Got (s : State) (g : Regime) (ipa : Nat) (a : Acc1) (mark : Bool) : State × Got Page :=
  match stage2 s g.src g.s2 ipa a mark with
  | (s, .ok (p, _)) => (s, .ok p)
  | (s, .page e) => trapAt s trap.PAGE_S2 e
  | (s, .check e) => trapAt s trap.MACHINE_CHECK e

/-- The stage-1 walk from a table at a level; tables lie at tenant-physical addresses (R119, R121). -/
def walk1 (s : State) (g : Regime) (va table : Nat) (mark : Bool) : Nat → State × Got Leaf1
  | 0 => trapAt s trap.PAGE_S1 va
  | level + 1 =>
    let ea := table + 8 * walkIdx va (level + 1)
    andThen (stage2Got s g ea .load mark) fun s p =>
      match readPte s g.src g.tenant p.pa with
      | (s, none) => trapAt s trap.MACHINE_CHECK p.pa
      | (s, some e) =>
        if !pteOk true (level + 1) e then trapAt s trap.PAGE_S1 va
        else if pte.T e then walk1 s g va (pte.ADDR e) mark level
        else (s, .ok { ea := ea, leaf := { at_ := p.pa, entry := e, out := pte.ADDR e + va % 2 ^ (12 + 9 * level) } })

/-- The stage-1 entry allows the access at the level (R121). -/
def stage1Allows (lvl : Level) (a : Acc1) (e : Nat) : Bool :=
  a.allowed (pte.R e) (pte.W e) (pte.X e) && (lvl != .U || pte.U e) && !(lvl == .S && a == .fetch && pte.U e)

/-- A translation: the address, permissions of both stages, and what a TLB entry keeps. -/
structure Xlat where
  pa : Nat
  ipa : Nat
  attr : Attr
  r : Bool
  w : Bool
  x : Bool
  u : Bool
  global : Bool
  dirty : Bool
  deriving DecidableEq, Repr

/-- The A and D bits of the stage-1 entry set, through stage 2 (R122). -/
def mark1 (s : State) (g : Regime) (l : Leaf1) (b : Nat) : State × Got Unit :=
  if b = 0 then (s, .ok ())
  else
    andThen (stage2Got s g l.ea .store true) fun s p =>
      match setAD s g.src g.tenant p.pa b with
      | (s, true) => (s, .ok ())
      | (s, false) => trapAt s trap.MACHINE_CHECK p.pa

/-- The end of a walk: stage 2 of the output, then the A and D bits when `mark` (R121, R122). -/
def finish2 (s : State) (g : Regime) (ipa : Nat) (l : Option Leaf1) (a : Acc1) (mark : Bool) : State × Got Xlat :=
  andThen (stage2Got s g ipa a false) fun s p =>
  andThen (match l with
    | some l => if mark then mark1 s g l (adBits l.leaf.entry a.writes) else (s, .ok ())
    | none => (s, .ok ())) fun s _ =>
  andThen (if mark then stage2Got s g ipa a true else (s, .ok p)) fun s p =>
    let e := match l with
      | some l => l.leaf.entry
      | none => 0xBF
    let attr1 := match l with
      | some l => attrOf (pte.ATTR l.leaf.entry)
      | none => .cached
    (s, .ok { pa := p.pa, ipa := ipa, attr := attr1.max (p.attr.max (addrAttr p.pa)), r := p.r && pte.R e, w := p.w && pte.W e
              x := p.x && pte.X e, u := pte.U e, global := pte.G e, dirty := p.dirty && (pte.D e || a.writes) })

/-- Both stages walked (R117 to R122). -/
def walkBoth (s : State) (g : Regime) (va : Nat) (a : Acc1) (mark : Bool) : State × Got Xlat :=
  if ptbrEn g.ptbr then
    andThen (walk1 s g va (ptbrRoot g.ptbr) mark 4) fun s l =>
      if !stage1Allows g.lvl a l.leaf.entry then trapAt s trap.PAGE_S1 va
      else finish2 s g l.leaf.out (some l) a mark
  else finish2 s g va none a mark

/-- The walk of a cord: what its own walker reads and marks is no access of another agent, and slips none of its knots (R143). -/
def walkCord (s : State) (c : Nat) (g : Regime) (va : Nat) (a : Acc1) (mark : Bool) : State × Got Xlat :=
  let kn := (s.cord c).knot
  let r := walkBoth (s.modCord c (fun k => { k with knot := none })) g va a mark
  (r.1.modCord c (fun k => { k with knot := kn }), r.2)

/-! ### TLBs (R124) -/

/-- The entry of a cord's TLB that a lookup finds. -/
def tlbFind (s : State) (c : Nat) (g : Regime) (va : Nat) : Option TlbEnt :=
  s.tlb.find? (fun e => e.cord == c && e.tenant == g.tenant && e.vpage == va / 4096
    && (e.global || e.asid == ptbrAsid g.ptbr) && e.s1 == ptbrEn g.ptbr)

/-- The entry allows the access without a walk: an entry without permission, or a write to one not yet dirty, walks. -/
def TlbEnt.allows (e : TlbEnt) (lvl : Level) (a : Acc1) : Bool :=
  a.allowed e.r e.w e.x && (!a.writes || e.dirty)
    && (!e.s1 || ((lvl != .U || e.u) && !(lvl == .S && a == .fetch && e.u)))

/-- A translation kept in the cord's TLB. -/
def tlbFill (s : State) (c : Nat) (g : Regime) (va : Nat) (x : Xlat) : State :=
  let e : TlbEnt :=
    { cord := c, tenant := g.tenant, asid := ptbrAsid g.ptbr, global := x.global && ptbrEn g.ptbr, vpage := va / 4096, ppage := x.pa / 4096
      ipage := x.ipa / 4096, r := x.r, w := x.w, x := x.x, u := x.u, s1 := ptbrEn g.ptbr, dirty := x.dirty, attr := x.attr }
  { s with tlb := e :: s.tlb.filter (fun o => !(o.cord == c && o.tenant == e.tenant && o.vpage == e.vpage && o.asid == e.asid
      && o.s1 == e.s1)) }

/-! ### A cord's address -/

/-- Where an address of a cord leads and its attribute. -/
structure Phys where
  pa : Nat
  attr : Attr
  deriving DecidableEq, Repr

/-- The regime of cord c at a level. -/
def regimeOf (s : State) (c : Nat) (lvl : Level) : Regime :=
  let k := s.cord c
  { src := s.triadOf c, tenant := s.tenantOf c, lvl := lvl, ptbr := k.ptbr, s2 := Root.ofS2br k.s2br }

/-- An address of cord c translated at a level (R117, R118, R122). `mark` sets A and D and fills the TLB; without it the
translation is only tried. -/
def xlateCord (s : State) (c : Nat) (lvl : Level) (va : Word) (a : Acc1) (mark : Bool) : State × Got Phys :=
  let v := va.toNat
  if lvl = .H then (s, .ok { pa := v, attr := addrAttr v })
  else if 2 ^ 48 ≤ v then trapAt s trap.PAGE_S1 v
  else
    let g := regimeOf s c lvl
    let hit := match tlbFind s c g v with
      | some e => if e.allows lvl a then some e else none
      | none => none
    match hit with
    | some e => (s, .ok { pa := e.ppage * 4096 + v % 4096, attr := e.attr })
    | none =>
      andThen (walkCord s c g v a mark) fun s x =>
        (if mark then tlbFill s c g v x else s, .ok { pa := x.pa, attr := x.attr })

/-- A translation for an entry of the operand stack: a fault of either stage carries the home's virtual address (R68). -/
def xlateHome {α : Type} (va : Word) (x : State × Got α) : State × Got α :=
  match x with
  | (s, .trap t) => (s, .trap (if t.cause = trap.PAGE_S2 then { t with eval := va } else t))
  | r => r

/-! ### The Shuttle's map (R232) -/

/-- Where a Shuttle address leads. -/
inductive ShutSpot where
  | imem (o : Nat)
  | dmem (o : Nat)
  | store (o : Nat)
  | pool (o : Nat)
  | quad (o : Nat)
  | tenant (tpa : Nat)
  | hole
  deriving DecidableEq, Repr

def shutSpot (a : Nat) : ShutSpot :=
  if a < 0x20000 then .imem a
  else if 0x100000 ≤ a ∧ a < 0x120000 then .dmem (a - 0x100000)
  else if 0x1000000 ≤ a ∧ a < 0x1800000 then .store (a - 0x1000000)
  else if 0x2000000 ≤ a ∧ a < 0x3000000 then .pool (a - 0x2000000)
  else if 0x4000000 ≤ a ∧ a < 0x4010000 then .quad (a - 0x4000000)
  else if 0x10000000000000 ≤ a ∧ a < 0x10000000000000 + 2 ^ 48 then .tenant (a - 0x10000000000000)
  else .hole

/-- The VI of the operation a Shuttle runs, if it runs one. -/
def shutVi (s : State) (n : Nat) : Option Nat :=
  match (s.shut n).cell with
  | some c => (mget? s.chs.cells c).map JRec.vi
  | none => none

/-- The stage-2 root of a VI (R205). -/
def viRoot (s : State) (v : Nat) : Root := { en := true, table := s.get (CHS_VI_S2.ROOT v) * 4096 }

/-- The wheel source of a Shuttle's accesses: the channel DMA of its quad's group (R167). -/
def shutSrc (s : State) (n : Nat) : Nat := 57 + s.get (CHS_SHUT.QUAD n) / 3

/-- The tenant of the operation a Shuttle runs; 0x000 when it runs none. -/
def shutTenant (s : State) (n : Nat) : Nat :=
  match shutVi s n with
  | some v => s.get (CHS_VI_CFG.TENANT v)
  | none => 0

/-- An address in the memory window of a Shuttle, through the VI's stage 2 (R205, R232). A stage-2 fault or a window with no
operation is a hole. -/
def shutPhys (s : State) (n tpa : Nat) (a : Acc1) : State × Option Nat :=
  match shutVi s n with
  | none => (s, none)
  | some v =>
    match stage2 s (shutSrc s n) (viRoot s v) tpa a true with
    | (s, .ok (p, _)) => (s, some p.pa)
    | (s, _) => (s, none)

end Sys2Proof.Machine
end

