-- ==== Sys2Proof/Machine/Access.lean ====
section
/-! DEFINITION. The memory accesses of an instruction: where they may go (R5, R7, R8, R207, R245, R345, R417), fetches,
loads, the store path, stack fills and the homes of pushes (R67 to R69, R131, R142, R146, R163, R201). -/

namespace Sys2Proof.Machine

/-! ### Ports' windows (R245) -/

/-- Where an MMIO address leads: a port with the offset in its window, a dead or dark port, or no port. -/
inductive Mmio where
  | port (p off : Nat)
  | dead (p : Nat)
  | dark (p : Nat)
  | hole
  deriving DecidableEq, Repr

/-- The address lies in the enabled window of a port. -/
def inWindow (s : State) (low p : Nat) : Bool :=
  s.flag (CHP_MMIO.EN p) && s.get (CHP_MMIO.BASE p) ≤ low / 2 ^ 24 && low / 2 ^ 24 ≤ s.get (CHP_MMIO.LIMIT p)

/-- The quad of a port. -/
def quadOf (p : Nat) : Nat := p / 4

/-- A port in Weft mode. -/
def weftMode (s : State) (p : Nat) : Bool := s.flag (CHP_CFG.MODE p)

/-- The port's window is marked dead: its link is DOWN. -/
def portDead (s : State) (p : Nat) : Bool := s.flag (CHP_STAT.DEAD p) || s.get (CHP_STAT.LINK p) == 0

def mmioOf (s : State) (low : Nat) : Mmio :=
  match (List.range Config.ports).find? (inWindow s low) with
  | none => .hole
  | some p =>
    let off := low - s.get (CHP_MMIO.BASE p) * 2 ^ 24
    if weftMode s p ∧ 2 ^ 32 ≤ off then .hole
    else if !s.lit (dom.quad (quadOf p)) then .dark p
    else if portDead s p then .dead p
    else .port p off

/-! ### Where an access leads -/

/-- The doorbell page of a VI (R207). -/
def pageVi (off : Nat) : Option Nat := if 0x8000000 ≤ off ∧ off < 0x9000000 then some ((off - 0x8000000) / 0x1000) else none

/-- Where a data access leads, once the selvedge and the register rules of R8 and R207 have spoken. -/
inductive Lead where
  | mem (h : Nat)
  | remote (m : Nat)
  | dead
  | dark (d : Nat)
  | window (off : Nat)
  | far (m : Nat)
  | priv
  | mmio (p off : Nat)
  | hole
  deriving DecidableEq, Repr

/-- Where an access of a tenant at a level leads. An S or U access to an offset of the control window outside every block span meets
the hole of R5, not the PRIV of R8 (DESIGN CHOICE, log 40). Whether a VI page of another module is the tenant's is for that module
to say. -/
def leadOf (s : State) (tenant : Nat) (lvl : Level) (pa : Nat) : Lead :=
  match placeFor s pa tenant with
  | .mem h => if s.lit (dom.mem h) then .mem h else .dark (dom.mem h)
  | .remote m => .remote m
  | .dead _ => .dead
  | .hole => .hole
  | .farMmio m => .far m
  | .farWindow m off => if lvl = .H ∨ (pageVi off).isSome then .far m else .priv
  | .mmio =>
    match mmioOf s (pa % 2 ^ 48) with
    | .port p o => .mmio p o
    | .dead _ => .dead
    | .dark p => .dark (dom.quad (quadOf p))
    | .hole => .hole
  | .window off =>
    if lvl = .H then .window off
    else
      match pageVi off with
      | some v => if s.flag (CHS_VI_CFG.EN v) ∧ s.get (CHS_VI_CFG.TENANT v) = tenant then .window off else .hole
      | none => .priv

/-! ### Pieces -/

/-- A translated piece of an access that lies in one line. -/
structure Piece where
  va : Word
  pa : Nat
  size : Nat
  attr : Attr
  deriving DecidableEq, Repr

/-- An access cut at the line boundary it crosses (R131). -/
def cut (va : Word) (n : Nat) : List (Word × Nat) :=
  let o := va.toNat % 256
  if o + n ≤ 256 then [(va, n)] else [(va, 256 - o), (va + BitVec.ofNat 64 (256 - o), n - (256 - o))]

/-- The MID of an address names this module or a member that answers: its MMIO range leads somewhere. -/
def midAnswers (s : State) (pa : Nat) : Bool :=
  match placeOf s (pa / 2 ^ 48 * 2 ^ 48 + 0xF00000000000) with
  | .mmio => true
  | .farMmio _ => true
  | _ => false

/-- The address lies in the control window of a module, VI pages included. -/
def windowRange (s : State) (pa : Nat) : Bool :=
  midAnswers s pa && 0xFF0000000000 ≤ pa % 2 ^ 48 && pa % 2 ^ 48 < 0xFF0100000000

/-- The address lies in the PCIe and Weft MMIO range or the control window of a module. -/
def deviceRange (s : State) (pa : Nat) : Bool :=
  midAnswers s pa && 0xF00000000000 ≤ pa % 2 ^ 48 && pa % 2 ^ 48 < 0xFF0100000000

/-- An access to the control window that is not an aligned 8-byte one (R7). -/
def misWindow (s : State) (pa n : Nat) : Bool := windowRange s pa && !(n == 8 && pa % 8 == 0)

/-- The check of R7, which comes before the pieces are translated for good. -/
def alignCheck (s : State) (c : Nat) (lvl : Level) (a : Acc1) (n : Nat) : List (Word × Nat) → Option Trap
  | [] => none
  | (va, k) :: t =>
    match (xlateCord s c lvl va a false).2 with
    | .ok p =>
      if misWindow s p.pa (if k = n then n else 0) then some { cause := trap.ALIGN, eval := va }
      else alignCheck s c lvl a n t
    | _ => alignCheck s c lvl a n t

/-- Every piece translated (R79 step 8, R131). -/
def physAll (s : State) (c : Nat) (lvl : Level) (a : Acc1) : List (Word × Nat) → State × Got (List Piece)
  | [] => (s, .ok [])
  | (va, k) :: t =>
    andThen (xlateCord s c lvl va a true) fun s p =>
    andThen (physAll s c lvl a t) fun s ps =>
      (s, .ok ({ va := va, pa := p.pa, size := k, attr := p.attr } :: ps))

/-- The pieces of a cord's data access, aligned and translated (R79 steps 7 and 8). -/
def dataPieces (s : State) (c : Nat) (lvl : Level) (a : Acc1) (va : Word) (n : Nat) : State × Got (List Piece) :=
  match alignCheck s c lvl a n (cut va n) with
  | some t => (s, .trap t)
  | none => physAll s c lvl a (cut va n)

/-! ### Step 9 -/

/-- Kinds of data access for the checks of step 9. -/
inductive Use where
  | load | store | atomic
  deriving DecidableEq, Repr

def Core.inKnot (k : Core) : Bool := k.knot.isSome

/-- An access inside a knot to anything but cached normal memory slips (R146). -/
def knotRefuses (attr : Attr) : Lead → Bool
  | .mem _ => attr != .cached
  | .remote _ => attr != .cached
  | .dark _ => attr != .cached
  | _ => true

/-- The data-access check of a piece: knot rules, R8, holes, dead and dark targets (R146, R345, R417). A store is checked
for R8 only: it bounces or is dropped when it is performed. An atomic access traps MACHINE_CHECK in the whole of the MMIO range and
the control window, where they lead nowhere too, as a fetch does (R417 over R245; DESIGN CHOICE, log 40). -/
def leadCheck (s : State) (c : Nat) (w : InsnWord) (lvl : Level) (u : Use) (p : Piece) : State × Got Lead :=
  let l := leadOf s (s.tenantOf c) lvl p.pa
  if (s.cord c).inKnot ∧ knotRefuses p.attr l then (s, .slip slip.UNSUPPORTED_OP)
  else if u = .atomic ∧ deviceRange s p.pa then trapAt s trap.MACHINE_CHECK p.pa
  else
    match u, l with
    | .store, .priv => trapAt s trap.PRIV w.toNat
    | .store, l => (s, .ok l)
    | _, .hole => trapAt (countRefusal s p.pa (s.tenantOf c)) trap.ADDR_HOLE p.pa
    | _, .dark _ => trapAt s trap.BUS_DARK p.pa
    | _, .dead => trapAt s trap.MACHINE_CHECK p.pa
    | _, .priv => trapAt s trap.PRIV w.toNat
    | _, l => (s, .ok l)

/-! ### The cord's own bytes (R69, R128) -/

/-- The cached stack entry whose home covers a byte (R69). -/
def Core.stackByte (k : Core) (pa : Nat) : Option Nat :=
  (k.cache.find? (fun e => e.home ≤ pa && pa < e.home + 8)).map (fun e => e.val.toNat / 256 ^ (pa - e.home) % 256)

/-- The newest buffered store to a byte. -/
def sbufByte (pa : Nat) : List SbEnt → Option Nat
  | [] => none
  | e :: t =>
    match sbufByte pa t with
    | some b => some b
    | none => if e.line = pa / 256 ∧ e.mask.getLsbD (pa % 256) then some (lineBytes e.bytes (pa % 256) 1) else none

/-- A byte of which the cord itself holds the newest value. -/
def Core.ownByte (k : Core) (pa : Nat) : Option Nat :=
  match k.stackByte pa with
  | some b => some b
  | none =>
    match sbufByte pa k.sbuf with
    | some b => some b
    | none =>
      match k.knot with
      | some kn => (mget? kn.bytes pa).map (·.toNat)
      | none => none

/-- n bytes of a value from an address with the cord's own bytes over them. -/
def Core.patch (k : Core) (pa : Nat) : Nat → Nat → Nat
  | 0, _ => 0
  | n + 1, v => (k.ownByte pa).getD (v % 256) + 256 * k.patch (pa + 1) n (v / 256)

/-- A byte that is not the cord's own lies in a poisoned sector. -/
def Core.meetsPoison (k : Core) (poison : BitVec 4) (pa : Nat) : Nat → Bool
  | 0 => false
  | n + 1 =>
    ((k.ownByte pa).isNone && poison.getLsbD (pa % 256 / 64)) || k.meetsPoison poison (pa + 1) n

/-- Sectors of a piece join the read set (R142). -/
def Core.readSet (k : Core) (pa n : Nat) : Core :=
  let add (xs : List Nat) (x : Nat) : List Nat := if x ∈ xs then xs else x :: xs
  { k with knot := k.knot.map (fun kn => { kn with reads := add (add kn.reads (pa / 64)) ((pa + n - 1) / 64) }) }

/-- A poisoned read (R149, R201). -/
def poisonTrap (s : State) (c : Nat) (va : Word) (pa : Nat) : State × Got Nat :=
  if (s.cord c).inKnot then (s, .slip slip.POISON)
  else if s.poisonPolicy then (s, .trap { cause := trap.POISON, eval := va })
  else trapAt s trap.MACHINE_CHECK pa

/-! ### Lines for a cord -/

/-- Other lines of a cord's L1D or L1I in a line's set, which its number names (DESIGN CHOICE, log 18). -/
def l1Mates (s : State) (c line : Nat) (fetch : Bool) : List Nat :=
  let t := s.triadOf c
  let b := l1Bits s t (s.shareOf c)
  (s.l2.filter (fun e => e.1 / 2 ^ 44 == t && ((if fetch then e.2.l1i else e.2.l1d) &&& b) != 0
    && e.1 % Config.l1Sets == line % Config.l1Sets && e.1 % 2 ^ 44 != line)).map (fun e => e.1 % 2 ^ 44)

/-- A line leaves the L1D or L1I of a cord: out of the L1D a reservation on it goes with it, and a knot that has read it slips with
CAPACITY (R134, R144). -/
def leaveL1 (s : State) (c line : Nat) (fetch : Bool) : State :=
  let t := s.triadOf c
  let x := s.l2At t line
  let b := l1Bits s t (s.shareOf c)
  if fetch then s.setL2 t line { x with l1i := x.l1i &&& ~~~b }
  else
    let s := (s.setL2 t line { x with l1d := x.l1d &&& ~~~b }).modCord c (fun k => k.clearResv (line * 256) 256)
    match (s.cord c).knot with
    | some kn => if kn.reads.any (fun r => r / 4 == line) then slipCord s c slip.CAPACITY 0 line else s
    | none => s

/-- A way for a line in a cord's L1: of a full set a line drawn at random leaves (R150; DESIGN CHOICE, log 18). -/
def l1Room (s : State) (c line : Nat) (fetch : Bool) : State :=
  let ms := l1Mates s c line fetch
  if ms.length < Config.l1Ways then s
  else
    match ms[s.freeVal.toNat % ms.length]? with
    | some v => leaveL1 s.drew c v fetch
    | none => s

/-- A strand's L1D or L1I now holds a line of the L2. -/
def touchL1 (s : State) (c line : Nat) (fetch : Bool) : State :=
  let t := s.triadOf c
  let b := l1Bits s t (s.shareOf c)
  let x := s.l2At t line
  if x.st = .I ∨ ((if fetch then x.l1i else x.l1d) &&& b) = b then s
  else
    let s := l1Room s c line fetch
    let x := s.l2At t line
    s.setL2 t line (if fetch then { x with l1i := x.l1i ||| b } else { x with l1d := x.l1d ||| b })

/-- The trap of an access that its home refuses or does not answer (R137, R183, R345). -/
def refusedTrap {α : Type} (s : State) (e : CmpEnd) (pa : Nat) : State × Got α :=
  trapAt s (match e with
    | .dark => trap.BUS_DARK
    | .silent => trap.MACHINE_CHECK
    | _ => trap.ADDR_HOLE) pa

/-- What follows once an access at a home is done. -/
def onceThen {α : Type} (s : State) (r : Now) (pa : Nat) (f : State → State × Got α) : State × Got α :=
  match r with
  | .done => f s
  | .waits => (s, .wait)
  | .refused e => refusedTrap s e pa

/-- What follows once a line has been obtained. -/
def lineThen {α : Type} (x : State × Line) (pa : Nat) (f : State → State × Got α) : State × Got α :=
  match x with
  | (s, .ready) => f s
  | (s, .waits) => (s, .wait)
  | (s, .refused e) => refusedTrap s e pa

/-- The line of n bytes at an address for a read of cord c: through its caches, or once when the page is not cached or the cache is
off (R163). Only the sectors read must have come (R152). -/
def readLine (s : State) (c pa n : Nat) (cached fetch : Bool) : State × Got (LineData × BitVec 4) :=
  let t := s.triadOf c
  let line := normLine s pa
  let off := if fetch then l1iOff s t (s.shareOf c) else l1dOff s t (s.shareOf c)
  if cached ∧ !off then
    lineThen (obtain s c line (touched (spanMask (pa % 256) n)) false false) pa fun s =>
      let x := s.l2At t line
      (touchL1 s c line fetch, .ok (x.bytes, x.poison))
  else
    let (s, r, d, p) := readOnce s t c (s.tenantOf c) line
    onceThen s r pa fun s => (s, .ok (d, p))

/-- A device store of the cord has not been performed yet; device accesses keep program order (R127). -/
def Core.devicePending (k : Core) : Bool := k.sbuf.any (fun e => e.attr == .device)

/-- What a load brings: a value, or a request to a port whose answer it awaits; `whole` says that the answer is the load's value. -/
inductive Val where
  | now (v : Nat)
  | later (p off pa size : Nat) (whole : Bool)
  deriving DecidableEq, Repr

/-- A load from memory of a piece (R142, R163, R201). -/
def loadMem (s : State) (c : Nat) (p : Piece) : State × Got Nat :=
  let t := s.triadOf c
  if (s.cord c).inKnot ∧ l1dOff s t (s.shareOf c) then (s, .slip slip.CAPACITY)
  else
    andThen (readLine s c p.pa p.size (p.attr == .cached) false) fun s (d, poison) =>
      let k := s.cord c
      if k.meetsPoison poison p.pa p.size then poisonTrap s c p.va p.pa
      else (s.setCord c (k.readSet p.pa p.size), .ok (k.patch p.pa p.size (lineBytes d (p.pa % 256) p.size)))

/-- log2 of an access size. -/
def log2Size (n : Nat) : Nat := if n = 8 then 3 else if n = 4 then 2 else if n = 2 then 1 else 0

/-- A device load is journalled as VALUE (R381). -/
def stageValue (s : State) (c v pa n : Nat) : State :=
  stageCord s rplType.VALUE c v [BitVec.ofNat 64 pa, BitVec.ofNat 64 (log2Size n)]

/-- Every byte of a piece lies in a cached stack entry (R69). -/
def Core.stackHas (k : Core) (pa n : Nat) : Bool := (List.range n).all (fun i => (k.stackByte (pa + i)).isSome)

/-- The answer that a device has given the instruction at hand for an address (R127). -/
def Core.answerAt (k : Core) (pa : Nat) : Option Nat := (k.answers.find? (fun e => e.1 == pa)).map (fun e => e.2.toNat)

/-- A device's answer kept until the instruction at hand is over. -/
def Core.answered (k : Core) (pa v : Nat) : Core := { k with answers := (pa, BitVec.ofNat 64 v) :: k.answers }

/-- A read of a device of another module: sent once, its answer kept (R127; log 39). -/
def loadFar (s : State) (c : Nat) (p : Piece) : State × Got Nat :=
  match (s.cord c).answerAt p.pa with
  | some v => (s, .ok v)
  | none =>
    let (s, r, d, _) := readOnce s (s.triadOf c) c (s.tenantOf c) (p.pa / 256)
    onceThen s r p.pa fun s =>
      let v := lineBytes d (p.pa % 256) p.size
      ((stageValue s c v p.pa p.size).modCord c (fun k => k.answered p.pa v), .ok v)

/-- A checked piece loaded. Bytes of cached stack entries are read there, and a device that they cover is not (R69). A device load
of a replayed cord is not performed (R390). -/
def loadPiece (s : State) (c : Nat) (p : Piece) (l : Lead) : State × Got Val :=
  let k := s.cord c
  let own (v : Nat) : Val := .now (k.patch p.pa p.size v)
  if p.attr = .device ∧ k.stackHas p.pa p.size then (s, .ok (own 0))
  else if p.attr = .device ∧ k.devicePending then (s, .wait)
  else if p.attr = .device ∧ s.replayed c then
    let (s, v) := replayValue s c
    (s, .ok (.now (v % 256 ^ p.size)))
  else
    match l with
    | .window off =>
      let v := readReg s off
      (stageValue (readClears s off) c v p.pa 8, .ok (own v))
    | .mmio q off =>
      (match k.answerAt p.pa with
        | some v => (s, .ok (own v))
        | none => (s, .ok (.later q off p.pa p.size (!k.cache.any (fun e => overlaps e.home 8 p.pa p.size)))))
    | .far _ => andThen (loadFar s c p) fun s v => (s, .ok (own v))
    | _ =>
      andThen (loadMem s c p) fun s v =>
        (if p.attr = .device then stageValue s c v p.pa p.size else s, .ok (.now v))

/-- The pieces of a load together: the lower piece in the low bytes. A piece behind a port makes the load wait for that port; it is
the whole load only when it is the only piece. -/
def loadPieces (s : State) (c : Nat) : List (Piece × Lead) → State × Got Val
  | [] => (s, .ok (.now 0))
  | (p, l) :: t =>
    andThen (loadPiece s c p l) fun s v =>
      match v with
      | .later q o pa n w => (s, .ok (.later q o pa n (w && t.isEmpty)))
      | .now x =>
        andThen (loadPieces s c t) fun s y =>
          match y with
          | .now z => (s, .ok (.now (x + z * 256 ^ p.size)))
          | .later q o pa n _ => (s, .ok (.later q o pa n false))

/-- A register read of cord c sent to the device behind a port (R245): a REG_RD frame, or a read TLP. -/
def sendRead (s : State) (c p off pa n : Nat) : State × Nat :=
  if weftMode s p then regSend s p (s.tenantOf c) ft.REG_RD off 0 0 else (s.send (.tlpRead p pa n), 0)

/-- A read of cord c goes out to a port, and the cord waits for the answer (R245). -/
def parkRead {α : Type} (s : State) (c q off : Nat) (w : LoadWait) : State × Got α :=
  let (s, n) := sendRead s c q off w.pa w.size
  (s, .park (.waitLoad { w with port := q, seq := n }))

/-- A value that a part of an instruction needs: what a load brings; a read of a port is answered first (R127). -/
def needValue (s : State) (c : Nat) (v : Val) : State × Got Nat :=
  match v with
  | .now x => (s, .ok x)
  | .later q off pa n _ =>
    parkRead s c q off { port := 0, seq := 0, pa := pa, size := n, whole := false, pops := 0, home := { pa := 0, attr := .cached }, ag := none }

/-- As `needValue`, for any agent: a Shuttle's loads bring their value at once. -/
def numberOf (s : State) (a : Agent) (v : Val) : State × Got Nat :=
  match a, v with
  | .cord c, v => needValue s c v
  | .shuttle _, .now x => (s, .ok x)
  | .shuttle _, .later _ _ _ _ _ => (s, .wait)

/-- Every piece checked before any is performed (R131). -/
def checkPieces (s : State) (c : Nat) (w : InsnWord) (lvl : Level) (u : Use) : List Piece → State × Got (List (Piece × Lead))
  | [] => (s, .ok [])
  | p :: t =>
    andThen (leadCheck s c w lvl u p) fun s l =>
    andThen (checkPieces s c w lvl u t) fun s ps => (s, .ok ((p, l) :: ps))

/-- A load of a cord: n bytes at an address (R79 steps 7 to 9). -/
def loadCord (s : State) (c : Nat) (w : InsnWord) (lvl : Level) (va : Word) (n : Nat) : State × Got Val :=
  andThen (dataPieces s c lvl .load va n) fun s ps =>
  andThen (checkPieces s c w lvl .load ps) fun s ls => loadPieces s c ls

/-! ### Shuttle memory (R232) -/

/-- n bytes of a byte table. -/
def tableBytes (m : SMap Byte) (a : Nat) : Nat → Nat
  | 0 => 0
  | n + 1 => (mget m a 0).toNat + 256 * tableBytes m (a + 1) n

def tableWrite (m : SMap Byte) (a v : Nat) : Nat → SMap Byte
  | 0 => m
  | n + 1 => tableWrite (mput m a (BitVec.ofNat 8 v) 0) (a + 1) (v / 256) n

/-- The tenant of a subchannel: its VI's. -/
def scbTenant (s : State) (b : Scb) : Nat := if b.state = 0 then 0 else s.get (CHS_VI_CFG.TENANT b.vi)

/-- The 16 words of an SCB in the layout of CHS_SCDATA; sense words follow. -/
def scbWords (s : State) (b : Scb) : List Word :=
  [BitVec.ofNat 64 (b.state + b.kind * 2 ^ 3 + b.vi * 2 ^ 16 + scbTenant s b * 2 ^ 28 + b.port * 2 ^ 38),
    BitVec.ofNat 64 (b.target + b.blk * 2 ^ 32), BitVec.ofNat 64 b.nextSeq,
    BitVec.ofNat 64 (b.opened + b.opMax * 2 ^ 16 + b.tmo * 2 ^ 32), BitVec.ofNat 64 b.haltSeq] ++ b.sense.take 11

/-- A subchannel block from the 16 words of an SCB in the layout of CHS_SCDATA. -/
def scbOf (ws : List Word) : Scb :=
  let w (i : Nat) : Nat := (ws.getD i 0).toNat
  { state := bits (w 0) 0 2, kind := bits (w 0) 3 2, vi := bits (w 0) 16 12, port := bits (w 0) 38 6, target := bits (w 1) 0 32
    blk := bits (w 1) 32 8, nextSeq := bits (w 2) 0 48, opened := bits (w 3) 0 13, opMax := bits (w 3) 16 13, tmo := bits (w 3) 32 16
    haltSeq := bits (w 4) 0 48, mdts := 0, sense := ws.drop 5 }

/-- n bytes from an address, each given by a function. -/
def bytesFrom (g : Nat → Nat) (a : Nat) : Nat → Nat
  | 0 => 0
  | n + 1 => g a % 256 + 256 * bytesFrom g (a + 1) n

/-- A byte of the subchannel store as Shuttle firmware sees it (R232). -/
def storeByte (s : State) (o : Nat) : Nat :=
  ((bytesOfWords (scbWords s (mget s.chs.scbs (o / 128) Scb.reset))).getD (o % 128) 0).toNat

/-- A byte of the pool as Shuttle firmware sees it: what firmware wrote there, else a byte of a free value (log 22). -/
def poolByte (s : State) (o : Nat) : Nat :=
  match mget? s.chs.pool o with
  | some b => b.toNat
  | none => bits s.freeVal.toNat (8 * (o % 8)) 8

/-- The control-window offset of an offset in a Shuttle's quad registers: those of the quad's port i from i × 0x1000 on (DEDUCED, log
45); beyond them there is no register. -/
def quadOff (s : State) (n o : Nat) : Option Nat :=
  if o < 0x4000 then some (CHP_CFG.off (4 * s.get (CHS_SHUT.QUAD n)) + o) else none

/-- A byte of the quad's registers. -/
def quadByte (s : State) (n o : Nat) : Nat :=
  match quadOff s n (o / 8 * 8) with
  | some r => bits (readReg s r) (8 * (o % 8)) 8
  | none => 0

/-- What reading k bytes of the quad's registers clears. -/
def quadClears (s : State) (n o k : Nat) : State :=
  [o / 8 * 8, (o + k - 1) / 8 * 8].foldl (fun s a => match quadOff s n a with
    | some r => readClears s r
    | none => s) s

/-- A load of a Shuttle. -/
def loadShuttle (s : State) (n : Nat) (va : Word) (k : Nat) : State × Got Val :=
  let a := va.toNat
  let own (s : State) (v : Nat) : State × Got Val := (s, .ok (.now ((s.shut n).core.patch a k v)))
  match shutSpot a with
  | .dmem o => own s (tableBytes (s.shut n).dmem o k)
  | .store o => own s (bytesFrom (storeByte s) o k)
  | .pool o => own s.drew (bytesFrom (poolByte s) o k)
  | .quad o => if s.chs.writes = [] then own (quadClears s n o k) (bytesFrom (quadByte s n) o k) else own (s.want .turn) 0
  | .tenant tpa =>
    match shutPhys s n tpa .load with
    | (s, none) => trapAt s trap.ADDR_HOLE a
    | (s, some pa) =>
      let (s, b) := readBytes s (shutSrc s n) (shutTenant s n) pa k
      if b.reach ≠ .ok then trapAt s trap.ADDR_HOLE b.at_
      else if b.poison then
        (if s.poisonPolicy then trapAt s trap.POISON a else trapAt s trap.MACHINE_CHECK pa)
      else own s b.val
  | _ => trapAt s trap.ADDR_HOLE a

/-- A load of an agent at a level. -/
def loadAt (s : State) (a : Agent) (w : InsnWord) (lvl : Level) (va : Word) (n : Nat) : State × Got Val :=
  match a with
  | .cord c => loadCord s c w lvl va n
  | .shuttle k => loadShuttle s k va n

/-! ### Fetch (R79 step 2) -/

/-- An address that no access has: it marks that the word of the instruction at hand has been fetched, and its value. -/
def fetchMark : Nat := 2 ^ 52 + 1

/-- The word at a cord's PC, read through its caches (R79 step 2). -/
def fetchWord (s : State) (c : Nat) : State × Got InsnWord :=
  let k := s.cord c
  andThen (xlateCord s c k.lvl k.pc .fetch true) fun s p =>
    let go (s : State) : State × Got InsnWord :=
      andThen (readLine s c p.pa 4 (p.attr == .cached) true) fun s (d, poison) =>
        if poison.getLsbD (p.pa % 256 / 64) then trapAt s trap.MACHINE_CHECK p.pa
        else (s, .ok (BitVec.ofNat 32 (lineBytes d (p.pa % 256) 4)))
    if deviceRange s p.pa then trapAt s trap.MACHINE_CHECK p.pa
    else
      match leadOf s (s.tenantOf c) .H p.pa with
      | .mem _ => go s
      | .remote _ => go s
      | .dark _ => trapAt s trap.BUS_DARK p.pa
      | .hole => trapAt (countRefusal s p.pa (s.tenantOf c)) trap.ADDR_HOLE p.pa
      | _ => trapAt s trap.MACHINE_CHECK p.pa

/-- The fetch of a cord's instruction; a word that its single step has fetched already is not fetched again. -/
def fetchCord (s : State) (c : Nat) : State × Got Unit :=
  if ((s.cord c).answerAt fetchMark).isSome then (s, .ok ()) else andThen (fetchWord s c) fun s _ => (s, .ok ())

/-- A Shuttle fetches from its instruction memory; every other address is a hole (R232). -/
def fetchAt (s : State) (a : Agent) : State × Got Unit :=
  match a with
  | .cord c => fetchCord s c
  | .shuttle n =>
    let pc := (s.shut n).core.pc.toNat
    match shutSpot pc with
    | .imem _ => (s, .ok ())
    | _ => trapAt s trap.ADDR_HOLE pc

/-! ### Stack fills and homes (R67, R68) -/

/-- One fill of the deepest missing entry. -/
def fillOne (s : State) (a : Agent) (w : InsnWord) : State × Got Unit :=
  let k := s.core a
  let va : Word := BitVec.ofNat 64 (k.sp + 8 * k.cache.length)
  let put (s : State) (x : Nat) (h : Home) : State × Got Unit :=
    (s.modCore a (fun k => { k with cache := k.cache ++ [{ val := BitVec.ofNat 64 x, home := h.pa, attr := h.attr }] }), .ok ())
  match a with
  | .cord c =>
    andThen (xlateHome va (dataPieces s c k.lvl .fill va 8)) fun s ps =>
    andThen (checkPieces s c w k.lvl .load ps) fun s ls =>
    andThen (loadPieces s c ls) fun s v =>
    andThen (needValue s c v) fun s x =>
      put s x (match ps with
        | p :: _ => { pa := p.pa, attr := p.attr }
        | [] => { pa := 0, attr := .cached })
  | .shuttle n =>
    andThen (loadShuttle s n va 8) fun s v =>
    andThen (numberOf s a v) fun s x => put s x { pa := va.toNat, attr := .cached }

/-- At least n entries cached; the fuel is n. -/
def fillTo (s : State) (a : Agent) (w : InsnWord) (n : Nat) : Nat → State × Got Unit
  | 0 => (s, .ok ())
  | f + 1 =>
    if n ≤ (s.core a).cache.length then (s, .ok ())
    else andThen (fillOne s a w) fun s _ => fillTo s a w n f

/-- The home of an entry pushed at an address of a level's stack (R68): a control-window register refuses S and U (R8), and inside a
knot it must be cached memory (R146). -/
def homeAt (s : State) (a : Agent) (w : InsnWord) (lvl : Level) (va : Nat) : State × Got Home :=
  match a with
  | .shuttle _ => (s, .ok { pa := va, attr := .cached })
  | .cord c =>
    let va := BitVec.ofNat 64 va
    andThen (xlateHome va (xlateCord s c lvl va .store true)) fun s p =>
      let l := leadOf s (s.tenantOf c) lvl p.pa
      if (s.cord c).inKnot ∧ knotRefuses p.attr l then (s, .slip slip.UNSUPPORTED_OP)
      else if l = .priv then trapAt s trap.PRIV w.toNat
      else (s, .ok { pa := p.pa, attr := p.attr })

/-- Homes of q pushes below an address, in the order of the pushes. -/
def homesBelow (s : State) (a : Agent) (w : InsnWord) (lvl : Level) (top : Nat) : Nat → State × Got (List Home)
  | 0 => (s, .ok [])
  | q + 1 =>
    andThen (homeAt s a w lvl (top - 8)) fun s h =>
    andThen (homesBelow s a w lvl (top - 8) q) fun s hs => (s, .ok (h :: hs))

/-- The stack step of an instruction: its checks, the fills of the entries it reads, and the homes of what it pushes (R66 to
R68). Answers the entries read, top first, and the homes in push order. `reads` may exceed the entries popped. -/
structure Stk where
  ins : List Word
  homes : List Home
  deriving DecidableEq, Repr

def stackStep (s : State) (a : Agent) (w : InsnWord) (reads pops pushes : Nat) : State × Got Stk :=
  let k := s.core a
  let sp := k.sp
  if !k.stackOk k.lvl reads (reads - pops + pushes) then trapAt s trap.STACK_LIMIT sp
  else
    andThen (fillTo s a w reads reads) fun s _ =>
    andThen (homesBelow s a w k.lvl (sp + 8 * pops) pushes) fun s hs =>
      (s, .ok { ins := ((s.core a).cache.take reads).map SEnt.val, homes := hs })

/-- Pops and pushes of an instruction applied; homes stand in push order. -/
def Core.replace (k : Core) (tenant pops : Nat) : List (Word × Home) → Core
  | [] => k.popN pops
  | vs => vs.foldl (fun k x => k.pushHome tenant x.1 x.2) (k.popN pops)

/-! ### The store path (R69, R130) -/

/-- Bytes of a value written into a cached entry where they overlap it. -/
def SEnt.write (e : SEnt) (pa n v : Nat) : SEnt :=
  { e with val := BitVec.ofNat 64 ((List.range 8).foldl (fun x i =>
      let b := if pa ≤ e.home + i ∧ e.home + i < pa + n then v / 256 ^ (e.home + i - pa) % 256 else e.val.toNat / 256 ^ i % 256
      x + b * 256 ^ i) 0) }

/-- Each byte that no cached entry covers enters the store buffer. -/
def Core.storeBytes (k : Core) (tenant : Nat) (p : Piece) (v : Nat) : Nat → Core
  | 0 => k
  | n + 1 =>
    let k := k.storeBytes tenant p v n
    if (k.stackByte (p.pa + n)).isSome then k
    else k.store { pa := p.pa + n, va := p.va + BitVec.ofNat 64 n, size := 1, val := v / 256 ^ n % 256, tenant := tenant, attr := p.attr }

/-- A piece of a store: bytes of cached entries change there, the others enter the store buffer (R69). -/
def Core.storePiece (k : Core) (tenant : Nat) (p : Piece) (v : Nat) : Core :=
  if k.cache.any (fun e => overlaps e.home 8 p.pa p.size) then
    let k := k.storeBytes tenant p v p.size
    { k with cache := k.cache.map (fun e => e.write p.pa p.size v) }
  else k.store { pa := p.pa, va := p.va, size := p.size, val := v, tenant := tenant, attr := p.attr }

/-- Every piece of a store, the lower one from the low bytes. -/
def Core.storePieces (k : Core) (tenant : Nat) : List Piece → Nat → Core
  | [], _ => k
  | p :: t, v => (k.storePiece tenant p v).storePieces tenant t (v / 256 ^ p.size)

/-- Entries spilled until none overlaps the bytes: what a load-reserved, store-conditional or far atomic does first (R69). -/
def Core.spillOver (k : Core) (tenant pa n : Nat) : Nat → Core
  | 0 => k
  | f + 1 =>
    if k.cache.any (fun e => overlaps e.home 8 pa n) then (k.spillDeepest tenant).spillOver tenant pa n f else k

/-- An address that no access has: it marks that the instruction at hand has spilled what overlaps its operand. -/
def spillMark : Nat := 2 ^ 52

/-- As `spillOver`, once in an instruction: entries that a later try has filled again for its operands are as they stand in memory, and
only leave the cache. -/
def Core.spillOnce (k : Core) (tenant pa n : Nat) : Core :=
  if (k.answerAt spillMark).isSome then { k with cache := k.cache.takeWhile (fun e => !overlaps e.home 8 pa n) }
  else
    let k' := k.spillOver tenant pa n 32
    if k'.cache.length = k.cache.length then k' else k'.answered spillMark 0

/-- A buffered store to the line of an address is still to be performed (R132). -/
def Core.buffered (k : Core) (pa : Nat) : Bool := k.sbuf.any (fun e => e.line == pa / 256)

end Sys2Proof.Machine
end

