-- ==== Sys2Proof/Machine/StoreMem.lean ====
section
/-! DEFINITION. Stores to DDR and CXL memory leaving the store buffer (R127, R128, R130, R142, R163). -/

namespace Sys2Proof.Machine

/-- Bytes written into a line that the L2 holds in M: sectors dirty, covered ones free of poison (R200). -/
def writeL2 (s : State) (t line : Nat) (mask : LineMask) (bytes : LineData) : State :=
  let x := s.l2At t line
  s.setL2 t line { x with bytes := mergeLine x.bytes bytes mask, dirty := x.dirty ||| touched mask
                          poison := x.poison &&& ~~~covered mask }

/-- What becomes of a store that tries to leave the buffer. -/
inductive Fate where
  | done
  | sent (port seq : Nat)
  | bounce
  | wait
  deriving DecidableEq, Repr

/-- The value of a device store. -/
def SbEnt.value (e : SbEnt) : Nat := lineBytes e.bytes (e.pa % 256) e.size

/-- An entry is known by the program order of its first store. -/
def SbEnt.tag (e : SbEnt) : Nat := (e.stores.headD (0, 0)).1

/-! ### Memory -/

/-- Bytes of an entry marked poisoned in the line of an L2 (R53). -/
def poisonL2 (s : State) (t line : Nat) (mask : LineMask) : State :=
  let x := s.l2At t line
  s.setL2 t line { x with poison := x.poison ||| touched mask }

/-- The bytes of a knot store over those the knot has written before (R142). -/
def Knot.over (kn : Knot) (e : SbEnt) : Knot :=
  { kn with bytes := (List.range 256).foldl (fun m i =>
      if e.mask.getLsbD i then mset m (e.line * 256 + i) (BitVec.ofNat 8 (lineBytes e.bytes i 1)) else m) kn.bytes }

/-- What becomes of a store whose home refuses it: it bounces at a hole and is dropped at a dark block (R137, R345). -/
def CmpEnd.fate (e : CmpEnd) : Fate := if e = .dark then .done else .bounce

/-- What follows once a store's line has been obtained. -/
def lineFate (x : State × Line) (f : State → State × Fate) : State × Fate :=
  match x with
  | (s, .ready) => f s
  | (s, .waits) => (s, .wait)
  | (s, .refused e) => (s, CmpEnd.fate e)

/-- A knot store: its line in M, its bytes beside it; a partial write of a poisoned sector slips the knot, and so does a disabled
cache (R142, R163, R201). -/
def performKnot (s : State) (c : Nat) (e : SbEnt) : State × Fate :=
  let line := normLine s e.pa
  if l1dOff s (s.triadOf c) (s.shareOf c) then (slipCord s c slip.CAPACITY 0 line, .done)
  else
    lineFate (obtain s c line (touched e.mask) true false) fun s =>
      if (s.l2At (s.triadOf c) line).poison &&& touched e.mask &&& ~~~covered e.mask ≠ 0 then
        (slipCord s c slip.POISON 0 line, .done)
      else (s.modCord c (fun k => { k with knot := k.knot.map (fun x => x.over e) }), .done)

/-- A store as a request to its home (R163, R176): a whole line as WR_LINE, but a store moved into a claim always as WR_PART (R419). -/
def SbEnt.request (e : SbEnt) (bad moved : Bool) : ReqKind :=
  let p : BitVec 4 := if bad then touched e.mask else 0
  if e.mask = BitVec.allOnes 256 ∧ !moved then .wrLine e.bytes p else .wrPart e.mask e.bytes p

/-- A store at its line's home, for requester `who` of an agent. One whose CMP is awaited has left the buffer (R137, R163, R170, R176). -/
def performHome (s : State) (src who : Nat) (e : SbEnt) (bad moved : Bool) : State × Fate :=
  let line := normLine s e.pa
  let k := e.request bad moved
  if evicting s src line then (s, .wait)
  else
    match onceNow s who k { Req.of src line e.tenant with house := moved } with
    | (s, .done, _) => (s, .done)
    | (s, .refused e, _) => (s, CmpEnd.fate e)
    | (s, .waits, _) => (s, if (s.owedFor src who line k).isSome then .sent farPort 0 else .wait)

/-- A store to DDR or CXL memory: in the cord's caches when it uses them, else at the home. -/
def performMem (s : State) (c : Nat) (e : SbEnt) (bad : Bool) : State × Fate :=
  let t := s.triadOf c
  let line := normLine s e.pa
  if e.attr = .cached ∧ !l1dOff s t (s.shareOf c) then
    lineFate (obtain s c line (touched e.mask) true false) fun s =>
      let s := writeL2 s t line e.mask e.bytes
      (if bad then poisonL2 s t line e.mask else s, .done)
  else performHome s t c e bad false

/-! ### The buffer -/

/-- An earlier entry must be performed first: one of the same line, or a device store before a device store (R127, R128). -/
def SbEnt.after (e : SbEnt) (earlier : List SbEnt) : Bool :=
  earlier.any (fun x => x.line == e.line || (x.attr == .device && e.attr == .device))

/-- An entry leaves the buffer. -/
def dropEntry (s : State) (c tag : Nat) : State :=
  s.modCord c (fun k => { k with sbuf := k.sbuf.filter (fun x => x.tag ≠ tag) })

/-- The fate of an entry of a cord's buffer applied. -/
def settleEntry (s : State) (c : Nat) (e : SbEnt) : Fate → State
  | .done => dropEntry s c e.tag
  | .sent p q => s.modCord c (fun k => { k with sbuf := k.sbuf.map (fun (x : SbEnt) =>
      if x.tag = e.tag then { x with sent := true, port := p, seq := q } else x) })
  | .bounce => bounced (dropEntry s c e.tag) c e
  | .wait => s

/-- A store that leads to DDR or CXL memory. -/
def SbEnt.toMem (s : State) (e : SbEnt) : Bool :=
  match leadOf s e.tenant e.lvl e.pa with
  | .mem _ => true
  | .remote _ => true
  | _ => false

/-- Memory stores of a cord's buffer are performed, oldest first, where `p` asks for them; the others stay. -/
def roomList (c : Nat) (p : SbEnt → Bool) : List SbEnt → State → State
  | [], s => s
  | e :: t, s =>
    let earlier := (s.cord c).sbuf.takeWhile (fun x => x.tag ≠ e.tag)
    if !p e ∨ e.sent ∨ e.knot ∨ e.attr = .device ∨ !(s.cord c).sbuf.any (fun x => x.tag == e.tag) ∨ e.after earlier ∨ !e.toMem s then
      roomList c p t s
    else
      let (s, f) := performMem s c e false
      roomList c p t (settleEntry s c e f)

/-- The buffered stores of a cord to a line performed, as a far atomic needs (R132). -/
def drainLine (s : State) (c line : Nat) : State := roomList c (fun e => e.line == line) (s.cord c).sbuf s

/-- Stores still in the buffer; those sent have left it. -/
def Core.buffers (k : Core) : Nat := (k.sbuf.filter (fun e => !e.sent)).length

/-- A full store buffer drains before its cord's next instruction (R130). -/
def makeRoom (s : State) : Agent → State
  | .cord c => if (s.cord c).buffers < 16 then s else roomList c (fun _ => true) (s.cord c).sbuf s
  | .shuttle _ => s

end Sys2Proof.Machine
end

