-- ==== Sys2Proof/WellFormed.lean ====
section
/-! DEFINITION. Well-formed instructions: those that pass the decode checks of R79 step 3. -/

namespace Sys2Proof

/-- An instruction that does not trap ILLEGAL at decode. -/
abbrev Instr.WellFormed (i : Instr) : Prop := i.ok = true

end Sys2Proof
end

