-- ==== Sys2Proof/Machine/Insn.lean ====
section
/-! DEFINITION. Running one instruction: taking a trap (R93, R94), slips (R147 to R149), the checks of R79 in their order,
and retirement (R78, R112, R113, R382). An instruction is one retire group that the voter has passed (log 8). -/

namespace Sys2Proof.Machine

/-! ### Trap registers of a level -/

def Core.trOf (k : Core) : Level → TrapRegs
  | .H => k.trH
  | _ => k.trS

def Core.setTr (k : Core) (l : Level) (x : TrapRegs) : Core :=
  match l with
  | .H => { k with trH := x }
  | _ => { k with trS := x }

/-- ESTAT.ACTIVE. -/
def TrapRegs.active (x : TrapRegs) : Bool := bitAt x.estat.toNat 11

/-- An ESTAT word (R72). -/
def estatWord (cause : Nat) (plev : Level) (pee nested : Bool) : Word :=
  BitVec.ofNat 64 (cause + lvlCode plev * 256 + boolNat pee * 1024 + 2048 + boolNat nested * 4096)

/-! ### Taking a trap -/

/-- The level a cause is routed to from a level, for a cord of a tenant (R93). -/
def routeOf (cause : Nat) (lvl : Level) (tenant : Nat) : Level :=
  if lvl = .H then .H
  else if cause = trap.PAGE_S2 ∨ cause = trap.BUS_DARK ∨ cause = trap.ADDR_HOLE ∨ cause = trap.MACHINE_CHECK
      ∨ cause = trap.DEBUG then .H
  else if cause = trap.SYSCALL then (if lvl = .U then .S else .H)
  else if cause = trap.EVENT then (if tenant = 0 then .H else .S)
  else .S

/-- Byte i of a line as a buffered store leaves it. -/
def SbEnt.byteOr (e : SbEnt) (i old : Nat) : Nat := if e.mask.getLsbD i then lineBytes e.bytes i 1 else old

/-- A store to half of a line of the subchannel store: a block of 128 bytes. -/
def storeScb (s : State) (e : SbEnt) (o : Nat) (i : Nat) : State :=
  let x := o / 128 + i
  if bits e.mask.toNat (128 * i) 128 = 0 then s
  else
    let b := mget s.chs.scbs x Scb.reset
    let bs := (List.range 128).map (fun k => BitVec.ofNat 8 (e.byteOr (128 * i + k) (storeByte s (128 * x + k))))
    { s with chs := { s.chs with scbs := mput s.chs.scbs x { (scbOf (wordsOf bs 16)) with mdts := b.mdts } Scb.reset } }

/-- A store to a pool cell; it does not change an operation that holds the cell, whose words have no place given (log 22). -/
def storePool (s : State) (e : SbEnt) (o : Nat) : State :=
  { s with chs := { s.chs with pool := (List.range 256).foldl (fun m i =>
      if e.mask.getLsbD i then mset m (o + i) (BitVec.ofNat 8 (e.byteOr i 0)) else m) s.chs.pool } }

/-- A store to the quad's registers: a write of each register that it touches. -/
def storeQuad (s : State) (n : Nat) (e : SbEnt) (o : Nat) : State :=
  (List.range 32).foldl (fun s i =>
    if bits e.mask.toNat (8 * i) 8 = 0 then s
    else
      match quadOff s n (o + 8 * i) with
      | some r =>
        let v := bytesFrom (fun a => e.byteOr (a - o) (quadByte s n a)) (o + 8 * i) 8
        { s with chs := { s.chs with writes := s.chs.writes ++ [(r, BitVec.ofNat 64 v)] } }
      | none => s) s

/-- A Shuttle's own memories take no part in coherence: a store to its data memory, the subchannel store or the pool is made there, one
to its quad's registers waits for the next rclk, one to the memory window is made at the line's home. Stores to its instruction memory
and to holes are dropped (log 22). -/
def performShuttle (s : State) (n : Nat) (e : SbEnt) : State :=
  match shutSpot (e.line * 256) with
  | .dmem o =>
    s.modShut n (fun x => { x with dmem := (List.range 256).foldl (fun m i =>
      if e.mask.getLsbD i then tableWrite m (o + i) (lineBytes e.bytes i 1) 1 else m) x.dmem })
  | .store o => [0, 1].foldl (fun s i => storeScb s e o i) s
  | .pool o => storePool s e o
  | .quad o => storeQuad s n e o
  | .tenant tpa =>
    match shutPhys s n tpa .store with
    | (s, some pa) => (pokeLine s (shutSrc s n) (shutTenant s n) pa e.mask e.bytes false 0).1
    | (s, none) => s
  | _ => s

def drainShuttle (s : State) (n : Nat) : State :=
  let es := (s.shut n).core.sbuf
  (es.filter (fun e => !e.knot)).foldl (fun s e => performShuttle s n e)
    (s.modShut n (fun x => { x with core := { x.core with sbuf := es.filter SbEnt.knot } }))

/-- A cord's stores wait in its buffer; a Shuttle's are performed. -/
def settle (s : State) : Agent → State
  | .cord _ => s
  | .shuttle n => drainShuttle s n

/-- A trap that finds H's trap state held halts the agent (R94, R233). -/
def haltAgent (s : State) : Agent → State
  | .cord c => haltCord s (s.triadOf c) (s.shareOf c)
  | .shuttle n => s.modCore (.shuttle n) (fun k => { k with run := .halted })

/-- Traps recorded as FAULT (R381); in REPLAY the journal must hold them (R391). -/
def stageFault (s : State) (a : Agent) (t : Trap) : State :=
  match a with
  | .cord c =>
    if t.cause = trap.BUS_DARK ∨ t.cause = trap.POISON ∨ t.cause = trap.MACHINE_CHECK ∨ t.cause = trap.STORE_BOUNCED then
      if s.replayed c then
        match takeJournal s rplType.FAULT c with
        | some (s, _) => s
        | none => diverge s dvk.UNRECORDED c 0 t.cause
      else stageCord s rplType.FAULT c t.eval.toNat [BitVec.ofNat 64 t.cause]
    else s
  | .shuttle _ => s

/-- The bounced address pushed on the stack of the level entered, or NOPUSH (R94). -/
def pushBounce (s : State) (a : Agent) (w : InsnWord) (v : Word) : State :=
  match stackStep s a w 0 0 1 with
  | (s, .ok st) => s.modCore a (fun k => k.replace (s.agentTenant a) 0 ([v].zip st.homes))
  | (s, _) => s.modCore a (fun k =>
      let r := k.trOf k.lvl
      k.setTr k.lvl { r with estat := r.estat ||| 8192 })

/-- Taking a trap (R94): routed from a level, with the EPC given. FP_IMPRECISE clears PEND (R113). -/
def takeTrap (s : State) (a : Agent) (t : Trap) (epc : Word) (from' : Level) : State :=
  let k := s.core a
  let l0 := routeOf t.cause from' (s.agentTenant a)
  let nested : Bool := l0 == .S && k.trS.active
  let l : Level := if nested then .H else l0
  if l = .H ∧ k.trH.active then haltAgent s a
  else
    let s := stageFault s a t
    let k := if l = k.lvl then k else k.spillAll (s.agentTenant a)
    let r := k.trOf l
    let k := k.setTr l { r with estat := estatWord t.cause k.lvl k.ee nested, epc := epc, eval := t.eval }
    let k := if t.cause = trap.FP_IMPRECISE then { k with fcsr := k.fcsr &&& ~~~0x1F000000#64, fpCount := [] } else k
    let s := s.setCore a { k with lvl := l, ee := false, resv := none, run := k.goes, answers := []
                                  pc := r.tvec + BitVec.ofNat 64 (t.cause * 0x40) }
    if t.cause = trap.STORE_BOUNCED then pushBounce s a 0 t.eval else s

/-! ### Slips -/

/-- A slip of an agent's open knot (R147). -/
def slipAgent (s : State) (a : Agent) (cause code : Nat) : State :=
  match a with
  | .cord c => slipCord s c cause code 0
  | .shuttle n => s.modCore (.shuttle n) (fun k => k.slip 0 cause code)

/-- A trap of the running instruction: inside a knot it first slips with cause TRAP, and EPC is the handler (R149). -/
def trapFrom (s : State) (a : Agent) (t : Trap) (epc : Word) (from' : Level) : State :=
  if (s.core a).inKnot then
    let s := slipAgent s a slip.TRAP t.cause
    takeTrap s a t (s.core a).pc (s.core a).lvl
  else takeTrap s a t epc from'

/-- A trap at the current instruction. -/
def trapNow (s : State) (a : Agent) (t : Trap) : State :=
  let k := s.core a
  trapFrom s a t (if t.next then k.pc + 4 else k.pc) (t.via.getD k.lvl)

/-! ### Floating-point status (R107, R112) -/

def fcsrFlags (x : Word) : Nat := bits x.toNat 8 5
def fcsrEn (x : Word) : Nat := bits x.toNat 16 5
def fcsrPend (x : Word) : Nat := bits x.toNat 24 5

/-- The counts to the delivery of FP_IMPRECISE after a change of PEND: each bit's runs from the instruction that set it, which is counted
by its own retirement; a bit that stays 1 keeps its count (R113). -/
def pendCount (new : Nat) (m : SMap Nat) : SMap Nat :=
  ((List.range 5).filter (fun b => bitAt new b)).map (fun b => (b, (mget? m b).getD 16))

/-- FP_IMPRECISE is due: sixteen instructions have come since the first PEND bit now set, or the context was loaded with one. -/
def Core.fpDue (k : Core) : Bool := k.fpCount.any (fun e => e.2 == 0)

/-- Flags raised by an operation: sticky, and pending where enabled (R112). -/
def Core.raiseFp (k : Core) (fl : Nat) : Core :=
  let x := k.fcsr ||| BitVec.ofNat 64 (fl * 256) ||| BitVec.ofNat 64 ((fl &&& fcsrEn k.fcsr) * 2 ^ 24)
  { k with fcsr := x, fpCount := pendCount (fcsrPend x) k.fpCount }

/-! ### Retirement -/

/-- What an instruction that completes does: the next PC when it is not PC + 4, its result value for the signature, its
effect, and what follows its retirement. -/
structure Done where
  next : Option Word
  result : Word
  apply : State → State
  after : State → State

/-- The bytes a retired store gives the digest (R382). -/
def StoreReq.digestBytes (x : StoreReq) : List Byte :=
  bytesOf x.pa 8 ++ bytesOf ((2 ^ x.size - 1) * 2 ^ (x.pa % 64)) 8 ++ bytesOf x.val x.size

/-- The digest of a recorded cord goes on over the group's signature and its stores (R44, R382). -/
def Core.digested (k : Core) (result : Word) : Word :=
  let sig := crc64 0 (bytesOfWords [result, k.pc, (k.stkOf k.lvl).sp, k.flags])
  BitVec.ofNat 64 (crc64 k.digest.toNat (bytesOf sig 8 ++ k.wrote.flatMap StoreReq.digestBytes))

/-- A group that passes ends its retries, and the words of the checkpoint copy that it changed have fresh ECC (R45, R48). -/
def retiredVote (s : State) (before : Core) : Agent → State
  | .cord c => retryResolved (freshEcc s (s.triadOf c) (s.shareOf c) before (s.cord c)) (s.triadOf c) (s.shareOf c) true
  | .shuttle _ => s

/-- An instruction that began with a core as `before` retires (R78): PC, retire count, the ledger's RETIRED counter. -/
def retireFrom (before : Core) (s : State) (a : Agent) (next : Option Word) (result : Word) : State :=
  let s := retiredVote s before a
  let s := s.modCore a (fun k =>
    { k with pc := next.getD (k.pc + 4), retire := k.retire + 1, fpCount := k.fpCount.map (fun (e : Nat × Nat) => (e.1, e.2 - 1)), answers := [] })
  match a with
  | .cord c =>
    let s := s.account (s.tenantOf c) led.RETIRED 1
    let s := s.modCord c (fun k => { k with digest := if s.recorded c then k.digested result else k.digest, wrote := [] })
    groupEnds (openDigest s c s.rpl.journal.length) c
  | .shuttle n => drainShuttle (s.modCore (.shuttle n) (fun k => { k with wrote := [] })) n

/-- As `retireFrom`, for an instruction that has changed nothing before it retires. -/
def retire (s : State) (a : Agent) (next : Option Word) (result : Word) : State := retireFrom (s.core a) s a next result

/-! ### The checks of R79 -/

/-- How an instruction behaves inside a knot at step 5 of R79 (R146). -/
inductive KnotRule where
  | runs | unsupported | debug
  deriving DecidableEq, Repr

/-- The agent is ready for its next instruction: a replayed cord may be paused (R390), and a recovery may hold it (R46, R53). A pending FP_IMPRECISE that is due comes first (R95, R113). -/
def canRun (s : State) (a : Agent) : Bool :=
  let k := s.core a
  k.run == .running && !k.paused && !k.fpDue && !s.stopped
    && match a with
      | .cord c => decide (c < s.cordCount) && decide (mget s.rpl.paused c 0 ≤ s.time.now)
      | .shuttle n =>
        decide (n < Config.shuttles) && s.get (CHS_SHUT.STATE n) == 2 && s.domOn (dom.cluster n) && !(s.shut n).saved

/-- Levels in order. -/
def lvlBelow (a b : Level) : Bool := lvlCode a < lvlCode b

/-- A breakpoint hit in the log of the cord's triad (R61). -/
def logHit (s : State) : Agent → State
  | .cord c => s.logDebug c (.breakpoint (s.cord c).pc)
  | .shuttle _ => s

/-- Steps 1 to 4 of R79: breakpoint, fetch, decode, COND. -/
def frontEnd (s : State) (a : Agent) (ok : Bool) (w : InsnWord) (cond : BitVec 3) : State × Got Bool :=
  let k := s.core a
  match k.brks.find? (fun e => e.2 == k.pc) with
  | some e => if k.inKnot then (logHit s a, .slip slip.DEBUG) else trapAt (logHit s a) trap.DEBUG e.1
  | none =>
    andThen (fetchAt s a) fun s _ =>
      if !ok then trapAt s trap.ILLEGAL w.toNat else (s, .ok (condHolds (s.core a).fl cond))

/-- Step 5 of R79: the level, then the knot rule of R146. -/
def allowed (s : State) (a : Agent) (w : InsnWord) (lvl : Level) (kr : KnotRule) : State × Got Unit :=
  let k := s.core a
  if lvlBelow k.lvl lvl then trapAt s trap.PRIV w.toNat
  else
    match k.inKnot, kr with
    | true, .unsupported => (s, .slip slip.UNSUPPORTED_OP)
    | true, .debug => (s, .slip slip.DEBUG)
    | _, _ => (s, .ok ())

/-- A slip that the running instruction causes. After one with cause DEBUG the debug stop is taken at the handler (R146; log 36). -/
def slipInsn (s : State) (a : Agent) (cause : Nat) : State :=
  let s := slipAgent s a cause 0
  if cause = slip.DEBUG then s.modCore a (fun k => { k with run := .debug, dbg := true }) else s

/-- Why the stores of an instruction slip the open knot (R144, R146, R163). -/
def knotStores (s : State) (a : Agent) : Option Nat :=
  match a with
  | .shuttle _ => none
  | .cord c =>
    let k := s.cord c
    match k.knot with
    | none => none
    | some kn =>
      if kn.writes ≠ [] ∧ l1dOff s (s.triadOf c) (s.shareOf c) then some slip.CAPACITY
      else if 257 ≤ kn.writes.length then some slip.CAPACITY
      else if k.sbuf.any (fun e => e.knot && knotRefuses e.attr (leadOf s (s.tenantOf c) k.lvl e.pa)) then
        some slip.UNSUPPORTED_OP
      else none

/-- The end of an instruction whose parts have been tried: a knot that slipped on the way abandons it; it retires when its
stores find room in the buffer. -/
def endInsn (s0 : State) (a : Agent) (r : State × Got Done) : State :=
  let s := r.1
  if (s0.core a).inKnot ∧ !(s.core a).inKnot then s
  else
    match r.2 with
    | .trap t => settle (trapNow s a t) a
    | .slip c => slipInsn s a c
    | .wait => s
    | .park run => s.modCore a (fun k => { k with run := run })
    | .ok d =>
      let s1 := d.apply s
      if 16 < (s1.core a).buffers ∧ (s0.core a).buffers < (s1.core a).buffers then s
      else
        match knotStores s1 a with
        | some c => slipAgent s a c 0
        | none => d.after (retireFrom (s0.core a) s1 a d.next d.result)

/-- One instruction in the order of R79: `lvl` is the level it needs, `kr` its rule inside a knot, `body` steps 6 to 10. -/
def tryInsn (a : Agent) (i : Instr) (cond : BitVec 3) (lvl : Level) (kr : KnotRule)
    (body : InsnWord → State → State × Got Done) (s : State) : State :=
  let w := (wordOf i).getD 0
  match frontEnd s a i.ok w cond with
  | (s1, .ok false) => retire s1 a none 0
  | (s1, .ok true) => endInsn s a (andThen (allowed s1 a w lvl kr) fun s _ => body w s)
  | (s1, .trap t) => settle (trapNow s1 a t) a
  | (s1, .slip c) => slipInsn s1 a c
  | (s1, .wait) => s1
  | (s1, .park _) => s1

/-- The command of an instruction: an agent that is not ready does nothing, a full store buffer drains first, and an instruction whose
walk must wait for memory is turned back (R25, R130). -/
def runInsn (a : Agent) (i : Instr) (cond : BitVec 3) (lvl : Level) (kr : KnotRule)
    (body : InsnWord → State → State × Got Done) (s : State) : State :=
  if !canRun s a then s else orWait (tryInsn a i cond lvl kr body) (makeRoom s a)

/-! ### Instructions that work on the stack alone -/

/-- What such an instruction makes of the entries it read: values pushed in order, a change of the core, the next PC. -/
structure Out where
  vals : List Word
  upd : Core → Core
  next : Option Word

/-- Values pushed, nothing else. -/
def Out.push (vs : List Word) : Out := { vals := vs, upd := id, next := none }

/-- A body that reads entries (top first), pops and pushes, and computes. -/
def stackOp (a : Agent) (reads pops pushes : Nat) (f : Core → List Word → Got Out) (w : InsnWord) (s : State) :
    State × Got Done :=
  andThen (stackStep s a w reads pops pushes) fun s st =>
  andThen (s, f (s.core a) st.ins) fun s o =>
    (s, .ok { next := o.next, result := o.vals.getLastD 0, after := id
              apply := fun s => s.modCore a (fun k => o.upd (k.replace (s.agentTenant a) pops (o.vals.zip st.homes))) })

/-- A body of an instruction that pops and pushes nothing: the stack check stands all the same (R66). -/
def plainOp (a : Agent) (body : State → State × Got Done) (w : InsnWord) (s : State) : State × Got Done :=
  andThen (stackStep s a w 0 0 0) fun s _ => body s

/-- Entry i of those read. -/
def inp (ins : List Word) (i : Nat) : Word := ins.getD i 0

end Sys2Proof.Machine
end

