-- ==== Sys2Proof/Machine/Alu.lean ====
section
/-! DEFINITION. Integer ALU, major 0x04 (R84). -/

namespace Sys2Proof.Machine

/-- a b → r; FLAGS follow when S = 1. -/
def binOp (a : Agent) (s : Bool) (op : Flags → Word → Word → Res) : InsnWord → State → State × Got Done :=
  stackOp a 2 2 1 fun k ins =>
    let r := op k.fl (inp ins 1) (inp ins 0)
    .ok { vals := [r.val], upd := fun k => if s then k.setFl r.fl else k, next := none }

/-- a → r; FLAGS follow when S = 1. -/
def unOp (a : Agent) (s : Bool) (op : Flags → Word → Res) : InsnWord → State → State × Got Done :=
  stackOp a 1 1 1 fun k ins =>
    let r := op k.fl (inp ins 0)
    .ok { vals := [r.val], upd := fun k => if s then k.setFl r.fl else k, next := none }

/-- OPND sign-extended, and zero-extended. -/
def sextOpnd (f : FO) : Word := f.opnd.signExtend 64
def zextOpnd (f : FO) : Word := f.opnd.zeroExtend 64

/-- ADD (R84): a b → a + b -/
def doAdd (a : Agent) (f : FO) : State → State :=
  runInsn a (.add a f) f.cond .U .runs <|
    binOp a f.s fun fl x y => addRes fl x y false

/-- ADD (R84). -/
def execAdd (a : Agent) (f : FO) (s : State) : Host.Outcome State Fault Refusal := .next (doAdd a f s)

/-- SUB (R84): a b → a − b -/
def doSub (a : Agent) (f : FO) : State → State :=
  runInsn a (.sub a f) f.cond .U .runs <|
    binOp a f.s fun fl x y => subRes fl x y true

/-- SUB (R84). -/
def execSub (a : Agent) (f : FO) (s : State) : Host.Outcome State Fault Refusal := .next (doSub a f s)

/-- ADC (R84): a b → a + b + C -/
def doAdc (a : Agent) (f : FO) : State → State :=
  runInsn a (.adc a f) f.cond .U .runs <|
    binOp a f.s fun fl x y => addRes fl x y fl.c

/-- ADC (R84). -/
def execAdc (a : Agent) (f : FO) (s : State) : Host.Outcome State Fault Refusal := .next (doAdc a f s)

/-- SBC (R84): a b → a − b − (1 − C) -/
def doSbc (a : Agent) (f : FO) : State → State :=
  runInsn a (.sbc a f) f.cond .U .runs <|
    binOp a f.s fun fl x y => subRes fl x y fl.c

/-- SBC (R84). -/
def execSbc (a : Agent) (f : FO) (s : State) : Host.Outcome State Fault Refusal := .next (doSbc a f s)

/-- AND (R84): a b → a AND b -/
def doAnd (a : Agent) (f : FO) : State → State :=
  runInsn a (.and a f) f.cond .U .runs <|
    binOp a f.s fun fl x y => nzRes fl (x &&& y)

/-- AND (R84). -/
def execAnd (a : Agent) (f : FO) (s : State) : Host.Outcome State Fault Refusal := .next (doAnd a f s)

/-- OR (R84): a b → a OR b -/
def doOr (a : Agent) (f : FO) : State → State :=
  runInsn a (.or a f) f.cond .U .runs <|
    binOp a f.s fun fl x y => nzRes fl (x ||| y)

/-- OR (R84). -/
def execOr (a : Agent) (f : FO) (s : State) : Host.Outcome State Fault Refusal := .next (doOr a f s)

/-- XOR (R84): a b → a XOR b -/
def doXor (a : Agent) (f : FO) : State → State :=
  runInsn a (.xor a f) f.cond .U .runs <|
    binOp a f.s fun fl x y => nzRes fl (x ^^^ y)

/-- XOR (R84). -/
def execXor (a : Agent) (f : FO) (s : State) : Host.Outcome State Fault Refusal := .next (doXor a f s)

/-- ANDN (R84): a b → a AND NOT b -/
def doAndn (a : Agent) (f : FO) : State → State :=
  runInsn a (.andn a f) f.cond .U .runs <|
    binOp a f.s fun fl x y => nzRes fl (x &&& ~~~y)

/-- ANDN (R84). -/
def execAndn (a : Agent) (f : FO) (s : State) : Host.Outcome State Fault Refusal := .next (doAndn a f s)

/-- NOT (R84): a → NOT a -/
def doNot (a : Agent) (f : FO) : State → State :=
  runInsn a (.not a f) f.cond .U .runs <|
    unOp a f.s fun fl x => nzRes fl (~~~x)

/-- NOT (R84). -/
def execNot (a : Agent) (f : FO) (s : State) : Host.Outcome State Fault Refusal := .next (doNot a f s)

/-- NEG (R84): a → 0 − a -/
def doNeg (a : Agent) (f : FO) : State → State :=
  runInsn a (.neg a f) f.cond .U .runs <|
    unOp a f.s fun fl x => subRes fl 0 x true

/-- NEG (R84). -/
def execNeg (a : Agent) (f : FO) (s : State) : Host.Outcome State Fault Refusal := .next (doNeg a f s)

/-- SXB (R84): a → a[7:0] sign-extended -/
def doSxb (a : Agent) (f : FO) : State → State :=
  runInsn a (.sxb a f) f.cond .U .runs <|
    unOp a f.s fun fl x => nzRes fl ((x.setWidth 8).signExtend 64)

/-- SXB (R84). -/
def execSxb (a : Agent) (f : FO) (s : State) : Host.Outcome State Fault Refusal := .next (doSxb a f s)

/-- SXH (R84): a → a[15:0] sign-extended -/
def doSxh (a : Agent) (f : FO) : State → State :=
  runInsn a (.sxh a f) f.cond .U .runs <|
    unOp a f.s fun fl x => nzRes fl ((x.setWidth 16).signExtend 64)

/-- SXH (R84). -/
def execSxh (a : Agent) (f : FO) (s : State) : Host.Outcome State Fault Refusal := .next (doSxh a f s)

/-- SXW (R84): a → a[31:0] sign-extended -/
def doSxw (a : Agent) (f : FO) : State → State :=
  runInsn a (.sxw a f) f.cond .U .runs <|
    unOp a f.s fun fl x => nzRes fl ((x.setWidth 32).signExtend 64)

/-- SXW (R84). -/
def execSxw (a : Agent) (f : FO) (s : State) : Host.Outcome State Fault Refusal := .next (doSxw a f s)

/-- ZXW (R84): a → a[31:0] zero-extended -/
def doZxw (a : Agent) (f : FO) : State → State :=
  runInsn a (.zxw a f) f.cond .U .runs <|
    unOp a f.s fun fl x => nzRes fl ((x.setWidth 32).zeroExtend 64)

/-- ZXW (R84). -/
def execZxw (a : Agent) (f : FO) (s : State) : Host.Outcome State Fault Refusal := .next (doZxw a f s)

/-- POPC (R84): a → count of 1 bits -/
def doPopc (a : Agent) (f : FO) : State → State :=
  runInsn a (.popc a f) f.cond .U .runs <|
    unOp a f.s fun fl x => nzRes fl (BitVec.ofNat 64 (popcTo x 64))

/-- POPC (R84). -/
def execPopc (a : Agent) (f : FO) (s : State) : Host.Outcome State Fault Refusal := .next (doPopc a f s)

/-- CLZ (R84): a → leading zeros, 64 for 0 -/
def doClz (a : Agent) (f : FO) : State → State :=
  runInsn a (.clz a f) f.cond .U .runs <|
    unOp a f.s fun fl x => nzRes fl (BitVec.ofNat 64 (clzFrom x 64))

/-- CLZ (R84). -/
def execClz (a : Agent) (f : FO) (s : State) : Host.Outcome State Fault Refusal := .next (doClz a f s)

/-- ADDI (R84): a → a + sext(OPND) -/
def doAddi (a : Agent) (f : FO) : State → State :=
  runInsn a (.addi a f) f.cond .U .runs <|
    unOp a f.s fun fl x => addRes fl x (sextOpnd f) false

/-- ADDI (R84). -/
def execAddi (a : Agent) (f : FO) (s : State) : Host.Outcome State Fault Refusal := .next (doAddi a f s)

/-- ANDI (R84): a → a AND zext(OPND) -/
def doAndi (a : Agent) (f : FO) : State → State :=
  runInsn a (.andi a f) f.cond .U .runs <|
    unOp a f.s fun fl x => nzRes fl (x &&& (zextOpnd f))

/-- ANDI (R84). -/
def execAndi (a : Agent) (f : FO) (s : State) : Host.Outcome State Fault Refusal := .next (doAndi a f s)

/-- ORI (R84): a → a OR zext(OPND) -/
def doOri (a : Agent) (f : FO) : State → State :=
  runInsn a (.ori a f) f.cond .U .runs <|
    unOp a f.s fun fl x => nzRes fl (x ||| (zextOpnd f))

/-- ORI (R84). -/
def execOri (a : Agent) (f : FO) (s : State) : Host.Outcome State Fault Refusal := .next (doOri a f s)

/-- XORI (R84): a → a XOR zext(OPND) -/
def doXori (a : Agent) (f : FO) : State → State :=
  runInsn a (.xori a f) f.cond .U .runs <|
    unOp a f.s fun fl x => nzRes fl (x ^^^ (zextOpnd f))

/-- XORI (R84). -/
def execXori (a : Agent) (f : FO) (s : State) : Host.Outcome State Fault Refusal := .next (doXori a f s)

end Sys2Proof.Machine
end

