-- ==== Sys2Proof/Machine/Profile.lean ====
section
/-! DEFINITION. The configuration image and the profile: the checks of a copy (R367 to R369), the fields of a profile (R370,
R371), its selection (R372), and what reset and the profile make of the registers (R360, R362). -/

namespace Sys2Proof.Machine

/-! ### Records of a copy (R368) -/

def recType.PROFILE : Nat := 1
def recType.HOSTCODE : Nat := 2
def recType.SHUTFW : Nat := 3
def recType.HEDDLE : Nat := 4
def recType.REGIONS : Nat := 5
def recType.FCUREACT : Nat := 6
def recType.DOMAINS : Nat := 7
def recType.SIGNATURE : Nat := 0xFF

/-- The record of a type and index. -/
def recOf (c : FlashCopy) (typ index : Nat) : Option ImgRecord :=
  c.records.find? (fun r => r.typ == typ && r.index == index)

/-- Word i of a record's body. -/
def recWord (r : ImgRecord) (i : Nat) : Nat := (r.body.getD i 0).toNat

/-- n bytes at byte offset o of a record's body, n a power of two that divides o. -/
def recAt (r : ImgRecord) (o n : Nat) : Nat := recWord r (o / 8) / 256 ^ (o % 8) % 256 ^ n

/-! ### The checks of R369 -/

/-- Reasons of MOD_BOOTSTAT. -/
def why.HEADER : Nat := 1
def why.RECORD : Nat := 2
def why.SIGNATURE : Nat := 3
def why.CONTENT : Nat := 4
def why.READ : Nat := 5

def headerOk (c : FlashCopy) : Bool :=
  c.magic == 0x00004547414D4954 && c.format == 1 && c.zeroOk && c.length ≤ 8388608 && c.headerCrcOk

/-- Every record's CRC is right, and SIGNATURE is the last record and ends at LENGTH. -/
def recordsOk (c : FlashCopy) : Bool :=
  c.records.all (·.crcOk) && c.endsAt == c.length
    && (match c.records.getLast? with
      | some r => r.typ == recType.SIGNATURE
      | none => false)
    && (c.records.dropLast).all (fun r => r.typ != recType.SIGNATURE)

/-- The number of cords of a mode. -/
def cordsOfMode (m : Nat) : Nat := if m < 6 then 48 else 96

/-- The ranges of a PROFILE body (R370). -/
def profileOk (r : ImgRecord) : Bool :=
  let w := recWord r
  let mode := bits (w 0) 0 4
  let ranks := bits (w 2) 13 4
  r.bytes == 304 && r.index < 4 && mode < 12 && bits (w 0) 4 7 < cordsOfMode mode && bits (w 0) 42 2 ≠ 3
    && !(bitAt (w 0) 44 && mode % 3 == 0) && bits (w 0) 46 18 == 0
    && (let sclk := bits (w 1) 0 12
        if mode < 6 then sclk == 3600 else 3600 ≤ sclk && sclk ≤ 4000 && sclk % 100 == 0)
    && (List.range 4).all (fun k => 650 ≤ bits (w 1) (12 + 12 * k) 12 && bits (w 1) (12 + 12 * k) 12 ≤ 850)
    && bits (w 1) 60 4 == 0
    && 16 ≤ bits (w 2) 0 12 && bits (w 2) 0 12 ≤ 1024
    && (if bitAt (w 2) 12 then ranks % 2 == 0 && 2 ≤ ranks && ranks ≤ 8 else 1 ≤ ranks && ranks ≤ 4)
    && bits (w 2) 17 47 == 0
    && (!bitAt (w 3) 0 || 64 ≤ bits (w 3) 1 16)
    && (List.range 16).all (fun p => bits (w (4 + 2 * p)) 0 32 ≤ 12288 && bits (w (5 + 2 * p)) 0 28 == 0 && bits (w (5 + 2 * p)) 52 12 == 0)
    && (List.range 32).all (fun i => bits (w (36 + i / 16)) (4 * (i % 16)) 4 < 12)

/-- An address lies in DDR (00_scope, Physical address map). -/
def inDdr (a : Nat) : Bool := a < 0x100000000000

def hostcodeOk (r : ImgRecord) : Bool :=
  let w := recWord r
  r.index == 0 && 64 ≤ r.bytes && inDdr (w 0) && w 0 % 4096 == 0
    && inDdr (w 2) && w 2 % 8 == 0 && inDdr (w 3) && w 3 % 8 == 0 && w 3 < w 2
    && inDdr (w 4) && w 4 % 4096 == 0 && w 5 == 0 && w 6 == 0 && w 7 == 0

def shutfwOk (r : ImgRecord) : Bool :=
  let i := bits (recWord r 0) 0 32
  let d := bits (recWord r 0) 32 32
  r.index == 0 && i ≤ 131072 && d ≤ 131072 && bits (recWord r 1) 32 32 == 0 && 16 + i + d ≤ r.bytes

/-- Entries of HEDDLE: KIND 0b00 or 0b01, beat 63 excepted (R20). -/
def heddleOk (r : ImgRecord) : Bool :=
  r.index < 4 && r.bytes == 6656
    && (List.range 832).all (fun i => (List.range 4).all (fun j =>
      (i % 16 == 15 && j == 3) || (bits (recWord r i) (16 * j + 14) 2 < 2 && bits (recWord r i) (16 * j + 10) 4 == 0)))

def regionsOk (r : ImgRecord) : Bool :=
  r.index < 4 && r.bytes == 32768
    && (List.range 2048).all (fun i => bits (recWord r (2 * i)) 16 5 == 0 && bits (recWord r (2 * i)) 48 16 == 0
      && bits (recWord r (2 * i + 1)) 0 21 == 0 && bits (recWord r (2 * i + 1)) 48 16 == 0)

/-- A reaction field holds a reaction that R305 allows, 0 where the source has no such class. -/
def reactOk (src cls v : Nat) : Bool :=
  if reactions src cls = [] then v == 0 else (reactions src cls).contains v

def fcureactOk (r : ImgRecord) : Bool :=
  r.index < 4 && r.bytes == 2048
    && (List.range 1024).all (fun k => (List.range 4).all (fun c => reactOk k c (bits (recAt r (2 * k) 2) (3 * c) 3))
      && bits (recAt r (2 * k) 2) 12 4 == 0)

def domainsOk (r : ImgRecord) : Bool :=
  r.index < 4 && r.bytes == 260 && (List.range 260).all (fun d => recAt r d 1 < 4)

def recordOk (r : ImgRecord) : Bool :=
  if r.typ = recType.PROFILE then profileOk r
  else if r.typ = recType.HOSTCODE then hostcodeOk r
  else if r.typ = recType.SHUTFW then shutfwOk r
  else if r.typ = recType.HEDDLE then heddleOk r
  else if r.typ = recType.REGIONS then regionsOk r
  else if r.typ = recType.FCUREACT then fcureactOk r
  else if r.typ = recType.DOMAINS then domainsOk r
  else r.typ == recType.SIGNATURE && r.index == 0

/-- No two records share TYPE and INDEX. -/
def recordsDistinct : List ImgRecord → Bool
  | [] => true
  | r :: t => t.all (fun x => !(x.typ == r.typ && x.index == r.index)) && recordsDistinct t

/-- The mode that a copy's profile names. -/
def modeOf (c : FlashCopy) (p : Nat) : Nat :=
  match recOf c recType.PROFILE p with
  | some r => bits (recWord r 0) 0 4
  | none => 0

def contentOk (c : FlashCopy) (p : Nat) : Bool :=
  (recOf c recType.PROFILE p).isSome && (recOf c recType.SHUTFW 0).isSome
    && (modeOf c p % 3 == 2 || (recOf c recType.HOSTCODE 0).isSome)
    && c.records.all recordOk && recordsDistinct c.records

/-- The reason a copy is rejected for profile p, 0 when it is accepted. A reserved TYPE or a duplicate counts as CONTENT, a
record after SIGNATURE as RECORD: R368 names no reason (log 24). -/
def copyReason (c : FlashCopy) (p : Nat) : Nat :=
  if !c.readOk then why.READ
  else if !headerOk c then why.HEADER
  else if !recordsOk c then why.RECORD
  else if !(c.keyOk && c.sigOk) then why.SIGNATURE
  else if !contentOk c p then why.CONTENT
  else 0

/-! ### Selection (R372) -/

/-- The profile that a reset selects with these pins. -/
def selected (s : State) (pins : BitVec 2) : Nat := if s.flag PROF_SEL.EN then s.get PROF_SEL.PROFILE else pins.toNat

/-- A reset's selection takes effect: PINS, PREVPROF, PROF and BYSEL are written, and EN is cleared after one use. -/
def takeProfile (s : State) (pins : BitVec 2) : State :=
  let en := s.flag PROF_SEL.EN
  let p := selected s pins
  let s := s.put PROF_SEL.PINS pins.toNat
  let s := (s.put BOOT_CAUSE.PROF p).putFlag BOOT_CAUSE.BYSEL en
  if en ∧ s.flag PROF_SEL.ONCE then s.putFlag PROF_SEL.EN false else s

/-! ### Registers across resets (R9, R239, R360, R362) -/

/-- The bits of a register that a warm reset keeps beyond its own table: the CHS and VI set-up registers and doorbell
pages (R239), and the regions of memory, which a changed profile loads afresh (R362). -/
def keptAcross (off : Nat) : Nat :=
  if (0x4000000 ≤ off ∧ off < 0x4100000 ∧ !(0x4000100 ≤ off && off < 0x4000200)) ∨ (0x8000000 ≤ off ∧ off < 0x9000000)
    ∨ (0x3000000 ≤ off ∧ off < 0x3200000 ∧ 0x1000 ≤ off % 0x10000 ∧ off % 0x10000 < 0x1400) then 2 ^ 64 - 1
  else
    match rowAt off with
    | some r => r.keep
    | none => 0

/-- Every listed register brought to its reset value, but for the bits that a warm reset keeps. -/
def warmRegs (s : State) : SMap Word :=
  s.regs.filterMap (fun (e : Nat × Word) =>
    let r := resetWord e.1
    let k := keptAcross e.1
    let v := BitVec.ofNat 64 ((e.2.toNat &&& k) + (r - (r &&& k)))
    if v = BitVec.ofNat 64 r then none else some (e.1, v))

/-! ### The profile applied (R362, R370, R371) -/

/-- Nominal voltages in mV, VCORE0 to 3 apart (R352). -/
def railNominal : Nat → Nat
  | 4 => 750
  | 5 => 850
  | 6 => 1100
  | 7 => 900
  | 8 => 1800
  | 9 => 1800
  | _ => 650

/-- The 38 words of a record. -/
def profWords (r : ImgRecord) : List Word := (List.range 38).map (fun i => r.body.getD i 0)

/-- The fields of words 0 and 1 (R370). -/
def applyMode (s : State) (p : Nat) : State :=
  let w0 := s.prof 0
  let s := (s.put MOD_MODE.MODE (bits w0 0 4)).put MOD_MODE.PROFILE p
  let s := (List.range 48).foldl (fun s i => s.putFlag (CHP_CFG.MODE i) (bitAt w0 (11 + i / 4))) s
  let s := (List.range 32).foldl (fun s h =>
    let s := if (MEM_CTL.off h) * 64 ∈ s.locks then s
      else { s.putFlag (MEM_CTL.ENC h) (bitAt w0 39) with locks := MEM_CTL.off h * 64 :: s.locks }
    s.putFlag (MEM_UEPOL.POLICY h) (bitAt w0 40)) s
  let s := s.putFlag CHS_CFG.POOLPROT (bitAt w0 41)
  let s := (s.putFlag SPL_CFG.SPLICED (bitAt w0 44 && s.role != 0)).putFlag SPL_CFG.START (bitAt w0 45)
  let s := s.put PWR_CLK.SCLK (bits (s.prof 1) 0 12)
  (List.range 10).foldl (fun s k =>
    s.put (PWR_RAIL.NOM k) (if k < 4 then bits (s.prof 1) (12 + 12 * k) 12 else railNominal k)) s

/-- Lines scrubbed per house beat (R197). -/
def scrubRate (s : State) (h : Nat) : Nat := (ctlLines s h + 674999999) / 675000000

/-- The remaining fields of the profile: role, checkpoint, scrub rates, Shuttle quads. A manager's standby twin is not the manager: it is
admitted as R318 says (DEDUCED, log 40). -/
def applyRest (s : State) : State :=
  let s := (s.put SPL_BOLT.ROLE s.role).putFlag SPL_BOLT.ADMITTED (s.role == 1 && !(s.flag SPL_CFG.SPLICED && s.flag SPL_CFG.START))
  let s := s.putFlag LOOM_SYNC.SOURCE (s.role == 2)
  let s := s.wr SPL_CKPT.off (s.prof 3 &&& 0xFFFFFFFE1FFFF)
  let s := (List.range 32).foldl (fun s h => s.put (MEM_SCRUB.RATE h) (scrubRate s h)) s
  (List.range 32).foldl (fun s i => s.put (CHS_SHUT.QUAD i) (bits (s.prof (36 + i / 16)) (4 * (i % 16)) 4)) s

/-- Initial heddle tables (R20, R371). -/
def applyHeddles (s : State) (c : FlashCopy) (p : Nat) : State :=
  match recOf c recType.HEDDLE p with
  | none => s
  | some r =>
    (List.range 832).foldl (fun s i =>
      let w := if i % 16 = 15 then bits (recWord r i) 0 48 + 0x8000 * 2 ^ 48 else recWord r i
      s.wr (LOOM_HEDS.off (i / 16) (i % 16)) w) s

/-- The region table of a controller as the profile gives it. -/
def applyRegions (s : State) (c : FlashCopy) (p h : Nat) : State :=
  (List.range 64).foldl (fun s r =>
    match recOf c recType.REGIONS p with
    | some x => (s.wr (MEM_RGN_LO.off h r) (recWord x (2 * (64 * h + r)))).wr (MEM_RGN_HI.off h r) (recWord x (2 * (64 * h + r) + 1))
    | none => (s.wr (MEM_RGN_LO.off h r) 0).wr (MEM_RGN_HI.off h r) 0) s

def applyReactions (s : State) (c : FlashCopy) (p : Nat) : State :=
  match recOf c recType.FCUREACT p with
  | none => s
  | some r =>
    (List.range 1024).foldl (fun s k =>
      let x := s.rd (FCU_SRC.off k)
      s.wr (FCU_SRC.off k) (setBits x 0 12 (bits (recAt r (2 * k) 2) 0 12))) s

/-- The state that the profile gives a domain (R371). -/
def profDomain (c : FlashCopy) (p d : Nat) : Nat :=
  match recOf c recType.DOMAINS p with
  | some r => recAt r d 1 % 4
  | none => 0

/-- OFF for a Shuttle cluster or an engine means RETAIN (R342). -/
def domTarget (d req : Nat) : Nat := if 196 ≤ d ∧ d < 212 ∧ req = pst.OFF then pst.RETAIN else req

/-- Domains powered in ascending number; fenced strands, and strand C in Split execution, are the module's own (R342). -/
def applyDomains (s : State) (c : FlashCopy) (p : Nat) : State :=
  (List.range Config.domains).foldl (fun s d =>
    let req := profDomain c p d
    let s := s.put (PWR_DOM.REQ d) req
    if d < 144 ∧ s.flag (TRI_STAT.fenced (d / 3) (d % 3)) then setDom s d pst.OFF
    else if d < 144 ∧ !s.voted ∧ d % 3 = 2 then
      setDom s d (if s.get (TRI_STAT.SPARE (d / 3)) = 0 then pst.OFF else pst.ON)
    else setDom s d (domTarget d req)) s

/-- The bytes of a range of a record's body. -/
def recBytes (r : ImgRecord) (o n : Nat) : List Byte := (List.range n).map (fun i => BitVec.ofNat 8 (recAt r (o + i) 1))

/-- Bytes as a sparse memory from address 0. -/
def bytesTable (bs : List Byte) : SMap Byte :=
  ((List.range bs.length).zip bs).filter (fun (e : Nat × Byte) => e.2 ≠ 0)

/-- A Shuttle's memories loaded from the copy (R232). -/
def loadShuttleFw (s : State) (c : FlashCopy) (n : Nat) : State :=
  match recOf c recType.SHUTFW 0 with
  | none => s
  | some r =>
    let i := bits (recWord r 0) 0 32
    let d := bits (recWord r 0) 32 32
    let s := s.modShut n (fun x => { x with imem := bytesTable (recBytes r 16 i), dmem := bytesTable (recBytes r (16 + i) d) })
    s.put (CHS_SHUT.FWVER n) (bits (recWord r 1) 0 32)

def shutst.OFF : Nat := 0
def shutst.LOADING : Nat := 1
def shutst.RUNNING : Nat := 2
def shutst.RESTARTING : Nat := 3
def shutst.FAILED : Nat := 4

/-- The Shuttles loaded and set running; one whose cluster is not ON is OFF until it is woken (R230, R363). -/
def loadShuttles (s : State) (c : FlashCopy) : State :=
  (List.range 32).foldl (fun s n =>
    if s.get (CHS_SHUT.STATE n) = shutst.FAILED then s
    else
      let s := loadShuttleFw s c n
      let on := s.get (PWR_DOM.CUR (dom.cluster n)) ≠ pst.OFF
      let s := s.modShut n (fun x => { x with core := { Core.zero with lvl := .H, run := if on then .running else .idle } })
      s.put (CHS_SHUT.STATE n) (if on then shutst.RUNNING else shutst.OFF)) s

/-- Every register field that comes from the profile. `regions` says that the region tables are loaded too (R362). -/
def applyProfile (s : State) (c : FlashCopy) (p : Nat) (regions : Bool) : State :=
  match recOf c recType.PROFILE p with
  | none => s
  | some r =>
    let s := { s with boot := { s.boot with prof := profWords r } }
    let s := applyHeddles (applyRest (applyMode s p)) c p
    let s := if regions then (List.range 32).foldl (fun s h => applyRegions s c p h) s else s
    loadShuttles (applyDomains (applyReactions s c p) c p) c

/-! ### A memory controller restarted from reset (R340, R357) -/

/-- The registers of a controller at their reset values, its region table as the profile gives it. What training and Fill
recorded stays, because neither is repeated (log 25). -/
def restartCtl (s : State) (h : Nat) : State :=
  let lo := 0x3000000 + h * 0x10000
  let keys (o : Nat) : Bool := 0x3000100 ≤ o && o < 0x3000148
  let s := { s with regs := s.regs.filter (fun (e : Nat × Word) =>
    !(lo + 0x18 ≤ e.1 && e.1 < lo + 0x10000) || keys e.1) }
  let s := s.modCtl h (fun c => { c with merge := [] })
  let s := s.put (MEM_SCRUB.RATE h) (scrubRate s h)
  match s.boot.copy with
  | some c => applyRegions s c (s.get MOD_MODE.PROFILE) h
  | none => s

end Sys2Proof.Machine
end

