-- ==== Sys2Proof/Machine/Power.lean ====
section
/-! DEFINITION. Power domains, refusals, pins, wakes, the lifecycle states DOZE and RETAIN, pads, clocks and rails (R339 to
R359), and the thermal sensors (R412). -/

namespace Sys2Proof.Machine

/-! ### Refusals (R343) -/

def ref.BUFFERS : Nat := 1
def ref.STORE_BUFFER : Nat := 2
def ref.KNOT : Nat := 3
def ref.CHANNEL_OP : Nat := 4
def ref.LOOM_PIN : Nat := 5
def ref.ENGINE_RING : Nat := 6
def ref.ORDER : Nat := 7
def ref.ROLE : Nat := 8
def ref.WAKE : Nat := 9

/-- A refusal recorded: PWR_REFCNT, PWR_REFLAST and, for a domain, LASTREF. Domain 0x1FF is the lifecycle RETAIN. -/
def refused (s : State) (d code : Nat) : State :=
  let s := s.bump (PWR_REFCNT.COUNT code) 1
  let s := if d < 260 then s.put (PWR_DOM.LASTREF d) code else s
  s.wr PWR_REFLAST.off (code + d * 2 ^ 4 + 2 ^ 63)

/-- The cords whose state a strand or L2 domain holds. -/
def domCords (s : State) (d : Nat) : List Nat :=
  if d < 144 then
    (if s.voted then [d / 3] else (s.places.filter (fun k => s.strandOf (d / 3) k == d % 3)).map (s.cordOf (d / 3)))
  else if d < 192 then s.cordsOf (d - 144)
  else []

/-- The port of an operation's subchannel. -/
def opPort (s : State) (j : JRec) : Nat := (mget s.chs.scbs j.subch Scb.reset).port

/-- A record held by a Shuttle (R216). -/
def opTaken (j : JRec) : Bool :=
  match j.state with
  | .dispatched => true
  | .active => true
  | .ending => true
  | _ => false

/-- A channel operation is open on a port quad or a Shuttle cluster (R341). -/
def channelOpen (s : State) (d : Nat) : Bool :=
  if 244 ≤ d ∧ d < 256 then s.chs.cells.any (fun e => opPort s e.2 / 4 == d - 244)
  else if 196 ≤ d ∧ d < 204 then
    s.chs.cells.any (fun e => opTaken e.2 && (match e.2.shut with
      | some n => n / 4 == d - 196
      | none => false))
  else false

/-- The register span of engine e. -/
def engBase (e : Nat) : Nat := if e < 4 then 0x5000000 + e * 0x100000 else 0x6000000 + (e - 4) * 0x100000

/-- A ring of the engine is enabled (R270). -/
def ringsEnabled (s : State) (e : Nat) : Bool :=
  (List.range 64).any (fun r => bitAt (s.rd (engBase e + 0x1000 + r * 0x10)) 0)

def State.engAt (s : State) (e : Nat) : Eng := mget s.eng.engs e Eng.zero

/-- An engine has a running or suspended job, or an enabled ring. -/
def engineBusy (s : State) (e : Nat) : Bool :=
  (s.engAt e).job.isSome || !(s.engAt e).susp.isEmpty || ringsEnabled s e

/-- A warp link of the quad is UP to an admitted member. -/
def linkToMember (s : State) (q : Nat) : Bool :=
  s.spl.upLinks.any (fun l => l / 4 == q && (match mget? s.spl.peers l with
    | some m => bitAt (s.get SPL_BOLT.MEMBERS) m
    | none => false))

/-- The condition of a refuser holds for a domain. -/
def refuserHolds (s : State) (d code : Nat) : Bool :=
  if code = ref.STORE_BUFFER then d < 144 && (domCords s d).any (fun c => !(s.cord c).sbuf.isEmpty)
  else if code = ref.KNOT then (domCords s d).any (fun c => (s.cord c).knot.isSome)
  else if code = ref.CHANNEL_OP then channelOpen s d
  else if code = ref.LOOM_PIN then s.flag (PWR_DOM.PINNED d)
  else if code = ref.ENGINE_RING then 204 ≤ d && d < 212 && engineBusy s (d - 204)
  else if code = ref.ORDER then
    144 ≤ d && d < 192 && [0, 1, 2].any (fun k => s.get (PWR_DOM.CUR (dom.strand (d - 144) k)) == pst.ON)
  else if code = ref.ROLE then 256 ≤ d && d < 260 && linkToMember s (d - 256)
  else false

/-- Refusers that act when the entry begins; the others wait for the bound of R341. -/
def refusersNow : List Nat := [ref.KNOT, ref.LOOM_PIN, ref.ENGINE_RING, ref.ROLE]
def refusersLate : List Nat := [ref.STORE_BUFFER, ref.CHANNEL_OP, ref.ORDER]

def firstRefuser (s : State) (d : Nat) (codes : List Nat) : Option Nat := codes.find? (refuserHolds s d)

/-! ### Transitions (R341, R342) -/

def State.transOf (s : State) (d : Nat) : Option Trans := mget? s.pwr.trans d

/-- A transition set or ended; BUSY follows. -/
def State.setTrans (s : State) (d : Nat) (x : Option Trans) : State :=
  let m := match x with
    | some t => mset s.pwr.trans d t
    | none => mdel s.pwr.trans d
  { s with pwr := { s.pwr with trans := m } }.putFlag (PWR_DOM.BUSY d) x.isSome

/-- A domain that the module manages itself (R342). -/
def managed (s : State) (d : Nat) : Bool :=
  s.flag (FCU_SRC.FAILED d) || (decide (d < 144) &&
    (s.flag (TRI_STAT.fenced (d / 3) (d % 3)) || (!s.voted && d % 3 == 2)
      || s.tstate (d / 3) == tst.UNUSABLE || s.tstate (d / 3) == tst.FAILED))

/-- DOMAIN_REQUEST (R342): a write of PWR_DOM_d. -/
def doDomainRequest (d : Nat) (v : Word) (s : State) : State :=
  if 260 ≤ d then s
  else
    let off := PWR_DOM.off d
    let busy := s.flag (PWR_DOM.BUSY d)
    let blocked : Bool := managed s d || (match s.transOf d with
      | some x => x.begun
      | none => false)
    let s1 := (hostWrite (s.putFlag (PWR_DOM.BUSY d) blocked) off v).putFlag (PWR_DOM.BUSY d) busy
    if blocked then s1
    else
      let cur := s.get (PWR_DOM.CUR d)
      let dst := domTarget d (bits v.toNat 0 2)
      if dst = cur ∧ (s.transOf d).isNone then s1
      else s1.setTrans d (some { src := cur, dst := dst, begun := false, wake := false })

/-- DOMAIN_REQUEST (R342). -/
def execDomainRequest (dom : Nat) (v : Word) (s : State) : Host.Outcome State Fault Refusal :=
  .next (doDomainRequest dom v s)

/-- An entry refused: the domain stays as it is. -/
def refuseEntry (s : State) (d code : Nat) : State := (refused s d code).setTrans d none

/-- DOMAIN_TRANSITION_START (R342). -/
def doDomainTransitionStart (d : Nat) (s : State) : State :=
  match s.transOf d with
  | none => s
  | some x =>
    if x.begun then s
    else
      let go := s.setTrans d (some { x with begun := true })
      if x.dst = pst.ON then go
      else
        match firstRefuser s d (if x.src = pst.ON then refusersNow else [ref.LOOM_PIN]) with
        | some code => refuseEntry s d code
        | none => go

/-- DOMAIN_TRANSITION_START (R342). -/
def execDomainTransitionStart (dom : Nat) (s : State) : Host.Outcome State Fault Refusal :=
  .next (doDomainTransitionStart dom s)

/-- Classes whose buffers may fail to drain in their bound: L2s, slices, memory channels and ×8 ports (R341). -/
def boundedBuffers (d : Nat) : Bool := (144 ≤ d && d < 196) || (212 ≤ d && d < 244)

/-- DOMAIN_DRAIN_TIMEOUT (R341): a step not done in its bound refuses the entry. -/
def doDomainDrainTimeout (d : Nat) (s : State) : State :=
  match s.transOf d with
  | none => s
  | some x =>
    if !x.begun ∨ x.src ≠ pst.ON ∨ x.dst = pst.ON then s
    else if boundedBuffers d ∧ !refuserHolds s d ref.ORDER then refuseEntry s d ref.BUFFERS
    else
      match firstRefuser s d refusersLate with
      | some code => refuseEntry s d code
      | none => s

/-- DOMAIN_DRAIN_TIMEOUT (R341). -/
def execDomainDrainTimeout (dom : Nat) (s : State) : Host.Outcome State Fault Refusal :=
  .next (doDomainDrainTimeout dom s)

/-! ### What a domain does before it leaves ON (R341) -/

/-- Every line of a triad's L2 written back and left by the directories. -/
def emptyL2 (s : State) (t : Nat) : State :=
  (s.l2.filter (fun e => e.1 / 2 ^ 44 == t)).foldl (fun s e =>
    let line := e.1 % 2 ^ 44
    dirForget ((sectorsHome s line (agentOwner s t line) e.2.copy .none).setL2 t line CLine.none) line t) s

/-- The L1s of a strand emptied. -/
def emptyL1 (s : State) (t k : Nat) : State :=
  let drop (b : BitVec 3) : BitVec 3 := b &&& ~~~(BitVec.ofNat 3 (2 ^ k))
  mapL2 s t (fun x => { x with l1d := drop x.l1d, l1i := drop x.l1i })

/-- The lines of a slice written to their homes and dropped. -/
def emptySlice (s : State) (k : Nat) : State :=
  s.warp.foldl (fun s e =>
    match memHome s (e.1 * 256) with
    | some h =>
      if sliceOf h = k then
        let s := warpWriteback s h e.1
        { s with warp := mdel s.warp e.1 }
      else s
    | none => s) s

/-- Every open merge entry of a controller closed. -/
def closeMerges (s : State) (h : Nat) : State := (s.ctl h).merge.foldl (fun s e => closeMerge s h e) s

/-- The controller of a memory domain. -/
def ctlOf (d : Nat) : Nat := if d < 228 then d - 212 else 16 + (d - 228)

/-- The links of a quad released: they go to electrical idle and are DOWN. -/
def releaseLinks (s : State) (q : Nat) : State :=
  (List.range 4).foldl (fun s i => (s.put (CHP_STAT.LINK (4 * q + i)) 0).modPort (4 * q + i) (fun p => { p with
    released := true, rx := [], initSeen := false, initAcked := false, leftUp := none })) s

/-- The writes that wait at a controller are made before it goes. -/
def drainWrites (s : State) (h : Nat) : State :=
  let here (w : Waiting) : Bool := match w.what with
    | .write x _ _ _ _ _ => x == h
    | _ => false
  (s.loom.waiting.filter here).foldl waitedWrite s

/-- The steps before a domain leaves ON. -/
def leaveOn (s : State) (d : Nat) : State :=
  if d < 144 then emptyL1 s (d / 3) (d % 3)
  else if d < 192 then emptyL2 s (d - 144)
  else if d < 196 then emptySlice s (d - 192)
  else if d < 212 then s
  else if d < 244 then closeMerges (drainWrites s (ctlOf d)) (ctlOf d)
  else if d < 256 then releaseLinks s (d - 244)
  else { s with spl := { s.spl with upLinks := s.spl.upLinks.filter (fun l => l / 4 ≠ d - 256) } }

/-- The pads of an I/O domain are latched in RETAIN and OFF (R358). -/
def latchPads (s : State) (d dst : Nat) : State :=
  if 212 ≤ d ∧ (dst = pst.RETAIN ∨ dst = pst.OFF) then s.putFlag (PWR_DOM.PADLATCH d) true else s

/-- Registers of a span at their reset values. -/
def resetSpan (s : State) (lo hi : Nat) (but : Nat → Bool) : State :=
  { s with regs := s.regs.filter (fun (e : Nat × Word) => !(lo ≤ e.1 && e.1 < hi) || but e.1) }

/-- A domain restarts from reset and initialises itself (R340, R357). -/
def restartDomain (s : State) (d : Nat) : State :=
  if d < 144 then s
  else if d < 192 then resetSpan s (CRD_CTL.off (d - 144)) (CRD_CTL.off (d - 144) + 0x100) (fun _ => false)
  else if d < 196 then s
  else if d < 204 then
    match s.boot.copy with
    | some c =>
      (List.range 4).foldl (fun s i =>
        let n := 4 * (d - 196) + i
        if s.get (CHS_SHUT.STATE n) = shutst.FAILED then s
        else
          ((loadShuttleFw s c n).modShut n (fun x => { x with core := { Core.zero with lvl := .H, run := .running }, saved := false })).put
            (CHS_SHUT.STATE n) shutst.RUNNING) s
    | none => s
  else if d < 212 then
    resetSpan s (engBase (d - 204)) (engBase (d - 204) + 0x2000) (fun o => 0x5000100 ≤ o && o < 0x5000148)
  else if d < 244 then restartCtl s (ctlOf d)
  else if d < 256 then
    (List.range 4).foldl (fun s i =>
      let p := 4 * (d - 244) + i
      let mode := s.get (CHP_CFG.MODE p)
      (resetSpan s (CHP_CFG.off p) (CHP_CFG.off p + 0x1000) (fun _ => false)).put (CHP_CFG.MODE p) mode) s
  else s

/-- The retention bank of a domain (R339). -/
def bankOf (d : Nat) : Nat :=
  if d < 144 then d / 6
  else if d < 192 then (d - 144) / 2
  else if d < 196 then 24 + (d - 192)
  else if d < 204 then 28
  else if d < 212 then 29
  else if d < 228 then 24 + (d - 212) / 4
  else if d < 244 then 24 + (d - 228) / 4
  else if d < 256 then 30
  else 31

/-- A seal that does not match (R357). -/
def sealFail (s : State) (d : Nat) : State :=
  let s := s.put PWR_RETSTAT.LOST (s.get PWR_RETSTAT.LOST ||| 2 ^ bankOf d)
  let s := s.putFlag (PWR_DOM.LOST d) true
  restartDomain (report s { Report.of src.standing .UC with far := d }) d

/-- The link of a channel port trains, unless the port is disabled, its quad is not ON or its pads are latched (R241, R340,
R358). -/
def trainPort (s : State) (p : Nat) : State :=
  if s.flag (CHP_CTL.DISABLE p) ∨ s.flag (PWR_DOM.PADLATCH (dom.quad (p / 4))) ∨ !s.domOn (dom.quad (p / 4)) then s
  else
    ((s.put (CHP_STAT.LINK p) 1).put (CHP_STAT.WIDTH p) 0).modPort p (fun x => { x with
      initSeen := false, initAcked := false, released := false, releasing := false })

/-- The links of a quad that are DOWN train. -/
def trainQuad (s : State) (q : Nat) : State :=
  (List.range 4).foldl (fun s i => if s.get (CHP_STAT.LINK (4 * q + i)) = 0 then trainPort s (4 * q + i) else s) s

/-- A domain comes back to ON from a state; pads of DDR channels are released (R340, R357, R358). -/
def returnOn (s : State) (d from' : Nat) (sealOk : Bool) : State :=
  let s := if from' = pst.OFF then restartDomain s d
    else if from' = pst.RETAIN ∧ !sealOk then sealFail s d
    else s
  let s := if 212 ≤ d ∧ d < 228 then s.putFlag (PWR_DOM.PADLATCH d) false else s
  let s := setDom s d pst.ON
  if 244 ≤ d ∧ d < 256 then trainQuad s (d - 244) else s

/-- The module is in DOZE while no strand domain is ON and it would otherwise be in RUN. -/
def dozeCheck (s : State) : State :=
  let asleep := (List.range 144).all (fun d => s.get (PWR_DOM.CUR d) != pst.ON)
  if s.lifecycle = life.RUN ∧ asleep then s.put PWR_MODSTAT.LIFE life.DOZE
  else if s.lifecycle = life.DOZE ∧ !asleep then s.put PWR_MODSTAT.LIFE life.RUN
  else s

/-! ### Wakes (R344, R346) -/

/-- A domain below ON is on its way back; requests to it stall meanwhile. An entry still in progress is refused with WAKE. -/
def wakeDomain (s : State) (d : Nat) : State :=
  if s.flag (FCU_SRC.FAILED d) then s
  else
    let cur := s.get (PWR_DOM.CUR d)
    match s.transOf d with
    | some x =>
      if x.dst = pst.ON then s.setTrans d (some { x with wake := true })
      else if x.src = pst.ON then refuseEntry s d ref.WAKE
      else s.setTrans d (some { src := cur, dst := pst.ON, begun := true, wake := true })
    | none => if cur = pst.ON then s else s.setTrans d (some { src := cur, dst := pst.ON, begun := true, wake := true })

/-- A doorbell at a Shuttle-cluster or engine domain in GATED or RETAIN wakes it (R346). -/
def doorbell (s : State) (d : Nat) : State :=
  let cur := s.get (PWR_DOM.CUR d)
  if cur = pst.OFF then s else wakeDomain s d

/-- What a domain does as it leaves a state for one below ON: the steps of R341 from ON; from OFF its block comes up from reset; from
RETAIN, unless its supply goes, the seal is checked before anything is restored (R340, R357). -/
def leaveState (s : State) (d : Nat) (x : Trans) (sealOk : Bool) : State :=
  if x.src = pst.ON then leaveOn s d
  else if x.src = pst.OFF then restartDomain s d
  else if x.src = pst.RETAIN ∧ x.dst = pst.GATED ∧ !sealOk then sealFail s d
  else s

/-- DOMAIN_TRANSITION_DONE (R340): the domain reaches its new state. -/
def doDomainTransitionDone (d : Nat) (sealOk : Bool) (s : State) : State :=
  match s.transOf d with
  | none => s
  | some x =>
    if !x.begun then s
    else if x.dst = pst.ON then dozeCheck ((returnOn s d x.src sealOk).setTrans d none)
    else if x.src = pst.ON ∧ (firstRefuser s d refusersLate).isSome then s
    else
      let s := leaveState s d x sealOk
      let s := (setDom (latchPads s d x.dst) d x.dst).setTrans d none
      dozeCheck (if s.flag (PWR_DOM.PINNED d) then wakeDomain (s.put (PWR_DOM.REQ d) pst.ON) d else s)

/-- DOMAIN_TRANSITION_DONE (R340). -/
def execDomainTransitionDone (dom : Nat) (sealOk : Bool) (s : State) : Host.Outcome State Fault Refusal :=
  .next (doDomainTransitionDone dom sealOk s)

/-! ### Pins (R344) -/

/-- The active table has a beat of a tenant other than the host. -/
def tenantBeat (s : State) (t : Nat) : Bool :=
  (List.range 63).any (fun b => s.hedKind t b == 0 && s.hedTenant t b != 0)

/-- The domains that the Loom pins. -/
def pinnedDomains (s : State) : List Nat :=
  let cords := (List.range s.cordCount).filter (fun c => s.assigned c)
  cords.flatMap (fun c =>
      let t := s.triadOf c
      dom.l2 t :: (if s.voted then [0, 1, 2].filter (fun k => !s.flag (TRI_STAT.fenced t k)) else [s.strandOf t (s.shareOf c)]).map (dom.strand t))
    ++ ((List.range 8).filter (tenantBeat s)).flatMap (fun g => [212 + 2 * g, 213 + 2 * g])
    ++ ((List.range 8).filter (fun g => tenantBeat s (8 + g))).flatMap (fun g => [228 + 2 * g, 229 + 2 * g])
    ++ ((List.range 16).filter (fun l => tenantBeat s (16 + l))).map dom.link
    ++ ((List.range 12).filter (fun q => tenantBeat s (32 + q))).flatMap (fun q =>
        dom.quad q :: ((List.range 32).filter (fun n => s.get (CHS_SHUT.QUAD n) == q)).map dom.cluster)
    ++ ((List.range 8).filter (fun e => tenantBeat s (44 + e))).map dom.engine

/-- The pins follow the active copies; a pinned domain that is not ON is woken. -/
def applyPins (s : State) : State :=
  let pins := pinnedDomains s
  (List.range Config.domains).foldl (fun s d =>
    let p := pins.contains d
    let s := if s.flag (PWR_DOM.PINNED d) = p then s else s.putFlag (PWR_DOM.PINNED d) p
    if p ∧ s.get (PWR_DOM.CUR d) ≠ pst.ON ∧ !s.flag (FCU_SRC.FAILED d) then wakeDomain (s.put (PWR_DOM.REQ d) pst.ON) d
    else s) s

/-! ### Reads -/

/-- PWR_DARK_READ (R345). -/
def execPwrDarkRead (s : State) : Host.Outcome State Fault Refusal := .next (hostRead s PWR_DARK.off)

/-- PWR_REFCNT_READ (R343). -/
def execPwrRefcntRead (i : Nat) (s : State) : Host.Outcome State Fault Refusal := .next (hostRead s (PWR_REFCNT.off i))

/-! ### The lifecycle RETAIN (R347, R348) -/

/-- The refuser of the module's entry when it is requested. -/
def retainRefuser (s : State) : Option Nat :=
  if (List.range s.cordCount).any (fun c => (s.cord c).knot.isSome) then some ref.KNOT
  else if !s.chs.cells.isEmpty then some ref.CHANNEL_OP
  else if s.role ≠ 0 then some ref.ROLE
  else none

/-- LIFECYCLE_RETAIN (R347): a write of PWR_MODCMD. -/
def doLifecycleRetain (v : Word) (s : State) : State :=
  let op := bits (taken s PWR_MODCMD.off v) 0 2
  let s := hostWrite s PWR_MODCMD.off v
  if op ≠ 1 ∨ s.flag PWR_MODCMD.BUSY ∨ !(s.lifecycle == life.RUN || s.lifecycle == life.DOZE) then s
  else
    match retainRefuser s with
    | some code => refused s 0x1FF code
    | none => { s.putFlag PWR_MODCMD.BUSY true with pwr := { s.pwr with retain := 1 } }

/-- LIFECYCLE_RETAIN (R347). -/
def execLifecycleRetain (v : Word) (s : State) : Host.Outcome State Fault Refusal := .next (doLifecycleRetain v s)

/-- At the pick boundary every assigned cord stops and saves its context; incomplete saves are remembered (R347, R418). -/
def retainStop (s : State) : State :=
  if s.pwr.retain ≠ 1 then s
  else
    (List.range s.cordCount).foldl (fun s c =>
      if s.assigned c ∧ (s.cord c).run.hadState then
        let (s, ok) := saveContext (slipCord s c slip.PICK 0 0) c
        let s := s.modCord c (fun k => { k with run := .stopped })
        if ok then s else { s with pwr := { s.pwr with stalled := c :: s.pwr.stalled } }
      else s) { s with pwr := { s.pwr with retain := 2, stalled := [] } }

/-- Cords that the entry or a refusal has left stopped are loaded and released at a pick boundary (R347, R348). -/
def retainRelease (s : State) : State :=
  if s.pwr.retain ≠ 3 then s
  else
    (List.range s.cordCount).foldl (fun s c =>
      let t := s.triadOf c
      if s.assigned c ∧ (s.cord c).run = .stopped ∧ !s.flag (TRI_STAT.halt t (s.shareOf c)) then
        let (t, ok) := loadContext s c
        let t := slotLate s t c
        if ok then releaseCord t c else t
      else s) { s with pwr := { s.pwr with retain := 0 } }

/-- A step before the domains enter RETAIN refuses the entry (R347). -/
def retainLate (s : State) : Option Nat :=
  if (List.range s.cordCount).any (fun c => !(s.cord c).sbuf.isEmpty) then some ref.STORE_BUFFER
  else if !s.chs.cells.isEmpty then some ref.CHANNEL_OP
  else if (List.range 8).any (engineBusy s) then some ref.ENGINE_RING
  else none

/-- Every cache written back and emptied. -/
def emptyCaches (s : State) : State :=
  let s := (List.range 48).foldl (fun s t => emptyL2 s t) s
  (List.range 4).foldl (fun s k => emptySlice s k) s

/-- The standing regulator's low-power mode, in which the monitors of the removable rails are disarmed (R352, R355). -/
def lowPower (s : State) (on : Bool) : State :=
  (List.range 4).foldl (fun s k => s.putFlag (PWR_RAIL.ARMED k) (!on)) (s.putFlag PWR_STBY.LP on)

/-- Every domain to RETAIN, or to OFF when REQ names OFF; the state before is kept. -/
def retainDomains (s : State) : State :=
  (List.range Config.domains).foldl (fun s d =>
    let cur := s.get (PWR_DOM.CUR d)
    let s := { s with pwr := { s.pwr with before := mset s.pwr.before d cur } }
    let dst := if s.get (PWR_DOM.REQ d) = pst.OFF ∨ cur = pst.OFF then pst.OFF else pst.RETAIN
    let s := if cur = pst.ON then leaveOn s d else s
    (setDom (latchPads s d dst) d dst).setTrans d none) s

/-- RETAIN_ENTERED (R347). -/
def doRetainEntered (s : State) : State :=
  if s.pwr.retain ≠ 2 then s
  else
    match retainLate s with
    | some code =>
      let s := (refused s 0x1FF code).putFlag PWR_MODCMD.BUSY false
      { s with pwr := { s.pwr with retain := 3 } }
    | none =>
      let s := retainDomains (emptyCaches s)
      let s := (lowPower (s.put PWR_MODSTAT.LIFE life.RETAIN) true).putFlag PWR_MODCMD.BUSY false
      { s with pwr := { s.pwr with retain := 0, retained := true } }

/-- RETAIN_ENTERED (R347). -/
def execRetainEntered (s : State) : Host.Outcome State Fault Refusal := .next (doRetainEntered s)

/-- A cord that the wake cannot release is halted: its domain lost its state, or its save was incomplete (R348). -/
def wakeHalts (s : State) (c : Nat) : State :=
  let t := s.triadOf c
  let k := s.shareOf c
  let incomplete := s.pwr.stalled.contains c
  let lost := (dom.l2 t :: (if s.voted then [0, 1, 2] else [s.strandOf t k]).map (dom.strand t)).any (fun d => s.flag (PWR_DOM.LOST d))
  if s.assigned c ∧ (s.cord c).run = .stopped ∧ (incomplete ∨ lost) then
    ((s.putFlag (TRI_STAT.halt t k) true).putFlag (TRI_STAT.ctxv t k) !incomplete).modCord c (fun x => { x with run := .halted })
  else s

/-- RETAIN_WAKE (R348): PWR_WAKE.GO ends RETAIN; domains return to the states before it, with their seals checked. -/
def doRetainWake (badSeals : List Nat) (s : State) : State :=
  if s.lifecycle ≠ life.RETAIN then s
  else
    let s := (lowPower s false).put PWR_MODSTAT.LIFE life.RUN
    let s := (List.range Config.domains).foldl (fun s d =>
      let b := mget s.pwr.before d pst.ON
      let cur := s.get (PWR_DOM.CUR d)
      if b = pst.ON then returnOn s d cur (!badSeals.contains d)
      else if cur = pst.RETAIN ∧ b ≠ pst.RETAIN ∧ d ∈ badSeals then setDom (sealFail s d) d b
      else setDom s d b) s
    let s := (List.range s.cordCount).foldl wakeHalts s
    dozeCheck { s with pwr := { s.pwr with retained := false, retain := 3, before := [], stalled := [] } }

/-- RETAIN_WAKE (R348). -/
def execRetainWake (badSeals : List Nat) (s : State) : Host.Outcome State Fault Refusal := .next (doRetainWake badSeals s)

/-- PAD_RELEASE (R358): a write of PWR_PADREL. -/
def doPadRelease (v : Word) (s : State) : State :=
  let w := taken s PWR_PADREL.off v
  let s := hostWrite s PWR_PADREL.off v
  if !bitAt w 63 then s
  else
    ((List.range 260).filter (fun d => 228 ≤ d && (bitAt w 9 || d == bits w 0 9))).foldl (fun s d =>
      if s.flag (PWR_DOM.PADLATCH d) ∧ s.get (PWR_DOM.CUR d) = pst.ON then
        let s := s.putFlag (PWR_DOM.PADLATCH d) false
        if 244 ≤ d ∧ d < 256 then trainQuad s (d - 244) else s
      else s) s

/-- PAD_RELEASE (R358). -/
def execPadRelease (v : Word) (s : State) : Host.Outcome State Fault Refusal := .next (doPadRelease v s)

/-! ### Clocks and rails (R351 to R353) -/

/-- RCLK_FREQ_ERROR (R351). -/
def execRclkFreqError (ppm : Int) (s : State) : Host.Outcome State Fault Refusal :=
  .next (if ppm < -300 ∨ 300 < ppm then raise s src.clock .CE else s)

/-- CLOCK_LOSS (R351): the safe state follows. -/
def execClockLoss (_pll : Option Nat) (s : State) : Host.Outcome State Fault Refusal := .next (raise s src.clock .UF)

/-- The tiles that a rail's warning throttles. -/
def railTiles (k : Nat) : List Nat := if k < 4 then [k] else [0, 1, 2, 3]

def PWR_CLK.halved (k : Nat) : Fld := { off := PWR_CLK.off, lsb := 12 + k, w := 1 }
def PWR_THERM.throttled (k : Nat) : Fld := { off := PWR_THERM.off, lsb := 8 + k, w := 1 }

/-- PWR_CLK.REMAIN: the longest halving, in pick boundaries, or in picks of time before the first pick. -/
def halvingRemain (s : State) : State :=
  let byPick := s.pwr.railHalf.foldl (fun m e => max m e.2) 0
  let byTime := s.pwr.railUntil.foldl (fun m e => max m ((e.2 - s.time.now + 12799) / 12800)) 0
  s.put PWR_CLK.REMAIN (max byPick byTime)

/-- A halving that runs by time: the time left goes down with every rclk (R353). -/
def remainDue (s : State) : State := if s.pwr.railUntil.isEmpty then s else halvingRemain s

/-- A tile halved by its rail, for sixteen boundaries or, before the first pick, for their time. -/
def railHalve (s : State) (k : Nat) : State :=
  let s := s.putFlag (PWR_CLK.halved k) true
  if s.time.loom then { s with pwr := { s.pwr with railHalf := mset s.pwr.railHalf k 16, railUntil := mdel s.pwr.railUntil k } }
  else { s with pwr := { s.pwr with railUntil := mset s.pwr.railUntil k (s.time.now + Config.halvingRclk) } }

/-- SUPPLY_WARN (R353). -/
def doSupplyWarn (rail : Nat) (s : State) : State :=
  if 10 ≤ rail ∨ !s.flag (PWR_RAIL.ARMED rail) then s
  else
    let s := (s.bump (PWR_RAIL.WARNCNT rail) 1).putFlag (PWR_RAIL.BELOW rail) true
    halvingRemain ((railTiles rail).foldl railHalve (raise s (src.rail rail) .CE))

/-- SUPPLY_WARN (R353). -/
def execSupplyWarn (rail : Nat) (s : State) : Host.Outcome State Fault Refusal := .next (doSupplyWarn rail s)

/-- The halving of a tile has run its time. -/
def halvingOver (s : State) (k : Nat) : Bool :=
  match mget? s.pwr.railHalf k, mget? s.pwr.railUntil k with
  | some n, _ => n == 0
  | none, some t => t ≤ s.time.now
  | none, none => false

/-- HALVING_EXPIRY (R353): full rate again. The rails of the tile are taken to have recovered (log 27). -/
def doHalvingExpiry (tile : Nat) (s : State) : State :=
  if halvingOver s tile then
    let s := { s with pwr := { s.pwr with railHalf := mdel s.pwr.railHalf tile, railUntil := mdel s.pwr.railUntil tile } }
    let s := s.putFlag (PWR_CLK.halved tile) false
    let done := s.pwr.railHalf.isEmpty && s.pwr.railUntil.isEmpty
    let rails := if done then List.range 10 else [tile]
    halvingRemain (rails.foldl (fun s k => s.putFlag (PWR_RAIL.BELOW k) false) s)
  else s

/-- HALVING_EXPIRY (R353). -/
def execHalvingExpiry (tile : Nat) (s : State) : Host.Outcome State Fault Refusal :=
  .next (if tile < 4 then doHalvingExpiry tile s else s)

/-! ### Thermal sensors (R412)

Sensors 0 to 15 lie on tiles, four to a tile; the others on the I/O dies. -/

/-- A sensor's reading; TMAX follows. -/
def sensorReads (s : State) (sensor celsius : Nat) : State :=
  let s := { s with pwr := { s.pwr with sensors := mset s.pwr.sensors sensor celsius } }
  s.put PWR_THERM.TMAX (min 125 (s.pwr.sensors.foldl (fun m e => max m e.2) 0))

/-- A tile halved for heat; only the first crossing is an entry in THRCNT. -/
def thermHalve (s : State) (k : Nat) : State :=
  let s := if s.flag (PWR_THERM.throttled k) then s else s.bump PWR_THERM.THRCNT 1
  let s := s.putFlag (PWR_THERM.throttled k) true
  if s.time.loom then { s with pwr := { s.pwr with thermHalf := mset s.pwr.thermHalf k 16, thermUntil := mdel s.pwr.thermUntil k } }
  else { s with pwr := { s.pwr with thermUntil := mset s.pwr.thermUntil k (s.time.now + Config.halvingRclk) } }

/-- THERMAL_THROTTLE (R412): a reading of 95 °C or more; a lower one is only noted. -/
def doThermalThrottle (sensor celsius : Nat) (s : State) : State :=
  let s := sensorReads s sensor celsius
  if celsius < 95 then s
  else
    let s := raise s src.thermal .CE
    if sensor < 16 then thermHalve s (sensor / 4) else s

/-- THERMAL_THROTTLE (R412). -/
def execThermalThrottle (sensor celsius : Nat) (s : State) : Host.Outcome State Fault Refusal :=
  .next (doThermalThrottle sensor celsius s)

/-- THERMAL_TRIP (R412): 100 °C forces the safe state. -/
def execThermalTrip (sensor celsius : Nat) (s : State) : Host.Outcome State Fault Refusal :=
  .next (let s := sensorReads s sensor celsius
         if 100 ≤ celsius then raise s src.thermal .UF else s)

/-- All four sensors of a tile read 92 °C or less. -/
def tileCool (s : State) (k : Nat) : Bool := (List.range 4).all (fun i => mget s.pwr.sensors (4 * k + i) 0 ≤ 92)

/-- A tile back at full rate, as far as heat is concerned. -/
def thermEnd (s : State) (k : Nat) : State :=
  { s with pwr := { s.pwr with thermHalf := mdel s.pwr.thermHalf k, thermUntil := mdel s.pwr.thermUntil k } }.putFlag
    (PWR_THERM.throttled k) false

/-- THERMAL_HALVING_EXPIRY (R412): before the first pick, by time. -/
def doThermalHalvingExpiry (tile : Nat) (s : State) : State :=
  match mget? s.pwr.thermUntil tile with
  | some t => if t ≤ s.time.now ∧ tileCool s tile ∧ !s.time.loom then thermEnd s tile else s
  | none => s

/-- THERMAL_HALVING_EXPIRY (R412). -/
def execThermalHalvingExpiry (tile : Nat) (s : State) : Host.Outcome State Fault Refusal :=
  .next (doThermalHalvingExpiry tile s)

/-- A pick boundary counts down the halvings; a cool tile whose count is over returns to full rate (R353, R412). -/
def halvingsTick (s : State) : State :=
  let s := { s with pwr := { s.pwr with
    railHalf := s.pwr.railHalf.map (fun (e : Nat × Nat) => (e.1, e.2 - 1))
    thermHalf := s.pwr.thermHalf.map (fun (e : Nat × Nat) => (e.1, e.2 - 1)) } }
  let s := halvingRemain s
  (List.range 4).foldl (fun s k =>
    match mget? s.pwr.thermHalf k, mget? s.pwr.thermUntil k with
    | some 0, _ => if tileCool s k then thermEnd s k else s
    | none, some t => if t ≤ s.time.now ∧ tileCool s k then thermEnd s k else s
    | _, _ => s) s

end Sys2Proof.Machine
end

