-- ==== Sys2Proof/Machine/Channel.lean ====
section
/-! DEFINITION. Shared operations of the channel subsystem: accesses on a VI's behalf, the dirty log, the end of an operation,
its completion record and the states of a subchannel (R204 to R223, R238). -/

namespace Sys2Proof.Machine

/-! ### Status codes (R222) -/

def cst.OK : Nat := 0x00
def cst.OVERRUN : Nat := 0x02
def cst.AUTH_FAIL : Nat := 0x03
def cst.KEY_SPENT : Nat := 0x04
def cst.OUT_FULL : Nat := 0x05
def cst.OUTPUT_LIMIT : Nat := 0x06
def cst.STATE_PARITY : Nat := 0x07
def cst.POISON : Nat := 0x08
def cst.CHANNEL_HALT : Nat := 0x09
def cst.DEVICE_LOST : Nat := 0x0A
def cst.PATH_LOST : Nat := 0x0B
def cst.BAD_PROGRAM : Nat := 0x0C
def cst.DATA_CHECK : Nat := 0x0D
def cst.SUSPENDED : Nat := 0x0E
def cst.QUOTA : Nat := 0x0F
def cst.DARK : Nat := 0x10
def cst.TIMEOUT : Nat := 0x11
def cst.BAD_STREAM : Nat := 0x12
def cst.DUPLICATE_ACK : Nat := 0x13

/-! ### Subchannels, records, VIs -/

def sub.FREE : Nat := 0
def sub.BOUND : Nat := 1
def sub.HALTED : Nat := 2
def sub.LOST : Nat := 3

def State.scb (s : State) (x : Nat) : Scb := mget s.chs.scbs x Scb.reset

def State.setScb (s : State) (x : Nat) (b : Scb) : State :=
  { s with chs := { s.chs with scbs := mput s.chs.scbs x b Scb.reset } }

def State.op? (s : State) (cell : Nat) : Option JRec := mget? s.chs.cells cell

def State.setOp (s : State) (cell : Nat) (j : JRec) : State := { s with chs := { s.chs with cells := mset s.chs.cells cell j } }

def State.viTenant (s : State) (v : Nat) : Nat := s.get (CHS_VI_CFG.TENANT v)

def State.postedOf (s : State) (v : Nat) : List Nat := mget s.chs.posted v []

def State.setPosted (s : State) (v : Nat) (l : List Nat) : State :=
  { s with chs := { s.chs with posted := mput s.chs.posted v l [] } }

/-- The quad of an operation's port. -/
def opQuad (s : State) (j : JRec) : Nat := opPort s j / 4

/-- The wheel source of a quad's channel DMA (R167). -/
def dmaSrc (q : Nat) : Nat := 57 + q / 3

/-- A record not yet ENDING. -/
def opOpen (j : JRec) : Bool :=
  match j.state with
  | .accepted => true
  | .dispatched => true
  | .active => true
  | _ => false

/-! ### The pool's reservations (R225) -/

/-- Cells held for VIs and for event queues: their quotas, and what a lowered quota still has in use. With `quota` only what
is reserved. -/
def poolHeld (s : State) (quota : Bool) : Nat :=
  let vi (w : Nat) : Nat := 2 * (if quota then bits w 16 16 else max (bits w 16 16) (bits w 32 16))
  let cells (n : Nat) : Nat := (n + 3) / 4
  (s.regs.filter (fun e => 0x4010000 ≤ e.1 && e.1 < 0x4030000 && e.1 % 0x20 == 0)).foldl (fun n e => n + vi e.2.toNat) 0
    + (List.range 96).foldl (fun n c =>
        let q := cells (s.get (CHS_EVQ.QUOTA c))
        n + (if quota then q else max q (cells (s.get (CHS_EVQ.USED c))))) 0

/-- CHS_POOL after a change of the reservations. -/
def poolUpdate (s : State) : State :=
  let free := Config.poolCells - poolHeld s false
  ((s.put CHS_POOL.FREE free).put CHS_POOL.RESERVED (poolHeld s true)).putFlag CHS_POOL.FULL (free == 0)

/-! ### Accesses on a VI's behalf (R205) -/

/-- A tenant-physical address of a VI translated for an access. -/
def viPhys (s : State) (src v tpa : Nat) (a : Acc1) : State × Option Nat :=
  if 2 ^ 48 ≤ tpa then (s, none)
  else
    match stage2 s src (viRoot s v) tpa a true with
    | (s, .ok (p, _)) => (s, some p.pa)
    | (s, _) => (s, none)

/-- Every line of a page piece can be reached by a tenant: no hole, no refusal, no dark block. -/
def spanOk (s : State) (tenant pa n : Nat) : Bool :=
  (List.range ((pa % 256 + n + 255) / 256)).all (fun i =>
    match spotFor s (pa / 256 * 256 + 256 * i) tenant with
    | .mem _ => true
    | .remote _ => true
    | _ => false)

/-- A refusal by the selvedge is counted. -/
def countSpan (s : State) (tenant pa n : Nat) : State :=
  (List.range ((pa % 256 + n + 255) / 256)).foldl (fun s i => countRefusal s (pa / 256 * 256 + 256 * i) tenant) s

/-- A piece that lies in one page: its span, or none when an address faults. -/
def viSpan (s : State) (src v tpa n : Nat) (a : Acc1) : State × Option Span :=
  match viPhys s src v tpa a with
  | (s, none) => (s, none)
  | (s, some pa) =>
    if spanOk s (s.viTenant v) pa n then (s, some { pa := pa, tpa := tpa, len := n }) else (countSpan s (s.viTenant v) pa n, none)

/-- A range cut at 4 KiB boundaries. -/
def pagesOf (tpa n : Nat) : Nat → List (Nat × Nat)
  | 0 => []
  | f + 1 => if n = 0 then [] else
    let k := min n (4096 - tpa % 4096)
    (tpa, k) :: pagesOf (tpa + k) (n - k) f

/-- Page pieces translated in order; the first address that faults. -/
def viSpans (s : State) (src v : Nat) (a : Acc1) : List (Nat × Nat) → State × Except Nat (List Span)
  | [] => (s, .ok [])
  | (tpa, n) :: t =>
    match viSpan s src v tpa n a with
    | (s, none) => (s, .error tpa)
    | (s, some x) =>
      match viSpans s src v a t with
      | (s, .ok xs) => (s, .ok (x :: xs))
      | (s, .error e) => (s, .error e)

/-- Data read: its bytes as a number, and the first poisoned sector met. -/
structure Got2 where
  val : Nat
  poison : Option Nat
  deriving DecidableEq, Repr

/-- Spans read sector by sector; the fuel is the number of sectors. -/
def spanRead (s : State) (src tenant tpa pa n : Nat) : Nat → State × Got2
  | 0 => (s, { val := 0, poison := none })
  | f + 1 =>
    if n = 0 then (s, { val := 0, poison := none })
    else
      let k := min n (64 - pa % 64)
      let (s, b) := readBytes s src tenant pa k
      let (s, r) := spanRead s src tenant (tpa + k) (pa + k) (n - k) f
      (s, { val := b.val + r.val * 256 ^ k, poison := if b.poison then some (tpa / 64 * 64) else r.poison })

def spansRead (s : State) (src tenant : Nat) : List Span → State × Got2
  | [] => (s, { val := 0, poison := none })
  | x :: t =>
    let (s, a) := spanRead s src tenant x.tpa x.pa x.len (x.len / 64 + 2)
    let (s, b) := spansRead s src tenant t
    (s, { val := a.val + b.val * 256 ^ x.len, poison := match a.poison with
      | some p => some p
      | none => b.poison })

/-- How a descriptor read ends. -/
inductive Desc where
  | ok (v : Nat)
  | fault
  | poison
  deriving DecidableEq, Repr

/-- The descriptor cache's agent number (R235). -/
def dcSrc : Nat := 48

/-- A line of descriptors of a tenant: from the descriptor cache, or read into it by RD_S. A disabled cache, one in which the tenant has
no way, and a line of another module are read past it (R162, R164, R235; log 18). -/
def descLine (s : State) (src tenant pa : Nat) : State × Reach × LineData × BitVec 4 :=
  let line := normLine s pa
  if !s.flag CHS_CFG.DCEN ∨ dcWays s tenant = [] then peekLine s src tenant pa
  else
    match spotFor s pa tenant with
    | .mem h =>
      (match mget? s.chs.dc line with
        | some c =>
          let mine (o : Owed) : Bool := o.agent == dcSrc && o.who == selfWho && o.line == line
          ({ s with owed := s.owed.filter (fun o => !mine o) }, .ok, c.bytes, c.poison)
        | none =>
          let (t, d, p) := peekHere s h .rdS (Req.of dcSrc line tenant) false
          (if wanting s t then t else dcFill t line tenant d p, .ok, d, p))
    | _ => peekLine s src tenant pa

/-- Bytes of one page of descriptors, line by line; the fuel is the number of lines. -/
def descRun (s : State) (src tenant tpa pa n : Nat) : Nat → State × Got2
  | 0 => (s, { val := 0, poison := none })
  | f + 1 =>
    if n = 0 then (s, { val := 0, poison := none })
    else
      let k := min n (256 - pa % 256)
      let (s, _, d, p) := descLine s src tenant pa
      let bad : Option Nat := (List.range ((pa % 64 + k + 63) / 64)).find? (fun i => bitAt p.toNat (pa % 256 / 64 + i))
      let (s, r) := descRun s src tenant (tpa + k) (pa + k) (n - k) f
      (s, { val := lineBytes d (pa % 256) k + r.val * 256 ^ k
            poison := match bad with
              | some i => some ((tpa / 64 + i) * 64)
              | none => r.poison })

def descSpans (s : State) (src tenant : Nat) : List Span → State × Got2
  | [] => (s, { val := 0, poison := none })
  | x :: t =>
    let (s, a) := descRun s src tenant x.tpa x.pa x.len (x.len / 256 + 2)
    let (s, b) := descSpans s src tenant t
    (s, { val := a.val + b.val * 256 ^ x.len, poison := match a.poison with
      | some p => some p
      | none => b.poison })

/-- A descriptor of n bytes read as the VI's tenant, through the descriptor cache (R235). -/
def descRead (s : State) (src v tpa n : Nat) : State × Desc :=
  match viSpans s src v .load (pagesOf tpa n 3) with
  | (s, .error _) => (s, .fault)
  | (s, .ok xs) =>
    let (s, g) := descSpans s src (s.viTenant v) xs
    (s, if g.poison.isSome then .poison else .ok g.val)

/-! ### The dirty log (R238) -/

/-- The bit of one page; the address of the bitmap word when the OR fails. -/
def dirtyPage (s : State) (src v page : Nat) : State × Option Nat :=
  if !s.flag (CHS_VI_DLOG.EN v) then (s, none)
  else if 2 ^ s.get (CHS_VI_DLOG.PAGESLOG2 v) ≤ page then (s.putFlag (CHS_VI_DLOG.OVER v) true, none)
  else
    let ea := s.get (CHS_VI_DLOG.BASE v) * 4096 + page / 64 * 8
    match viPhys s src v ea .fill with
    | (s, none) => (s, some ea)
    | (s, some pa) =>
      let (s, r, _) := orWord s src (s.viTenant v) pa (2 ^ (page % 64))
      (s, if r = .ok then none else some ea)

/-- The bits of every page that a write touches. An OR that fails leaves the log incomplete, which OVER says (log 28). -/
def dirtyLog (s : State) (src v tpa n : Nat) : State :=
  if n = 0 then s
  else (List.range ((tpa + n - 1) / 4096 - tpa / 4096 + 1)).foldl (fun s i =>
    match dirtyPage s src v (tpa / 4096 + i) with
    | (s, none) => s
    | (s, some _) => s.putFlag (CHS_VI_DLOG.OVER v) true) s

/-- n bytes written to a span on a VI's behalf, with its dirty-log bits; whether they were performed. -/
def viWrite (s : State) (src v tpa pa n val : Nat) (poison : Bool) : State × Bool :=
  let s := dirtyLog s src v tpa n
  let (s, r, _) := writeBytes s src (s.viTenant v) pa n val poison
  (s, r == .ok)

/-! ### Writes that an operation awaits (R216, R221) -/

/-- The requester numbers of an operation's data and of its ring entry. -/
def opWho (cell : Nat) : Nat := opBase + 2 * cell
def ringWho (cell : Nat) : Nat := opBase + 2 * cell + 1

/-- Writes of a requester that are not acknowledged yet. -/
def awaited (s : State) (who : Nat) : Bool := s.owed.any (fun o => o.who == who && o.cmp.isNone)

/-- How the first of a requester's writes that did not end well ended. -/
def wentBad (s : State) (who : Nat) : Option CmpEnd := (s.owed.find? (fun o => o.who == who && o.cmp.isSome)).bind (·.cmp)

/-- The address that a record holds for the first line of its data whose write did not end well. -/
def badTpa (s : State) (j : JRec) (line : Nat) : Nat :=
  match j.past.find? (fun x => normLine s x.pa ≤ line && line ≤ normLine s (x.pa + x.len - 1)) with
  | some x => if normLine s x.pa = line then x.tpa else x.tpa - x.pa % 256 + 256 * (line - normLine s x.pa)
  | none => 0

/-- The requester's writes are taken up. -/
def takenBack (s : State) (who : Nat) : State := { s with owed := s.owed.filter (fun o => o.who ≠ who) }

/-! ### Inbound bursts (R242, R381) -/

/-- INDATA of a burst of n bytes into a recorded tenant's memory: what the sectors hold after the write (R385). -/
def stageIndata (s : State) (src : Nat) (j : JRec) (tpa pa n val : Nat) : State :=
  let t := s.viTenant j.vi
  if s.recording ∧ s.scopeTenant t then
    let k := (pa % 64 + n + 63) / 64
    let (s, g) := readBytes s src t (pa / 64 * 64) (64 * k)
    let bs := (bytesOf g.val (64 * k)).take (pa % 64) ++ bytesOf val n ++ (bytesOf g.val (64 * k)).drop (pa % 64 + n)
    let body := [BitVec.ofNat 64 k, BitVec.ofNat 64 (crc64 0 bs), BitVec.ofNat 64 j.seq, BitVec.ofNat 64 (j.subch + j.vi * 2 ^ 16)]
    stage s rplType.INDATA 0x7F t 0 (tpa / 64 * 64) (body ++ (if s.flag RPL_CFG.DATA then wordsOf bs (8 * k) else []))
  else s

/-- In REPLAY the operations of a tenant in scope run under R390. -/
def State.replays (s : State) (tenant : Nat) : Bool := s.get RPL_STAT.STATE == 3 && s.scopeTenant tenant

/-- The wheel source of the RPL block's accesses, which are tenant 0x000's. -/
def rplSrc : Nat := 48

/-- The hold area of a replay (R390). -/
def holdBase (s : State) : Nat := s.get RPL_HOLD.BASE * 4096
def holdSize (s : State) : Nat := 2 ^ s.get RPL_HOLD.SIZELOG2

/-- n bytes at an offset of the hold area meet its end or a burst there. -/
def holdTaken (s : State) (n off : Nat) : Bool :=
  decide (holdSize s < off + n) || s.rpl.held.any (fun x => decide (off < x.off + x.len) && decide (x.off < off + n))

/-- A burst put into the hold area, at its start or behind a burst held there; one that finds no room there or cannot be written
is not held (DESIGN CHOICE, log 47). -/
def holdBurst (s : State) (v tpa n val : Nat) (poison : Bool) : State :=
  match (0 :: s.rpl.held.map (fun x => x.off + x.len)).find? (fun o => !holdTaken s n o) with
  | none => s
  | some o =>
    let (s, r, _) := writeBytes s rplSrc 0 (holdBase s + o) n val poison
    if r = .ok then { s with rpl := { s.rpl with held := s.rpl.held ++ [{ vi := v, tpa := tpa, len := n, off := o }] } } else s

/-- Data of an operation written to its memory, or held for the recorded time (R390). `bad` is the offset of a byte whose sector fails
its check at the handover to memory (R203). -/
def dmaIn (s : State) (cell : Nat) (j : JRec) (tpa pa n val : Nat) (poison : Bool) (bad : Option Nat) : State × Bool :=
  let t := s.viTenant j.vi
  let src := dmaSrc (opQuad s j)
  if s.replays t then (holdBurst s j.vi tpa n val poison, true)
  else
    let (s, r, _) := writeBytesFor (opWho cell) (dirtyLog s src j.vi tpa n) src t pa n val poison bad
    let s := s.account t led.DMA_IN_BYTES n
    (stageIndata s src j tpa pa n val, r == .ok)

/-! ### Completion records (R220, R221) -/

/-- Words 0 to 7 of the completion record. -/
def completionRecord (j : JRec) : List Word :=
  [BitVec.ofNat 64 (j.status + boolNat j.lenx * 2 ^ 8 + j.subch * 2 ^ 16 + j.tag * 2 ^ 32),
    BitVec.ofNat 64 (j.seq + j.prio * 2 ^ 48), BitVec.ofNat 64 j.orb, BitVec.ofNat 64 j.endCcw,
    BitVec.ofNat 64 (j.resid % 2 ^ 32 + min j.moved (2 ^ 32 - 1) * 2 ^ 32), BitVec.ofNat 64 j.dstat.toNat,
    BitVec.ofNat 64 j.faddr, BitVec.ofNat 64 (boolNat j.phase * 2 ^ 63)]

/-- Entries of a VI's ring. -/
def ringSize (s : State) (v : Nat) : Nat := 2 ^ (s.get (CHS_VI_RING.SIZE v) + 6)

/-- The tenant-physical address of a ring slot. -/
def ringAddr (s : State) (v slot : Nat) : Nat := s.get (CHS_VI_RING.BASE v) * 4096 + 64 * slot

/-- POSTED records of a VI that have no slot yet. -/
def unslotted (s : State) (v : Nat) : List Nat :=
  (s.postedOf v).filter (fun c => match s.op? c with
    | some j => j.slot.isNone
    | none => false)

/-- The slot that the next record to become POSTED will take, and its PHASE. -/
def nextSlot (s : State) (v : Nat) : Nat × Bool :=
  let n := s.get (VI_CQHEAD.HEAD v) + (unslotted s v).length
  (n % ringSize s v, (mget s.chs.laps v 1 + n / ringSize s v) % 2 == 1)

/-- The completion record is complete in its cell (R216). -/
def post (s : State) (cell : Nat) (j : JRec) : State :=
  let (slot, phase) := nextSlot s j.vi
  let t := s.viTenant j.vi
  let s := if s.scopeTenant t then
      stage s rplType.COMPLETION (if j.notify then j.ncord else 0x7F) t 0 (ringAddr s j.vi slot) (completionRecord { j with phase := phase })
    else s
  let s := s.setOp cell { j with state := .posted, dev := .none, shut := none, half := false, wrote := false }
  (s.setPosted j.vi (s.postedOf j.vi ++ [cell])).account t led.OPS_DONE 1

/-! ### The end of an operation (R216) -/

/-- Where the data of a command stopped: the CCW and its COUNT less what it moved. -/
def runEnd : List RunCcw → Nat → Option (RunCcw × Nat)
  | [], _ => none
  | [x], left => some (x, x.count - left)
  | x :: t, left => if left < x.count then some (x, x.count - left) else runEnd t (left - x.count)

/-- The command at hand is over: where the program stands, what the CCW left unmoved, and the bytes moved in all. -/
def closeRun (j : JRec) : JRec :=
  match runEnd j.run j.got with
  | some (x, r) => { j with endCcw := x.addr, resid := r, moved := j.moved + (j.got - j.skip), past := if j.cmd = 0x11 then j.past else j.past ++ j.spans, run := [], spans := [], got := 0, skip := 0, cmds := 0,
                             stale := false }
  | none => j

/-- A sense record: words 0 to 7 (R212). -/
def senseRec (code : Nat) (dstat : BitVec 16) (rest : List Word) : List Word :=
  Config.senseWord code dstat.toNat :: (rest ++ List.replicate 7 0).take 7

/-- From ACCEPTED every end is POSTED at once, from DISPATCHED those of R216; `job` says that an XFORM job failed. Every other end goes
through ENDING, which a DISPATCHED record reaches through ACTIVE within the one command (DESIGN CHOICE, log 45). -/
def straight (j : JRec) (code : Nat) (job : Bool) : Bool :=
  match j.state with
  | .accepted => true
  | .dispatched => job || [cst.BAD_PROGRAM, cst.POISON, cst.DARK, cst.PATH_LOST, cst.SUSPENDED, cst.TIMEOUT, cst.DEVICE_LOST].contains code
  | _ => false

/-- A Shuttle lets go of an operation. -/
def shutDrop (s : State) (cell : Nat) : State :=
  { s with chs := { s.chs with shuts := s.chs.shuts.map (fun (e : Nat × Shut) =>
    if e.2.cell = some cell then (e.1, { e.2 with cell := none }) else e) } }

/-- An operation's final status is known; words 1 to 7 of the subchannel's sense record come with a failure. -/
def endOpWith (s : State) (cell : Nat) (j : JRec) (code faddr : Nat) (job : Bool) (sense : List Word) : State :=
  let k : JRec := { closeRun j with status := code, faddr := faddr, dev := .ended, goal := none }
  let s := shutDrop s cell
  let s := if code = cst.OK then s
    else s.setScb j.subch { s.scb j.subch with sense := senseRec code j.dstat sense }
  if straight j code job then post s cell k else s.setOp cell { k with state := .ending }

/-- An end whose sense record holds nothing of a device. -/
def endOp (s : State) (cell : Nat) (j : JRec) (code faddr : Nat) (job : Bool) : State :=
  endOpWith s cell j code faddr job []

/-- An operation that is still open ends with a status that has no address. -/
def endIfOpen (s : State) (cell code : Nat) : State :=
  match s.op? cell with
  | some j => if opOpen j then endOp s cell j code 0 false else s
  | none => s

/-- A record put in its place by age. -/
def byAge (e : Nat × JRec) : List (Nat × JRec) → List (Nat × JRec)
  | [] => [e]
  | x :: t => if e.2.age ≤ x.2.age then e :: x :: t else x :: byAge e t

/-- Every operation with a property, in order of acceptance. -/
def opsWith (s : State) (p : JRec → Bool) : List Nat :=
  ((s.chs.cells.filter (fun e => p e.2)).foldr byAge []).map (·.1)

/-! ### States of a subchannel (R219) -/

/-- HALTED: its ACCEPTED operations complete CHANNEL_HALT. -/
def haltSub (s : State) (x : Nat) : State :=
  let s := s.setScb x { s.scb x with state := sub.HALTED }
  (opsWith s (fun j => j.subch == x && j.state == .accepted)).foldl (fun s c => endIfOpen s c cst.CHANNEL_HALT) s

/-- CHANNEL_HALT under R201: the subchannel halts for an operation. -/
def channelHalt (s : State) (cell : Nat) (j : JRec) : State :=
  let s := endOp s cell j cst.CHANNEL_HALT 0 false
  let b := s.scb j.subch
  if b.state = sub.BOUND then haltSub (s.setScb j.subch { b with haltSeq := j.seq }) j.subch else s

/-- Poisoned data met by an operation at a tenant-physical address (R201). -/
def poisonOp (s : State) (cell : Nat) (j : JRec) (faddr : Nat) : State :=
  if s.poisonPolicy then endOp s cell j cst.POISON faddr false else channelHalt s cell j

/-- LOST: the open operations complete with a status. -/
def loseSub (s : State) (x code : Nat) : State :=
  let b := s.scb x
  if b.state = sub.FREE then s
  else
    let s := s.setScb x { b with state := sub.LOST }
    (opsWith s (fun j => j.subch == x && opOpen j)).foldl (fun s c => endIfOpen s c code) s

/-- The subchannels bound to a port. -/
def subsOf (s : State) (p : Nat) : List Nat :=
  (s.chs.scbs.filter (fun e => e.2.state ≠ sub.FREE && e.2.port == p)).map (·.1)

/-- Every subchannel of a port is LOST. -/
def losePort (s : State) (p code : Nat) : State := (subsOf s p).foldl (fun s x => loseSub s x code) s

/-! ### Retirement (R216) -/

/-- A disabled port with no open operation releases its link (R241). -/
def portIdle (s : State) (p : Nat) : State :=
  if s.flag (CHP_CTL.DISABLE p) ∧ (subsOf s p).all (fun x => (s.scb x).opened == 0) ∧ s.get (CHP_STAT.LINK p) ≠ 0 then
    let s := ((s.put (CHP_STAT.LINK p) 0).put (CHP_STAT.WIDTH p) 0).putFlag (CHP_STAT.DEAD p) true
    let s := s.modPort p (fun x => { x with releasing := true, leftUp := none })
    if weftMode s p then newFlit s p 2 [2] else s
  else s

/-- Both cells of a record are free again. -/
def freeOp (s : State) (cell : Nat) (j : JRec) : State :=
  let s := { s with chs := { s.chs with cells := mdel s.chs.cells cell } }
  let s := s.setPosted j.vi ((s.postedOf j.vi).erase cell)
  let b := s.scb j.subch
  let s := s.setScb j.subch { b with opened := b.opened - 1 }
  portIdle (poolUpdate (s.put (CHS_VI_CFG.QUEUED j.vi) (s.get (CHS_VI_CFG.QUEUED j.vi) - 1))) b.port

/-! ### Poisoned cells (R227, R228) -/

/-- Both cells of an operation are poisoned: it is reported and gone. -/
def poolLost (s : State) (cell : Nat) (j : JRec) : State :=
  let s := if s.flag CHS_POOLERR.VALID then s.putFlag CHS_POOLERR.OVERFLOW true
    else
      let s := ((s.put CHS_POOLERR.CELL cell).put CHS_POOLERR.VI j.vi).putFlag CHS_POOLERR.BOTH true
      (s.put CHS_POOLERR.PAIR j.comp).putFlag CHS_POOLERR.VALID true
  let s := { s with chs := { s.chs with poisonCells := (s.chs.poisonCells.erase cell).erase j.comp } }
  raise (shutDrop (freeOp s cell j) cell) src.pool .UC

/-- A poisoned word met in a record's cells: the operation ends POISON, or is lost when both are poisoned. -/
def poolCheck (s : State) (cell : Nat) (j : JRec) : Option State :=
  let a := s.chs.poisonCells.contains cell
  let b := s.chs.poisonCells.contains j.comp
  if a ∧ b then some (poolLost s cell j)
  else if a ∨ b then
    let bad := if a then cell else j.comp
    let s := if s.flag CHS_POOLERR.VALID then s.putFlag CHS_POOLERR.OVERFLOW true
      else ((s.put CHS_POOLERR.CELL bad).put CHS_POOLERR.VI j.vi).putFlag CHS_POOLERR.VALID true
    let s := { s with chs := { s.chs with poisonCells := s.chs.poisonCells.erase bad } }
    some (if opOpen j then endOp s cell j cst.POISON 0 false else s.setOp cell { j with status := cst.POISON, faddr := 0 })
  else none

end Sys2Proof.Machine
end

