-- ==== Sys2Proof/Machine/Ccw.lean ====
section
/-! DEFINITION. Channel programs: CCWs, their data, the commands they become on NVMe and Weft ports, and how a command ends (R211 to
R214, R230, R231, R234, R258 to R261, R274). -/

namespace Sys2Proof.Machine

/-! ### CCWs (R211) -/

def ccw.READ : Nat := 0x10
def ccw.WRITE : Nat := 0x11
def ccw.CONTROL : Nat := 0x12
def ccw.SENSE : Nat := 0x13
def ccw.NOP : Nat := 0x1E
def ccw.JUMP : Nat := 0x1F

/-- A CCW with its address; `rz` says that a reserved-zero field is non-zero. -/
structure Ccw where
  at_ : Nat
  cmd : Nat
  md : Nat
  chd : Bool
  chc : Bool
  supl : Bool
  dlist : Bool
  count : Nat
  addr : Nat
  rz : Bool
  deriving DecidableEq, Repr

/-- The fields of the 16 bytes of a CCW. -/
def ccwOf (a v : Nat) : Ccw :=
  { at_ := a, cmd := bits v 0 8, md := bits v 16 16, chd := bitAt v 12, chc := bitAt v 13, supl := bitAt v 14, dlist := bitAt v 15
    count := bits v 32 32, addr := bits v 64 52, rz := bits v 8 4 ≠ 0 || bits v 116 12 ≠ 0 }

/-- A CCW that no rule of R214 refuses by itself; a JUMP's other fields are ignored (R212). -/
def ccwGood (c : Ccw) : Bool :=
  c.cmd == ccw.JUMP
    || ([ccw.READ, ccw.WRITE, ccw.CONTROL, ccw.SENSE, ccw.NOP].contains c.cmd && !c.rz && !(c.chd && c.chc)
        && (c.cmd == ccw.CONTROL || c.md == 0))

/-- A CCW as a completion record names it: one that could not be read counts 0 bytes (R220; log 45). -/
def Ccw.ran (c : Ccw) : RunCcw := { addr := c.at_, count := c.count, supl := c.supl }
def unreadCcw (a : Nat) : RunCcw := { addr := a, count := 0, supl := true }

/-- How the reading of a program's parts ends: BAD_PROGRAM and poison carry their address and the CCW at which the program ends. -/
inductive Prog (α : Type) where
  | ok (x : α)
  | bad (faddr : Nat) (c : Option RunCcw)
  | poison (faddr : Nat) (c : Option RunCcw)
  deriving DecidableEq, Repr

/-- The CCW at an address, the n-th of its operation from 0 (R214). -/
def ccwAt (s : State) (src v a n : Nat) : State × Prog Ccw :=
  if 4096 ≤ n ∨ a % 16 ≠ 0 then (s, .bad a (some (unreadCcw a)))
  else
    match descRead s src v a 16 with
    | (s, .fault) => (s, .bad a (some (unreadCcw a)))
    | (s, .poison) => (s, .poison a (some (unreadCcw a)))
    | (s, .ok x) => if ccwGood (ccwOf a x) then (s, .ok (ccwOf a x)) else (s, .bad a (some (ccwOf a x).ran))

/-- The next CCW that is no JUMP, at an address or where a JUMP there points, with the count of CCWs executed (R212). -/
def ccwNext (s : State) (src v a n : Nat) : State × Prog (Ccw × Nat) :=
  match ccwAt s src v a n with
  | (s, .bad f c) => (s, .bad f c)
  | (s, .poison f c) => (s, .poison f c)
  | (s, .ok c) =>
    if c.cmd ≠ ccw.JUMP then (s, .ok (c, n + 1))
    else
      match ccwAt s src v c.addr (n + 1) with
      | (s, .bad f c) => (s, .bad f c)
      | (s, .poison f c) => (s, .poison f c)
      | (s, .ok d) => if d.cmd = ccw.JUMP then (s, .bad d.at_ (some d.ran)) else (s, .ok (d, n + 2))

/-- The CCWs of a command: a CCW and those that continue its data (R211); `n` CCWs have been executed. -/
def ccwRun (s : State) (src v : Nat) (c : Ccw) (n : Nat) : Nat → State × Prog (List Ccw × Nat)
  | 0 => (s, .bad c.at_ (some c.ran))
  | f + 1 =>
    if !c.chd then (s, .ok ([c], n))
    else
      match ccwNext s src v (c.at_ + 16) n with
      | (s, .bad a x) => (s, .bad a x)
      | (s, .poison a x) => (s, .poison a x)
      | (s, .ok (d, m)) =>
        match ccwRun s src v d m f with
        | (s, .ok (t, k)) => (s, .ok (c :: t, k))
        | (s, .bad a x) => (s, .bad a x)
        | (s, .poison a x) => (s, .poison a x)

/-- The first command of a program that reads from or writes to the device is a WRITE (R274). -/
def writesFirst (s : State) (src v a n : Nat) : Nat → State × Bool
  | 0 => (s, false)
  | f + 1 =>
    match ccwNext s src v a n with
    | (s, .ok (c, m)) =>
      if c.cmd = ccw.WRITE then (s, true)
      else if c.cmd = ccw.READ then (s, false)
      else if c.chc ∨ c.chd then writesFirst s src v (c.at_ + 16) m f
      else (s, false)
    | (s, _) => (s, false)

/-! ### Data of a command (R213) -/

/-- Pieces of a data-address list, entry i on, for n bytes. -/
def listPieces (s : State) (src v a i n : Nat) : Nat → State × Prog (List (Nat × Nat))
  | 0 => (s, .ok [])
  | f + 1 =>
    if n = 0 then (s, .ok [])
    else
      match descRead s src v (a + 8 * i) 8 with
      | (s, .fault) => (s, .bad (a + 8 * i) none)
      | (s, .poison) => (s, .poison (a + 8 * i) none)
      | (s, .ok e) =>
        if i ≠ 0 ∧ e % 4096 ≠ 0 then (s, .bad e none)
        else
          let k := min n (4096 - e % 4096)
          match listPieces s src v a (i + 1) (n - k) f with
          | (s, .ok t) => (s, .ok ((e, k) :: t))
          | (s, .bad x _) => (s, .bad x none)
          | (s, .poison x _) => (s, .poison x none)

/-- The pieces of a CCW's data. -/
def ccwPieces (s : State) (src v : Nat) (c : Ccw) : State × Prog (List (Nat × Nat)) :=
  if !c.dlist then (s, .ok (pagesOf c.addr c.count (c.count / 4096 + 2)))
  else if c.addr % 8 ≠ 0 then (s, .bad c.addr none)
  else listPieces s src v c.addr 0 c.count (c.count / 4096 + 2)

/-- The spans of a command's CCWs in order; a failure names its CCW. -/
def layout (s : State) (src v : Nat) (a : Ccw → Acc1) : List Ccw → State × Except (Prog Unit) (List Span)
  | [] => (s, .ok [])
  | c :: t =>
    match ccwPieces s src v c with
    | (s, .bad f _) => (s, .error (.bad f (some c.ran)))
    | (s, .poison f _) => (s, .error (.poison f (some c.ran)))
    | (s, .ok ps) =>
      match viSpans s src v (a c) ps with
      | (s, .error f) => (s, .error (.bad f (some c.ran)))
      | (s, .ok xs) =>
        match layout s src v a t with
        | (s, .ok ys) => (s, .ok (xs ++ ys))
        | (s, .error e) => (s, .error e)

/-- The first n bytes of a list of spans, and the rest. -/
def cutSpans (n : Nat) : List Span → List Span × List Span
  | [] => ([], [])
  | x :: t =>
    if n = 0 then ([], x :: t)
    else if x.len ≤ n then
      let (a, b) := cutSpans (n - x.len) t
      (x :: a, b)
    else ([{ x with len := n }], { pa := x.pa + n, tpa := x.tpa + n, len := x.len - n } :: t)

/-- A part of a list of spans: n bytes from offset o. -/
def spanSlice (xs : List Span) (o n : Nat) : List Span := (cutSpans n (cutSpans o xs).2).1

def spansLen (xs : List Span) : Nat := (xs.map Span.len).sum

/-- Bytes written to spans in order, as channel DMA; the first address that failed. `bad` as in `dmaIn`. -/
def spansIn (s : State) (cell : Nat) (j : JRec) (poison : Bool) (bad : Option Nat) : List Span → Nat → State × Option Nat
  | [], _ => (s, none)
  | x :: t, val =>
    let (s, ok) := dmaIn s cell j x.tpa x.pa x.len (val % 256 ^ x.len) poison bad
    let rest := bad.bind (fun o => if o < x.len then none else some (o - x.len))
    let (s, e) := spansIn s cell j poison rest t (val / 256 ^ x.len)
    (s, if ok then e else some x.tpa)

/-! ### When a Shuttle works (R231) -/

/-- The last beat of a run of beats that one tenant owns on a table. -/
def lastOfRun (s : State) (t : Nat) : Bool :=
  62 ≤ s.beat || s.beatOwner t s.beat != s.beatOwner t (s.beat + 1)

/-- From rclk 190 of the last beat of a run a Shuttle starts no work in closed weave. -/
def beatClosing (s : State) (t : Nat) : Bool := s.closedWeave && lastOfRun s t && 190 ≤ s.since % 200

/-- A Shuttle may work for a tenant of a port's quad now. -/
def shutMay (s : State) (n p tenant : Nat) : Bool :=
  s.get (CHS_SHUT.STATE n) == shutst.RUNNING && s.domOn (dom.cluster n) && !(s.shut n).saved && s.mayIssue (table.dma p) tenant
    && !beatClosing s (table.dma p)

/-! ### XFORM jobs (R274) -/

/-- An operation's job waits for an engine, or runs or stands suspended there. -/
def xformBusy (s : State) (cell : Nat) : Bool :=
  s.eng.engs.any (fun e => e.2.xforms.contains cell
    || (match e.2.job with
      | some x => x.cell == some cell
      | none => false)
    || e.2.susp.any (fun x => x.2.cell == some cell))

/-- An operation's job handed to the engine that word 0 of its descriptor names; the domain is woken (R346). -/
def xformStart (s : State) (cell : Nat) (j : JRec) : State :=
  match descRead s (dmaSrc (opQuad s j)) j.vi j.xjob 128 with
  | (s, .fault) => endOp s cell j cst.BAD_PROGRAM j.xjob true
  | (s, .poison) => poisonOp s cell j j.xjob
  | (s, .ok x) =>
    let e := bits x 0 3
    let g := s.engAt e
    doorbell { s with eng := { s.eng with engs := mput s.eng.engs e { g with xforms := g.xforms ++ [cell] } Eng.zero } } (dom.engine e)

/-! ### The end of a command (R212, R222) -/

/-- A program has ended without error; an XFORM job that has not run yet runs now (R274). -/
def progEnd (s : State) (cell : Nat) (j : JRec) : State :=
  if j.xform ∧ !j.xdone then
    let k : JRec := { closeRun j with state := .ending, dev := .ended, goal := none }
    xformStart (shutDrop (s.setOp cell k) cell) cell k
  else endOp s cell j cst.OK 0 false

/-- A command has ended without error: the failure met on the way, a wrong length, the next command, or the end of the program. `sense`
is what the device said with it (R212, R260). -/
def cmdDone (s : State) (cell : Nat) (j : JRec) (sense : List Word) : State :=
  let total := (j.run.map RunCcw.count).sum
  let supl : Bool := match runEnd j.run j.got with
    | some (x, _) => x.supl
    | none => true
  if j.status ≠ cst.OK then endOpWith s cell j j.status j.faddr false sense
  else if j.got ≠ total ∧ !supl then endOpWith s cell { j with lenx := true } cst.DATA_CHECK 0 false sense
  else
    match j.goal with
    | some code =>
      if j.more ∨ code = cst.DATA_CHECK then endOpWith s cell j code j.faddr false sense else progEnd s cell j
    | none =>
      if j.more then
        let next := match j.run.getLast? with
          | some x => x.addr + 16
          | none => j.ccw
        s.setOp cell { closeRun j with ccw := next, ccwno := if j.dev = .none then j.ccwno else j.ccwno + 1, dev := .none }
      else progEnd s cell j

/-! ### Aborts (R218, R261) -/

/-- A frame of an operation (R254). -/
def opFrame (s : State) (j : JRec) (typ len count : Nat) (payload : List Byte) : Frame :=
  let b := s.scb j.subch
  { frameOf s typ j.seq len count payload with
    session := b.target % 2 ^ 16, subch := j.subch, device := b.target / 2 ^ 16 % 2 ^ 16, ccwno := j.ccwno }

/-- The command of an operation is aborted; it ends with `code` once the device confirms, or now when no command is at the
device. -/
def abortOp (s : State) (cell : Nat) (j : JRec) (code faddr : Nat) : State :=
  let p := opPort s j
  match j.dev with
  | .sent =>
    let j : JRec := { j with dev := .aborting, goal := some code, faddr := faddr, mark := s.time.now }
    let s := s.setOp cell j
    if weftMode s p then weftSend s p (s.viTenant j.vi + 1) { opFrame s j ft.ABORT 0 0 [] with ccwno := 0 }
    else s.send (.nvmeAbort p cell)
  | .aborting => s
  | _ => endOp s cell j code faddr false

/-! ### NVMe commands (R234, R266) -/

/-- NVMe opcodes of the messages to a controller; an admin command stands as 0x100 with its 64 bytes. -/
def nvm.FLUSH : Nat := 0x00
def nvm.WRITE : Nat := 0x01
def nvm.READ : Nat := 0x02
def nvm.DSM : Nat := 0x09
def nvm.ADMIN : Nat := 0x100

/-- A command given to the controller behind a PCIe port; the operation is ACTIVE. -/
def nvmeSend (s : State) (cell : Nat) (j : JRec) (op lba blocks : Nat) : State :=
  (s.setOp cell { j with state := .active, dev := .sent, cmds := 1 }).send (.nvme (opPort s j) cell op lba blocks)

/-- A transfer cut into commands of at most `most` blocks, 0 for no limit (R234). -/
def nvmeParts (lba blocks most : Nat) : List (Nat × Nat) :=
  if most = 0 then [(lba, blocks)]
  else (List.range ((blocks + most - 1) / most)).map (fun i => (lba + i * most, min most (blocks - i * most)))

/-- A Read or Write given to the controller, in as many commands as its MDTS asks for. -/
def nvmeMove (s : State) (cell : Nat) (j : JRec) (op lba blocks : Nat) : State :=
  let ps := nvmeParts lba blocks (s.scb j.subch).mdts
  ps.foldl (fun s (x : Nat × Nat) => s.send (.nvme (opPort s j) cell op x.1 x.2))
    (s.setOp cell { j with state := .active, dev := .sent, cmds := ps.length })

/-- The 8 or 64 bytes of a CONTROL's own data, or how its reading fails. -/
def ctlData (s : State) (src : Nat) (j : JRec) (n : Nat) : State × Prog Nat :=
  match spansRead s src (s.viTenant j.vi) (spanSlice j.spans 0 n) with
  | (s, g) =>
    match g.poison with
    | some f => (s, .poison f none)
    | none => (s, .ok g.val)

/-- A command whose data lie in memory, run against an NVMe controller; `first` is its first CCW. While the link is not UP a
command waits, and the state before is kept. -/
def runNvme (old s : State) (cell src : Nat) (j : JRec) (first : Ccw) (total : Nat) : State :=
  let b := s.scb j.subch
  let up := linkUp s (opPort s j)
  let bad : State := endOp s cell j cst.BAD_PROGRAM first.at_ false
  if j.cmd = ccw.READ ∨ j.cmd = ccw.WRITE then
    if b.kind ≠ 0 ∨ total = 0 ∨ total % 2 ^ b.blk ≠ 0 then bad
    else if !up then old
    else
      let n := total / 2 ^ b.blk
      nvmeMove s cell { j with lba := j.lba + n } (if j.cmd = ccw.READ then nvm.READ else nvm.WRITE) j.lba n
  else if j.md = 1 ∧ total = 8 then
    match ctlData s src j 8 with
    | (s, .ok v) => cmdDone s cell { j with lba := v, got := 8, skip := 8 } []
    | (s, .poison f _) => poisonOp s cell j f
    | (s, .bad f _) => endOp s cell j cst.BAD_PROGRAM f false
  else if j.md = 2 ∧ total = 0 then (if up then nvmeSend s cell j nvm.FLUSH 0 0 else old)
  else if j.md = 3 ∧ total = 8 then
    if !up then old
    else
      match ctlData s src j 8 with
      | (s, .ok v) => nvmeSend s cell { j with skip := 8 } nvm.DSM j.lba v
      | (s, .poison f _) => poisonOp s cell j f
      | (s, .bad f _) => endOp s cell j cst.BAD_PROGRAM f false
  else if j.md = 0xFF ∧ b.kind = 1 ∧ first.count = 64 then
    if !up then old
    else
      match ctlData s src j 64 with
      | (s, .ok v) => nvmeSend s cell { j with spans := (cutSpans 64 j.spans).2, skip := 64 } nvm.ADMIN v 0
      | (s, .poison f _) => poisonOp s cell j f
      | (s, .bad f _) => endOp s cell j cst.BAD_PROGRAM f false
  else bad

/-! ### Weft commands (R258, R259) -/

/-- An older operation of the subchannel that the one of SEQ `q` must not run ahead of (R259). -/
def olderThan (q o : Nat) : Bool :=
  let d := (q + (2 ^ 48 - 1) - o) % (2 ^ 48 - 1)
  4096 ≤ d && d < 2 ^ 47

/-- An older operation of the subchannel has not cleared (R259). -/
def windowShut (s : State) (j : JRec) : Bool :=
  s.chs.cells.any (fun e => e.2.subch == j.subch && olderThan j.seq e.2.seq)
    || s.chs.retired.any (fun e => e.1 == j.subch && olderThan j.seq e.2.1)

/-- An operation of a mirrored journal that a twin has not sent again yet (R259, R332). -/
def toResend (j : JRec) : Bool :=
  j.mirrored && (j.state == .accepted || j.state == .dispatched || j.state == .active) && j.dev == .none && j.ccwno == 0 && j.goal.isNone

/-- A twin sends each subchannel's operations of a journal again in ascending SEQ (R259). -/
def resendAhead (s : State) (j : JRec) : Bool :=
  s.spl.loaded.isSome && toResend j && s.chs.cells.any (fun e => e.2.subch == j.subch && toResend e.2
    && (let d := (j.seq + (2 ^ 48 - 1) - e.2.seq) % (2 ^ 48 - 1); decide (0 < d ∧ d < 2 ^ 47)))

/-- The session of a Weft subchannel has been accepted (R256). -/
def sessionOpen (s : State) (p target : Nat) : Bool := mget (s.port p).sessions (target % 2 ^ 16) 0 == 2

/-- The command at hand may be sent: link, session and window. -/
def weftReady (s : State) (j : JRec) : Bool :=
  linkUp s (opPort s j) && sessionOpen s (opPort s j) (s.scb j.subch).target && !(j.ccwno == 0 && (windowShut s j || resendAhead s j))

/-- The CMD frame of the command at hand (R258). -/
def sendCmd (s : State) (j : JRec) : State :=
  weftSend s (opPort s j) (s.viTenant j.vi + 1)
    { opFrame s j ft.CMD 0 ((j.run.map RunCcw.count).sum) [] with cmd := j.cmd, md := j.md }

/-- An operation has no more data to send at a port. -/
def outDone (s : State) (p cell : Nat) : State := s.modPort p (fun x => { x with outs := x.outs.erase cell })

/-- The next burst of a WRITE or CONTROL read from memory and sent as a DATA_OUT frame, the CMD before the first (R242, R258). Poisoned
data under TRAP/HALT sends nothing more (R201); data whose check fails on the way to the port go as a poisoned frame (R203). -/
def outBurst (s : State) (p cell n : Nat) (j : JRec) : State :=
  let t := s.viTenant j.vi
  let (s, g) := spansRead s (dmaSrc (p / 4)) t (spanSlice j.spans j.got n)
  if g.poison.isSome ∧ !s.poisonPolicy then channelHalt (outDone s p cell) cell j
  else
    let s := burstTaken s p t n false
    let s := if j.dev = .reading then sendCmd s j else s
    let total := (j.run.map RunCcw.count).sum
    let f : Frame := { opFrame s j ft.DATA_OUT n j.got (bytesOf g.val n) with
      poison := g.poison.isSome || (s.port p).badOut, last := j.got + n == total }
    let s := weftSend (s.modPort p (fun x => { x with badOut := false })) p (t + 1) f
    let k : JRec := { j with state := .active, dev := .sent, got := j.got + n
                             status := if g.poison.isSome then cst.POISON else j.status, faddr := g.poison.getD j.faddr }
    let s := (s.setOp cell k).account t led.DMA_OUT_BYTES n
    if k.got = total then outDone s p cell else s

/-- The next burst of an operation at a port, when it may start; an operation that is over sends none. -/
def outStep (s : State) (p cell : Nat) : State :=
  match s.op? cell with
  | none => outDone s p cell
  | some j =>
    let left := (j.run.map RunCcw.count).sum - j.got
    if (j.dev ≠ .reading ∧ j.dev ≠ .sent) ∨ opPort s j ≠ p ∨ left = 0 then outDone s p cell
    else if !linkUp s p ∨ !burstMay s p (s.viTenant j.vi) (min 4096 left) false then s
    else outBurst s p cell (min 4096 left) j

/-- The operation whose burst is next at a port: the oldest that a Shuttle runs and whose tenant may have one now. -/
def nextOut (s : State) (p : Nat) : Option Nat :=
  (s.port p).outs.find? (fun c => match s.op? c with
    | some j => !opOpen j || (j.shut.isSome && s.mayIssue (table.dma p) (s.viTenant j.vi))
    | none => true)

/-- The next outward burst of a quad, the ports in rotation (R242). -/
def quadOut (s : State) (q : Nat) : State :=
  match (burstTurn q (s.injAt q).outLast).findSome? (fun p => (nextOut s p).map (fun c => (p, c))) with
  | some (p, c) => orWait (fun s => outStep s p c) s
  | none => s

/-- Outward bursts of every quad. -/
def outsGo (s : State) : State := (List.range 12).foldl quadOut s

/-- The command at hand sent to a control unit: a CMD frame at once, or with the first burst of its data (R258). -/
def weftCmd (s : State) (cell : Nat) (j : JRec) : State :=
  let p := opPort s j
  let outs : Bool := (j.cmd == ccw.WRITE || j.cmd == ccw.CONTROL) && (j.run.map RunCcw.count).sum != 0
  if outs then
    let s := s.setOp cell { j with dev := .reading, got := 0 }
    quadOut (s.modPort p (fun x => { x with outs := x.outs.erase cell ++ [cell] })) (p / 4)
  else sendCmd (s.setOp cell { j with state := .active, dev := .sent, got := 0 }) j

/-! ### One CCW (R212) -/

/-- SENSE: the subchannel's record goes to memory (R212). -/
def runSense (s : State) (cell : Nat) (j : JRec) (total : Nat) : State :=
  let n := min total 64
  let rec_ := ((s.scb j.subch).sense ++ List.replicate 8 0).take 8
  match spansIn s cell j false none (spanSlice j.spans 0 n) (ofBytes ((bytesOfWords rec_).take n)) with
  | (s, some f) => endOp s cell j cst.BAD_PROGRAM f false
  | (s, none) =>
    let j : JRec := { j with got := n }
    if total ≠ 64 ∧ !j.run.all (·.supl) then endOp s cell { j with lenx := true } cst.DATA_CHECK 0 false else cmdDone s cell j []

/-- What a command needs of its data. -/
def accOf (j : JRec) (admin : Bool) (c : Ccw) : Acc1 :=
  if j.cmd = ccw.READ ∨ j.cmd = ccw.SENSE then .store
  else if admin ∧ c.at_ ≠ j.ccw then .fill
  else .load

/-- A failure of a part of the program at its CCW, which has moved nothing. -/
def progFail (s : State) (cell : Nat) (j : JRec) : Prog Unit → State
  | .ok _ => s
  | .bad f c => endOp s cell { j with run := c.toList, got := 0 } cst.BAD_PROGRAM f false
  | .poison f c => poisonOp s cell { j with run := c.toList, got := 0 } f

/-- A command of a program: its CCWs gathered, its data laid out, and what it does. -/
def runCmd (old s : State) (cell src : Nat) (j : JRec) (c : Ccw) : State :=
  match ccwRun s src j.vi c (j.ccwCount + 1) 4097 with
  | (s, .bad f x) => progFail s cell j (.bad f x)
  | (s, .poison f x) => progFail s cell j (.poison f x)
  | (s, .ok (cs, n)) =>
    let weft := weftMode s (opPort s j)
    let total := (cs.map Ccw.count).sum
    let more : Bool := match cs.getLast? with
      | some d => d.chc
      | none => false
    let j : JRec := { j with ccw := c.at_, cmd := c.cmd, md := c.md, more := more, ccwCount := n, afterJump := false, got := 0, skip := 0 }
    let run := cs.map Ccw.ran
    if c.cmd = ccw.NOP then cmdDone s cell { j with run := run.map (fun x => { x with supl := true }) } []
    else
      match layout s src j.vi (accOf j (!weft && (s.scb j.subch).kind == 1)) cs with
      | (s, .error e) => progFail s cell j e
      | (s, .ok xs) =>
        let j : JRec := { j with run := run, spans := xs }
        if c.cmd = ccw.SENSE then runSense s cell j total
        else if weft then (if weftReady s j then weftCmd s cell j else old)
        else runNvme old s cell src j c total

/-- An operation whose Shuttle can go on with its program. -/
def opCanRun (s : State) (cell : Nat) (j : JRec) : Bool :=
  (j.state == .dispatched || j.state == .active) && j.dev == .none && j.run == [] && j.goal.isNone && !xformBusy s cell
    && (match j.shut with
      | some n => shutMay s n (opPort s j) (s.viTenant j.vi)
      | none => false)

/-- The Shuttle's next step in a program when the CCW that stands there is of the given code. A CCW that cannot be read or that
no rule admits ends the program whatever its code. -/
def ccwStep (want cell : Nat) (s : State) : State :=
  match s.op? cell with
  | none => s
  | some j =>
    if !opCanRun s cell j then s
    else
      let src := dmaSrc (opQuad s j)
      match ccwAt s src j.vi j.ccw j.ccwCount with
      | (s1, .bad f x) => progFail s1 cell j (.bad f x)
      | (s1, .poison f x) => progFail s1 cell j (.poison f x)
      | (s1, .ok c) =>
        if c.cmd ≠ want then s
        else
          let s1 := match j.shut with
            | some n => s1.modShut n (fun x => { x with cell := some cell })
            | none => s1
          if c.cmd = ccw.JUMP then
            (if j.afterJump then progFail s1 cell j (.bad c.at_ (some c.ran))
             else s1.setOp cell { j with ccw := c.addr, afterJump := true, ccwCount := j.ccwCount + 1 })
          else runCmd s s1 cell src j c

end Sys2Proof.Machine
end

