-- ==== Sys2Proof/Machine/MemRows.lean ====
section
/-! DEFINITION. Commands of the memory controllers (R183 to R195): key slots, device marks, Fill and its SHARED regions, and
the merge buffer. -/

namespace Sys2Proof.Machine

/-! ### Key slots (R186) -/

/-- The key in MEM_KEYDATA, as a number. -/
def memKeyData (s : State) : Nat := (List.range 8).foldl (fun x j => x + s.get (MEM_KEYDATA.KEY j) * 2 ^ (64 * j)) 0

/-- A key is known by its version: odd for the key data that LOAD took, even for a key drawn by the module. -/
def loadedVer (data : Nat) : Nat := 2 * data + 1

/-- A key drawn from the internal random source into a slot. -/
def keyGen (s : State) (slot : Nat) : State :=
  { s with keys := mset s.keys slot { state := 2, ver := 2 * s.keyNext }, keyNext := s.keyNext + 1 }

/-- A write of MEM_KEYCMD: ignored while BUSY, else the slot takes its key in every controller. -/
def keyCommand (s : State) (v : Word) : State :=
  if s.flag MEM_KEYCMD.BUSY then s
  else
    let op := bits (taken s MEM_KEYCMD.off v) 10 2
    let s := hostWrite s MEM_KEYCMD.off v
    let slot := s.get MEM_KEYCMD.SLOT
    let s :=
      if op = 1 then { s with keys := mset s.keys slot { state := 1, ver := loadedVer (memKeyData s) } }
      else if op = 2 then keyGen s slot
      else if op = 3 then { s with keys := mdel s.keys slot }
      else s
    if op = 0 then s else s.putFlag MEM_KEYCMD.BUSY true

/-- KEY_LOAD (R186). -/
def execKeyLoad (v : Word) (s : State) : Host.Outcome State Fault Refusal := .next (keyCommand s v)

/-- KEY_GENERATE (R186). -/
def execKeyGenerate (v : Word) (s : State) : Host.Outcome State Fault Refusal := .next (keyCommand s v)

/-- KEY_ERASE (R186). -/
def execKeyErase (v : Word) (s : State) : Host.Outcome State Fault Refusal := .next (keyCommand s v)

/-- MEM_KEYCMD_DONE (R186): BUSY clears, and MEM_KEYDATA is zeroed. -/
def doMemKeycmdDone (s : State) : State :=
  if s.flag MEM_KEYCMD.BUSY then
    (List.range 8).foldl (fun s j => s.put (MEM_KEYDATA.KEY j) 0) (s.putFlag MEM_KEYCMD.BUSY false)
  else s

/-- MEM_KEYCMD_DONE (R186). -/
def execMemKeycmdDone (s : State) : Host.Outcome State Fault Refusal := .next (doMemKeycmdDone s)

/-! ### Refusal count, device marks, merge buffer (R183, R191, R195) -/

/-- MEM_SELV_READ (R183). -/
def execMemSelvRead (ctl : Nat) (s : State) : Host.Outcome State Fault Refusal :=
  .next (if ctl < 32 then hostRead s (MEM_SELV.off ctl) else s)

/-- DEVICE_MARK (R191): later reads decode with the mark. -/
def execDeviceMark (ctl rank : Nat) (v : Word) (s : State) : Host.Outcome State Fault Refusal :=
  .next (if ctl < 32 ∧ rank < 8 then hostWrite s (MEM_MARK.off ctl rank) v else s)

/-- MERGE_ENTRY_CLOSE (R195): the entry's read-modify-write. -/
def execMergeEntryClose (ctl sector : Nat) (s : State) : Host.Outcome State Fault Refusal :=
  .next (closeSector s ctl sector)

/-! ### Fill (R192 to R194) -/

/-- The region is SHARED and enabled. -/
def sharedRegion (s : State) (h r : Nat) : Bool := s.flag (MEM_RGN_LO.EN h r) && s.flag (MEM_RGN_LO.SHARED h r)

/-- This module holds the region's token. -/
def holdsToken (s : State) (h r : Nat) : Bool := s.get (MEM_RGN_LO.TOKEN h r) == s.mid

/-- The marker of a region (R194). -/
def markerBytes (s : State) (h r : Nat) : List Byte :=
  let b := s.get (MEM_RGN_LO.BASE h r)
  let l := s.get (MEM_RGN_HI.LIMIT h r)
  let body := bytesOf 0x4B52414D52545257 8 ++ bytesOf (Config.markerExtent b l).toNat 8 ++ bytesOf s.mid 1
    ++ List.replicate 235 0
  body ++ bytesOf (crc32c body) 4

/-- The first line of a region, as a low address. -/
def regionStart (s : State) (h r : Nat) : Nat := s.get (MEM_RGN_LO.BASE h r) * 0x200000

/-- A sector that a read delivers good, with given data. -/
def sectorReads (s : State) (h sec d : Nat) : Bool :=
  (match sectorFound s h sec with
    | .clean => true
    | .corrected _ _ => true
    | _ => false) && (sectorPlain s h sec).1 == d

/-- The region's first line, as it is read and decrypted, holds a valid marker. -/
def markerThere (s : State) (h r : Nat) : Bool :=
  let d := ofBytes (markerBytes s h r)
  (List.range 4).all (fun i => sectorReads s h (regionStart s h r / 64 + i) (d / 2 ^ (512 * i) % 2 ^ 512))

/-- The other controller of a DDR group, whose lines alternate with this one's (R180). -/
def groupMate (h : Nat) : Nat := if 16 ≤ h then h else if h % 2 = 0 then h + 1 else h - 1

/-- SHARED regions of a controller that Fill leaves as they are: another module's, and the token holder's own once
initialised; a marker that this same Fill wrote in the other half of a DDR group does not count. -/
def keptRegions (s : State) (h : Nat) : List Nat :=
  (List.range 64).filter (fun r => sharedRegion s h r
    && (!holdsToken s h r || (markerThere s h r && !(s.ctl (groupMate h)).marked.contains r)))

/-- Fill writes zero to the address. -/
def fills (s : State) (h : Nat) (kept : List Nat) (low : Nat) : Bool :=
  memHome s low == some h && (match regionOf s h low with
    | some r => !kept.contains r
    | none => true)

/-- Zero code words in every sector of a controller, SHARED regions as R193 gives, and the markers of regions that the
token holder has filled. -/
def fillMemory (s : State) (h : Nat) : State :=
  let kept := keptRegions s h
  let own := (List.range 64).filter (fun r => sharedRegion s h r && holdsToken s h r && !kept.contains r)
  let out (sec : Nat) : Bool := !fills s h kept (sec * 64)
  let m := s.mem
  let s := { s with mem := { m with
    cells := m.cells.filter (fun (e : Nat × Byte) => !fills s h kept e.1), poison := m.poison.filter (fun e => out e.1)
    seen := m.seen.filter (fun e => out e.1), errs := m.errs.filter (fun e => out e.1)
    keyVer := m.keyVer.filter (fun e => out e.1) } }
  let s := s.modCtl h (fun c => { c with marked := own ++ c.marked })
  own.foldl (fun s r =>
    let a := regionStart s h r
    let d := ofBytes (markerBytes s h r)
    if memHome s a = some h then
      (List.range 4).foldl (fun s i => writeSector s h (a / 64 + i) (d / 2 ^ (512 * i) % 2 ^ 512) false true) s
    else s) s

/-- SHARED regions of other modules whose marker has neither been seen nor been given up. -/
def regionsWaiting (s : State) (h : Nat) : List Nat :=
  (List.range 64).filter (fun r => sharedRegion s h r && !holdsToken s h r && !(s.ctl h).marked.contains r
    && !(s.ctl h).unfilled.contains r)

/-- FILL_DONE (R192). -/
def doFillDone (ctl : Nat) (s : State) : State :=
  if s.boot.stage ≠ .fill ∨ 32 ≤ ctl ∨ s.flag (MEM_FILLSTAT.DONE ctl) ∨ s.flag (MEM_FILLSTAT.UNUSED ctl)
    ∨ regionsWaiting s ctl ≠ [] then s
  else (fillMemory s ctl).putFlag (MEM_FILLSTAT.DONE ctl) true

/-- FILL_DONE (R192). -/
def execFillDone (ctl : Nat) (s : State) : Host.Outcome State Fault Refusal := .next (doFillDone ctl s)

/-- SHARED_MARKER_POLL (R193): the marker is found valid, or the wait goes on. -/
def doSharedMarkerPoll (ctl region : Nat) (seen : Bool) (s : State) : State :=
  if s.boot.stage = .fill ∧ seen ∧ region ∈ regionsWaiting s ctl then
    s.modCtl ctl (fun c => { c with marked := region :: c.marked })
  else s

/-- SHARED_MARKER_POLL (R193). -/
def execSharedMarkerPoll (ctl region : Nat) (seen : Bool) (s : State) : Host.Outcome State Fault Refusal :=
  .next (doSharedMarkerPoll ctl region seen s)

/-- SHARED_FILL_TIMEOUT (R193): the region becomes a hole, with UC. -/
def doSharedFillTimeout (ctl region : Nat) (s : State) : State :=
  if s.boot.stage = .fill ∧ region ∈ regionsWaiting s ctl then
    raise ((s.modCtl ctl (fun c => { c with unfilled := region :: c.unfilled })).putFlag (MEM_FILLSTAT.SHWAIT ctl) true)
      (memSrc ctl) .UC
  else s

/-- SHARED_FILL_TIMEOUT (R193). -/
def execSharedFillTimeout (ctl region : Nat) (s : State) : Host.Outcome State Fault Refusal :=
  .next (doSharedFillTimeout ctl region s)

end Sys2Proof.Machine
end

