-- ==== Sys2Proof/Machine/Engine.lean ====
section
/-! DEFINITION. Jobs of the cipher and compression engines: descriptors, rings, contexts, key charges, the checks before a job takes
input, and the input it takes (R268 to R291). -/

namespace Sys2Proof.Machine

/-! ### Engines and descriptors (R268, R275) -/

def isCipher (e : Nat) : Bool := e < 4

/-- The wheel source of an engine (R167). -/
def engSrc (e : Nat) : Nat := 49 + e

def State.setEng (s : State) (e : Nat) (g : Eng) : State :=
  { s with eng := { s.eng with engs := mput s.eng.engs e g Eng.zero } }

def State.modEng (s : State) (e : Nat) (f : Eng → Eng) : State := s.setEng e (f (s.engAt e))

/-- Fields of CIP_STAT or CMP_STAT, and of a ring's configuration, of engine e. -/
def engStat (e lsb w : Nat) : Fld := { off := engBase e, lsb := lsb, w := w }
def ringCfg (e r lsb w : Nat) : Fld := { off := engBase e + 0x1000 + r * 0x10, lsb := lsb, w := w }
def ringVi (s : State) (e r : Nat) : Nat := s.get (ringCfg e r 16 12)
def ringBase (s : State) (e r : Nat) : Nat := bits (s.rd (engBase e + 0x1008 + r * 0x10)) 12 40 * 4096
def ringSlots (s : State) (e r : Nat) : Nat := 2 ^ (bits (s.rd (engBase e + 0x1008 + r * 0x10)) 52 4 + 4)

/-- Word i of a job's slot. -/
def Job.word (j : Job) (i : Nat) : Nat := (j.desc.getD i 0).toNat

def Job.first (j : Job) : Bool := bitAt (j.word 0) 11
def Job.final (j : Job) : Bool := bitAt (j.word 0) 12
def Job.clr (j : Job) : Bool := bitAt (j.word 0) 13
def Job.mode (j : Job) : Nat := bits (j.word 0) 16 4
def Job.dir (j : Job) : Nat := bits (j.word 0) 20 1
def Job.release (j : Job) : Bool := bitAt (j.word 0) 21
def Job.format (j : Job) : Nat := bits (j.word 0) 16 3
def Job.cdir (j : Job) : Nat := bits (j.word 0) 19 1
def Job.level (j : Job) : Nat := bits (j.word 0) 20 4
def Job.src (j : Job) : Nat := bits (j.word 1) 0 52
def Job.srclen (j : Job) : Nat := bits (j.word 2) 0 32
def Job.dst (j : Job) : Nat := bits (j.word 3) 0 52
def Job.dstlen (j : Job) : Nat := bits (j.word 4) 0 32
def Job.outlim (j : Job) : Nat := bits (j.word 4) 32 32
def Job.ctxa (j : Job) : Nat := bits (j.word 5) 0 52
def Job.pba (j : Job) : Nat := bits (j.word 6) 0 52
def Job.kslot (j : Job) : Nat := bits (j.word 7) 0 13
def Job.histlen (j : Job) : Nat := bits (j.word 7) 0 24
def Job.ratio (j : Job) : Nat := if bits (j.word 7) 24 16 = 0 then 1024 else bits (j.word 7) 24 16

def mode.GCM : Nat := 0
def mode.XTS : Nat := 1
def mode.CTR : Nat := 2
def mode.CMAC : Nat := 3
def mode.CHACHA : Nat := 4

/-- A mode whose FINAL job writes or compares a tag (R281). -/
def Job.tagged (j : Job) : Bool := j.mode == mode.GCM || j.mode == mode.CMAC || j.mode == mode.CHACHA

/-- A mode with AAD. -/
def Job.withAad (j : Job) : Bool := j.mode == mode.GCM || j.mode == mode.CHACHA

/-- An authenticated decryption (R284). -/
def Job.opens (j : Job) : Bool := j.withAad && j.dir == 1

/-- Bytes of output that a cipher job makes. -/
def Job.outLen (j : Job) : Nat := if j.mode = mode.CMAC then 0 else j.srclen

/-! ### Accesses for a job (R268) -/

def jobSpans (s : State) (e : Nat) (j : Job) (addr n : Nat) (a : Acc1) : State × Option (List Span) :=
  match viSpans s (engSrc e) j.vi a (pagesOf addr n (n / 4096 + 2)) with
  | (s, .ok xs) => (s, some xs)
  | (s, .error _) => (s, none)

/-- Bytes read for a job; none when an address faults. -/
def jobRead (s : State) (e : Nat) (j : Job) (addr n : Nat) : State × Option Got2 :=
  match jobSpans s e j addr n .load with
  | (s, none) => (s, none)
  | (s, some xs) =>
    let (s, g) := spansRead s (engSrc e) j.tenant xs
    (s, some g)

/-- Bytes written to spans in order, with their dirty-log bits; whether all were performed. -/
def spansWrite (s : State) (e : Nat) (j : Job) (poison : Bool) : List Span → Nat → State × Bool
  | [], _ => (s, true)
  | x :: t, val =>
    let (s, a) := viWrite s (engSrc e) j.vi x.tpa x.pa x.len (val % 256 ^ x.len) poison
    let (s, b) := spansWrite s e j poison t (val / 256 ^ x.len)
    (s, a && b)

def jobWrite (s : State) (e : Nat) (j : Job) (addr n val : Nat) : State × Bool :=
  match jobSpans s e j addr n .store with
  | (s, none) => (s, false)
  | (s, some xs) => spansWrite s e j false xs val

/-- The sector of an address written again as it stands, poisoned (R293). -/
def poisonSector (s : State) (e : Nat) (j : Job) (addr : Nat) : State :=
  let a := addr / 64 * 64
  match jobRead s e j a 64 with
  | (s, none) => s
  | (s, some g) =>
    match jobSpans s e j a 64 .store with
    | (s, none) => s
    | (s, some xs) => (spansWrite s e j true xs g.val).1

/-! ### Context records (R278 to R280) -/

def halfSize (e : Nat) : Nat := if isCipher e then 0x200 else 0x2000
def recLen (e : Nat) : Nat := if isCipher e then 256 else 4096
def classOf (e : Nat) : Nat := if isCipher e then 1 else 2

/-- Length of a job's record as it stands in memory. -/
def storedLen (e : Nat) (j : Job) : Nat := if j.clr then recLen e else recLen e + 8

/-- The header word of a half. -/
def halfHeader (e : Nat) (j : Job) (valid : Bool) : Nat :=
  storedLen e j + boolNat valid * 2 ^ 16 + boolNat (!j.clr) * 2 ^ 17 + classOf e * 2 ^ 24

/-- The initial value of the key wrap (R279). -/
def wrapIv (e : Nat) (j : Job) : Word :=
  BitVec.ofNat 64 (0xA6A6000000000000 + classOf e * 2 ^ 40 + j.tenant * 2 ^ 16 + (if isCipher e then j.kslot else 0))

/-- Exactly n bytes. -/
def fitBytes (bs : List Byte) (n : Nat) : List Byte := (bs ++ List.replicate n 0).take n

/-- A record with its CRC: the last 8 bytes hold it. -/
def sealRec (e : Nat) (body : List Byte) : List Byte :=
  let b := fitBytes body (recLen e - 8)
  b ++ bytesOf (crc32c b) 8

/-- A half's header and record written; whether the writes were performed. -/
def saveHalf (s : State) (e : Nat) (j : Job) (half : Nat) : State × Bool :=
  let full := sealRec e j.rec_
  let body := if j.clr then full else fitBytes (Config.keyWrap s.eng.wrapVer (wrapIv e j) full) (recLen e + 8)
  jobWrite s e j (j.ctxa + half * halfSize e) (8 + storedLen e j) (halfHeader e j true + ofBytes body * 2 ^ 64)

/-- A half's header written with VALID 0. -/
def voidHalf (s : State) (e : Nat) (j : Job) (half : Nat) : State × Bool :=
  jobWrite s e j (j.ctxa + half * halfSize e) 8 (halfHeader e j false)

/-- How a restore ends. -/
inductive Restore where
  | ok (body : List Byte)
  | bad
  | poison (faddr : Nat)
  | fault
  deriving DecidableEq, Repr

/-- A number in a record. -/
def recNat (r : List Byte) (off n : Nat) : Nat := ofBytes ((r.drop off).take n)

/-- The record's mode or format is the descriptor's. -/
def recFits (e : Nat) (j : Job) (r : List Byte) : Bool :=
  if isCipher e then bits (recNat r 0 8) 16 4 == j.mode else Config.recFormat r == j.format

/-- The header fields that a restore looks at: length, VALID and class (R279). -/
def headerFits (e : Nat) (j : Job) (w : Nat) : Bool := bits w 0 17 == storedLen e j + 2 ^ 16 && bits w 24 8 == classOf e

/-- A half read and checked (R279). -/
def loadHalf (s : State) (e : Nat) (j : Job) (half : Nat) : State × Restore :=
  match jobRead s e j (j.ctxa + half * halfSize e) (8 + storedLen e j) with
  | (s, none) => (s, .fault)
  | (s, some g) =>
    match g.poison with
    | some f => (s, .poison f)
    | none =>
      if !headerFits e j (g.val % 2 ^ 64) then (s, .bad)
      else
        let stored := bytesOf (g.val / 2 ^ 64) (storedLen e j)
        match (if j.clr then some stored else Config.keyUnwrap s.eng.wrapVer (wrapIv e j) stored) with
        | none => (s, .bad)
        | some full =>
          let body := fitBytes full (recLen e - 8)
          if sealRec e body = fitBytes full (recLen e) ∧ recFits e j body then (s, .ok body) else (s, .bad)

/-- A cipher engine's record (R280). AAD is taken before the first byte of text. -/
def cipherRec (j : Job) (x : Config.CipherEnd) (aad text msgDst msgOut : Nat) : List Byte :=
  bytesOf (1 + j.mode * 2 ^ 16 + j.dir * 2 ^ 20 + 2 ^ 21 + x.part % 32 * 2 ^ 22) 8 ++ bytesOf j.tenant 8 ++ fitBytes x.state 96
    ++ bytesOf aad 8 ++ bytesOf text 8 ++ bytesOf msgDst 8 ++ bytesOf msgOut 8 ++ List.replicate 104 0

def recState (r : List Byte) : List Byte := (r.drop 0x10).take 96
def recAad (r : List Byte) : Nat := recNat r 0x70 8
def recText (r : List Byte) : Nat := recNat r 0x78 8

/-- MSGDST and MSGOUT of a job's message. -/
def Job.msgDst (j : Job) : Nat := if j.rec_ = [] then j.dst else recNat j.rec_ 0x80 8
def Job.msgOut (j : Job) : Nat := if j.rec_ = [] then 0 else recNat j.rec_ 0x88 8

/-! ### Parameter blocks (R282) -/

/-- A parameter block; `good` says that its reserved bytes are zero and that a later job names no AAD. -/
structure Params where
  iv : List Byte
  tag : List Byte
  aad : Nat
  aadLen : Nat
  good : Bool
  deriving DecidableEq, Repr

def paramsOf (j : Job) (v : Nat) : Params :=
  let b := bytesOf v 64
  let len := if j.withAad then bits v 320 32 else 0
  { iv := b.take 16, tag := (b.drop 16).take 16, aad := if j.withAad then bits v 256 64 else 0, aadLen := len
    good := (!j.withAad || recNat b 12 4 == 0) && recNat b 48 16 == 0 && (j.first || len == 0) }

/-- The parameter block as a FIRST or FINAL job reads it: none when the address faults. -/
def readParams (s : State) (e : Nat) (j : Job) : State × Option (Params × Option Nat) :=
  match jobRead s e j j.pba 64 with
  | (s, none) => (s, none)
  | (s, some g) => (s, some (paramsOf j g.val, g.poison))

/-- A cipher job reads its parameter block. -/
def Job.readsParams (j : Job) : Bool := j.first || j.final

/-! ### Key slots (R281, R283) -/

def ks.EMPTY : Nat := 0
def ks.LOADED : Nat := 1
def ks.SPENT : Nat := 2

/-- The key types a mode takes. -/
def keyTypes (m : Nat) : List Nat := if m = mode.XTS then [2, 3] else if m = mode.CHACHA then [4] else [0, 1]

/-- The hard maxima of a mode: invocations and bytes. -/
def keyCaps (m : Nat) : Nat × Nat :=
  if m = mode.XTS ∨ m = mode.CTR then (2 ^ 48, 2 ^ 48)
  else if m = mode.CMAC then (2 ^ 48, 2 ^ 52)
  else if m = mode.CHACHA then (2 ^ 32, 2 ^ 56)
  else (2 ^ 32, 2 ^ 48)

/-- A key slot's grant as an engine sees it: the one that the descriptor cache holds while it is enabled, else the slot's (R164, R235). -/
def grantOf (s : State) (k : Nat) : Word :=
  if s.flag CHS_CFG.DCEN then (mget? s.chs.grants k).getD (BitVec.ofNat 64 (s.rd (CIP_KS_CFG.off k))) else BitVec.ofNat 64 (s.rd (CIP_KS_CFG.off k))

/-- The grant of a slot that a job names is kept in the descriptor cache. -/
def grantNoted (s : State) (k : Nat) : State :=
  if s.flag CHS_CFG.DCEN then { s with chs := { s.chs with grants := mset s.chs.grants k (grantOf s k) } } else s

/-- The charge of a job of n bytes; false when the slot is spent. -/
def chargeKey (s : State) (j : Job) (n : Nat) : State × Bool :=
  let k := j.kslot
  let s := grantNoted s k
  let inv := s.get (CIP_KS_INVCNT.COUNT k)
  let byt := s.get (CIP_KS_BYTCNT.COUNT k)
  if s.get (CIP_KS_CFG.STATE k) = ks.SPENT then (s, false)
  else if (j.first ∧ min (s.get (CIP_KS_INVLIM.LIMIT k)) (keyCaps j.mode).1 ≤ inv)
      ∨ min (s.get (CIP_KS_BYTLIM.LIMIT k)) (keyCaps j.mode).2 < byt + n then
    (s.put (CIP_KS_CFG.STATE k) ks.SPENT, false)
  else ((if j.first then s.put (CIP_KS_INVCNT.COUNT k) (inv + 1) else s).put (CIP_KS_BYTCNT.COUNT k) (byt + n), true)

/-- The slot is EMPTY, not granted, or another tenant's (R273). -/
def keyRefused (s : State) (j : Job) : Bool :=
  let k := j.kslot
  let g := (grantOf s k).toNat
  s.get (CIP_KS_CFG.STATE k) == ks.EMPTY || !bitAt g 16 || bits g 0 10 != j.tenant

/-! ### The checks of a job (R273, R275, R278, R281, R282, R287, R289) -/

def halt.READ : Nat := 1
def halt.POISON : Nat := 2
def halt.FORMAT : Nat := 3
def halt.KEY : Nat := 4
def halt.ADDRESS : Nat := 5

/-- Reserved-zero bits, lengths and encodings of a cipher job's descriptor. -/
def cipherForm (j : Job) : Bool :=
  bits (j.word 0) 22 10 == 0 && bits (j.word 4) 32 32 == 0 && bits (j.word 7) 13 51 == 0 && j.mode < 5 && j.pba % 64 == 0
    && j.ctxa % 1024 == 0
    && (if j.mode = mode.CMAC then j.dstlen == 0 else j.srclen ≤ j.dstlen)
    && (j.mode != mode.XTS || (j.first && j.final && 16 ≤ j.srclen && j.srclen ≤ 16777216))

/-- The same of a compression job. -/
def codecForm (j : Job) : Bool :=
  bits (j.word 0) 24 8 == 0 && bits (j.word 7) 40 24 == 0 && j.format < 4 && j.ctxa % 16384 == 0 && j.histlen ≤ 8388608
    && (!j.first || j.histlen == 0) && (j.cdir == 1 || (1 ≤ j.level && j.level ≤ 12))

/-- What both classes keep zero. -/
def jobForm (e : Nat) (j : Job) : Bool :=
  bits (j.word 0) 14 2 == 0 && bits (j.word 1) 52 12 == 0 && bits (j.word 2) 32 32 == 0 && bits (j.word 3) 52 12 == 0
    && bits (j.word 5) 52 12 == 0 && bits (j.word 6) 52 12 == 0 && j.ctxa != 0
    && (j.cell.isNone || (j.first && j.final))
    && (if isCipher e then cipherForm j else codecForm j)

/-- CLR 1 only for tenant 0x000 and memory that it owns (R278). -/
def clrOk (s : State) (e : Nat) (j : Job) : State × Bool :=
  if !j.clr then (s, true)
  else if j.tenant ≠ 0 then (s, false)
  else
    match jobSpans s e j j.ctxa (2 * halfSize e) .load with
    | (s, none) => (s, true)
    | (s, some xs) =>
      (s, xs.all (fun x => match placeOf s x.pa with
        | .mem h => ownerOf s h (x.pa % 2 ^ 48) == 0
        | _ => true))

/-- The longest message of a mode (R281). -/
def textLimit (m : Nat) : Nat := if m = mode.GCM then 2 ^ 36 - 32 else if m = mode.CHACHA then 2 ^ 38 - 64 else 2 ^ 64

/-- What a restored context requires of a later job: its place in the message and the message's length. -/
def ctxForm (e : Nat) (j : Job) (r : List Byte) : Bool :=
  !isCipher e || ((!j.opens || j.dst == recNat r 0x80 8 + recNat r 0x88 8) && recText r + j.srclen ≤ textLimit j.mode)

/-- The address ranges of a job. -/
def jobRanges (e : Nat) (j : Job) (p : Params) : List (Nat × Nat × Acc1) :=
  let ctx : Nat × Nat × Acc1 := (j.ctxa, 2 * halfSize e, .fill)
  if isCipher e then
    [(j.src, j.srclen, .load), (j.dst, j.outLen, .store),
      (j.pba, if j.readsParams then 64 else 0, if j.final ∧ j.tagged ∧ j.dir = 0 then .fill else .load), (p.aad, p.aadLen, .load), ctx]
  else [(j.src, j.srclen, .load), (j.dst, j.dstlen, .store), (bits (j.word 6) 0 52, j.histlen, .load), ctx]

/-- Every range can be reached. -/
def rangesOk (s : State) (e : Nat) (j : Job) : List (Nat × Nat × Acc1) → State × Bool
  | [] => (s, true)
  | (addr, n, a) :: t =>
    match jobSpans s e j addr n a with
    | (s, none) => (s, false)
    | (s, some _) => rangesOk s e j t

/-! ### HOLD (R284, R285) -/

/-- Beats from b on that a tenant owns without a break. -/
def runFrom (s : State) (t n b : Nat) : Nat → Nat
  | 0 => 0
  | f + 1 => if b < 63 ∧ s.beatOwner t b = some n then 1 + runFrom s t n (b + 1) f else 0

/-- rclk in which a job takes input in a run of so many beats. -/
def runTime (beats : Nat) : Nat := (beats - 1) * 200 + 150

/-- rclk that a HOLD job takes. -/
def holdTime (aad n : Nat) : Nat := (aad + n + 319) / 320 + 16

/-- A HOLD job now: it starts, waits for the next run, or runs as RELEASE. -/
inductive Hold where
  | go | wait | released
  deriving DecidableEq, Repr

def holdNow (s : State) (e : Nat) (j : Job) (aad : Nat) : Hold :=
  let t := table.engine e
  let need := holdTime aad j.srclen
  let left := runTime (runFrom s t j.tenant s.beat 64) - s.since % 200
  let best := (List.range 63).foldl (fun m b => max m (runFrom s t j.tenant b 64)) 0
  if !s.closedWeave ∨ need ≤ left then .go else if best ≠ 0 ∧ need ≤ runTime best then .wait else .released

/-- The job asks for HOLD and qualifies. -/
def Job.asksHold (j : Job) : Bool := j.opens && !j.release && j.first && j.final && j.srclen ≤ 65536

/-! ### Starting a job -/

/-- How the checks of a job end: it starts, waits for its next run, or a reason of R273. -/
inductive Start where
  | go (j : Job)
  | wait
  | halt (reason : Nat)
  deriving DecidableEq, Repr

/-- The charge and the last of a cipher job's checks: what its early end is, if any. A job that the charge refuses has its context,
which names what the message has written (R284). -/
def cipherStart (s : State) (j : Job) (p : Params) (pbad : Option Nat) (ctx : Option Restore) : State × Job :=
  match chargeKey s j (p.aadLen + j.srclen) with
  | (s, false) =>
    (s, { j with early := some (cst.KEY_SPENT, 0), rec_ := match ctx with
      | some (.ok r) => r
      | _ => j.rec_ })
  | (s, true) =>
    match ctx, pbad with
    | some (.poison f), _ => (s, { j with early := some (cst.POISON, f) })
    | some (.ok r), none => (s, { j with rec_ := r })
    | some (.ok r), some f => (s, { j with rec_ := r, early := some (cst.POISON, f) })
    | some _, _ => (s, { j with early := some (cst.AUTH_FAIL, 0), ctxBad := true })
    | none, some f => (s, { j with early := some (cst.POISON, f) })
    | none, none => (s, j)

def codecStart (j : Job) (ctx : Option Restore) : Job :=
  match ctx with
  | some (.ok r) => { j with rec_ := r }
  | some (.poison f) => { j with early := some (cst.POISON, f) }
  | some _ => { j with early := some (cst.AUTH_FAIL, 0), ctxBad := true }
  | none => j

/-- The checks of R273 in their order, then the key charge and the restore. -/
def startJob (s : State) (e : Nat) (j : Job) : State × Start :=
  let (s, clr) := clrOk s e j
  if !jobForm e j ∨ !clr then (s, .halt halt.FORMAT)
  else
    let cip := isCipher e
    let (s, pb) := if cip ∧ j.readsParams then readParams s e j else (s, some (paramsOf j 0, none))
    let (s, ctx) : State × Option Restore := if j.first then (s, none) else
      match loadHalf s e j 0 with
      | (s, r) => (s, some r)
    let p := (pb.map (·.1)).getD (paramsOf j 0)
    let pbad := pb.bind (·.2)
    let ctxGood : Bool := match ctx with
      | some (.ok r) => ctxForm e j r
      | some _ => true
      | none => !cip || j.srclen ≤ textLimit j.mode
    let typeGood := s.get (CIP_KS_CFG.STATE j.kslot) == ks.EMPTY || (keyTypes j.mode).contains (s.get (CIP_KS_CFG.KTYPE j.kslot))
    if (pbad.isNone ∧ !p.good) ∨ !ctxGood ∨ (cip ∧ !typeGood) then (s, .halt halt.FORMAT)
    else if cip ∧ keyRefused s j then (s, .halt halt.KEY)
    else
      match rangesOk s e j (jobRanges e j p) with
      | (s, false) => (s, .halt halt.ADDRESS)
      | (s, true) =>
        if !cip then (s, .go (codecStart j ctx))
        else
          let h := if j.asksHold then holdNow s e j p.aadLen else .go
          if h = .wait then (s, .wait)
          else
            let j : Job := { j with hold := j.asksHold && h == .go, released := j.asksHold && h == .released }
            let (s, j) := cipherStart s j p pbad ctx
            (s, .go j)

/-! ### Taking input -/

/-- Where a job stands after taking input: `stop` is a status with its address, `check` the check value, `out` what a HOLD job
holds back. -/
structure Went where
  job : Job
  stop : Option (Nat × Nat)
  check : Nat
  out : List Byte
  deriving DecidableEq, Repr

/-- Input bytes from `lo` to `hi` of a job: how many are good, and the sector that is not; none when an address faults. -/
def takeInput (s : State) (e : Nat) (j : Job) (lo hi : Nat) (inp : Option Nat) : State × Option (List Byte × Option Nat) :=
  match jobRead s e j (j.src + lo) (hi - lo) with
  | (s, none) => (s, none)
  | (s, some g) =>
    let inside : Option Nat := inp.bind (fun a => if j.src + lo < a / 64 * 64 + 64 ∧ a / 64 * 64 < j.src + hi then some (a / 64 * 64) else none)
    let bad : Option Nat := match g.poison, inside with
      | some a, some b => some (min a b)
      | some a, none => some a
      | none, b => b
    let bs := bytesOf g.val (hi - lo)
    (s, some (match bad with
      | some a => (bs.take (a - (j.src + lo)), some a)
      | none => (bs, none)))

/-- AAD and nonce block of a message's first byte; empty later. -/
def messageHead (s : State) (e : Nat) (j : Job) : State × Option (List Byte × Got2 × Nat) :=
  if j.rec_ = [] then
    match readParams s e j with
    | (s, none) => (s, none)
    | (s, some (p, _)) =>
      match jobRead s e j p.aad p.aadLen with
      | (s, none) => (s, none)
      | (s, some g) => (s, some (p.iv, g, p.aadLen))
  else (s, some ([], { val := 0, poison := none }, 0))

/-- A cipher job takes its input up to byte `n`; none when an address faults. -/
def cipherTake (s : State) (e : Nat) (j : Job) (n : Nat) (inp : Option Nat) : State × Option Went :=
  match messageHead s e j with
  | (s, none) => (s, none)
  | (s, some (iv, a, aadLen)) =>
    match a.poison with
    | some f => (s, some { job := j, stop := some (cst.POISON, f), check := 0, out := [] })
    | none =>
      match takeInput s e j j.used n inp with
      | (s, none) => (s, none)
      | (s, some (bs, bad)) =>
        let x := Config.cipherRun { mode := j.mode, dir := j.dir, key := mget s.eng.keyVer j.kslot 0
                                    state := recState j.rec_, iv := iv, aad := bytesOf a.val aadLen, inp := bs }
        let k := bs.length
        let m := if j.mode = mode.CMAC then 0 else k
        let out := fitBytes x.out m
        let (s, ok) := if j.hold then (s, true) else jobWrite s e j (j.dst + j.made) m (ofBytes out)
        if !ok then (s, none)
        else
          let r := cipherRec j x (recAad j.rec_ + aadLen) (recText j.rec_ + k) j.msgDst (j.msgOut + m)
          (s.account j.tenant led.CIP_BYTES (aadLen + k),
            some { job := { j with used := j.used + k, made := j.made + m, rec_ := r }
                   stop := bad.map (fun f => (cst.POISON, f)), check := 0, out := out })

/-- What stops a compression job's output, and what it has written (R290, R291). -/
structure Poured where
  out : List Byte
  at_ : Config.CodecAt
  stop : Option Nat
  deriving DecidableEq, Repr

/-- The output guard of a decompression (R291). -/
def guarded (j : Job) (total inTotal : Nat) : Bool :=
  j.cdir == 1 && ((j.outlim != 0 && j.outlim * 1048576 < total) || j.ratio * inTotal + 65536 < total)

/-- Pieces written while the guard allows them and they fit; `i` pieces and `out` are done. -/
def pour (j : Job) (c : Config.CodecJob) (end_ : Config.CodecAt) (space i : Nat) (out : List Byte) : List Config.CodecPiece → Poured
  | [] => { out := out, at_ := end_, stop := none }
  | p :: t =>
    let n := out.length + p.out.length
    if guarded j (Config.recOut j.rec_ + n) (Config.recIn j.rec_ + p.used) then
      { out := out, at_ := Config.codecCut c i 0, stop := some cst.OUTPUT_LIMIT }
    else if space < n then
      let m := if j.cdir = 1 then space - out.length else 0
      { out := out ++ p.out.take m, at_ := Config.codecCut c i m, stop := some cst.OUT_FULL }
    else pour j c end_ space (i + 1) (out ++ p.out) t

/-- The history of a compression job at the point it has reached: the history named, then its own input or output (R289). -/
def historyOf (s : State) (e : Nat) (j : Job) : State × Option (List Byte × Option Nat) :=
  match jobRead s e j (bits (j.word 6) 0 52) j.histlen with
  | (s, none) => (s, none)
  | (s, some g) =>
    let n := if j.cdir = 0 then j.used else j.made
    match jobRead s e j (if j.cdir = 0 then j.src else j.dst) n with
    | (s, none) => (s, none)
    | (s, some h) => (s, some (bytesOf g.val j.histlen ++ bytesOf h.val n, match g.poison with
      | some f => some f
      | none => h.poison))

/-- A compression job takes its input up to byte `n`. -/
def codecTake (s : State) (e : Nat) (j : Job) (n : Nat) (inp : Option Nat) : State × Option Went :=
  match historyOf s e j with
  | (s, none) => (s, none)
  | (s, some (_, some f)) => (s, some { job := j, stop := some (cst.POISON, f), check := 0, out := [] })
  | (s, some (hist, none)) =>
    match takeInput s e j j.used n inp with
    | (s, none) => (s, none)
    | (s, some (bs, bad)) =>
      let c : Config.CodecJob := { format := j.format, dir := j.cdir, level := if j.cdir = 0 then j.level else 0, rec_ := j.rec_
                                   hist := hist, inp := bs, final := j.final && n == j.srclen && bad.isNone }
      let r := Config.codec c
      let w := pour j c r.last (j.dstlen - j.made) 0 [] r.pieces
      let (s, ok) := jobWrite s e j (j.dst + j.made) w.out.length (ofBytes w.out)
      if !ok then (s, none)
      else
        let used := min w.at_.used bs.length
        let stop : Option (Nat × Nat) := match w.stop with
          | some st => some (st, 0)
          | none => if r.bad then some (cst.BAD_STREAM, 0) else if r.ended then some (cst.OK, 0) else bad.map (fun f => (cst.POISON, f))
        (s.account j.tenant led.CMP_IN_BYTES used,
          some { job := { j with used := j.used + used, made := j.made + w.out.length, rec_ := fitBytes w.at_.rec_ (recLen e - 8) }
                 stop := stop, check := w.at_.check, out := [] })

/-- A job takes its input up to byte `n`. -/
def takeUpTo (s : State) (e : Nat) (j : Job) (n : Nat) (inp : Option Nat) : State × Option Went :=
  if isCipher e then cipherTake s e j n inp else codecTake s e j n inp

end Sys2Proof.Machine
end

