-- ==== Sys2Proof/Machine/EngRows.lean ====
section
/-! DEFINITION. Commands of the cipher and compression engines: polling, the end of a job, suspension, rings, key slots and parity
errors (R268 to R294). -/

namespace Sys2Proof.Machine

/-! ### The end of a job (R271, R272, R284) -/

/-- The statistics of a job's end; the engine is idle. -/
def engIdle (s : State) (e : Nat) : State := (s.put (engStat e 0 2) 0).modEng e (fun g => { g with job := none })

/-- RSTAT as a ring's configuration has it (R269). -/
def rstat (s : State) (e r cons : Nat) : Nat :=
  cons % 2 ^ 16 + s.get (ringCfg e r 32 16) * 2 ^ 16 + s.get (ringCfg e r 8 4) * 2 ^ 32 + s.get (ringCfg e r 1 1) * 2 ^ 63

/-- CONS as RSTAT holds it. -/
def readCons (s : State) (e r : Nat) (j : Job) : State × Nat :=
  match jobRead s e j (ringBase s e r + 0x100) 8 with
  | (s, some g) => (s, g.val % 2 ^ 16)
  | (s, none) => (s, 0)

/-- A ring halts (R273): HSLOT and REASON, HALTED, and CE on the engine's source. -/
def haltRing (s : State) (e r : Nat) (j : Job) (hslot reason : Nat) : State :=
  let s := ((s.put (ringCfg e r 32 16) hslot).put (ringCfg e r 8 4) reason).put (ringCfg e r 1 1) 1
  let (s, cons) := readCons s e r j
  let (s, _) := jobWrite s e j (ringBase s e r + 0x100) 8 (rstat s e r cons)
  raise s (dom.engine e) .CE

/-- A job whose check fails, or one of whose addresses fails while it runs: its ring halts, or its operation ends BAD_PROGRAM
(R273, R274). -/
def haltJob (s : State) (e : Nat) (j : Job) (reason : Nat) : State :=
  let s := engIdle s e
  match j.ring, j.cell with
  | some r, _ => haltRing s e r j ((j.slot - (ringBase s e r + 0x200)) / 0x80) reason
  | none, some cell =>
    match s.op? cell with
    | some k => endOp s cell { k with xdone := true } cst.BAD_PROGRAM j.slot true
    | none => s
  | none, none => s

/-- The result words 9 to 15. -/
def resultWords (used made scrub scrubLen faddr check : Nat) : Nat :=
  ofBytes (bytesOfWords ([used, made, scrub, scrubLen, faddr, check % 2 ^ 32, 0].map (BitVec.ofNat 64)))

/-- What follows word 8: RSTAT and the notice of a ring, or the status of an operation (R271, R274). -/
def jobReport (s : State) (e : Nat) (j : Job) (st faddr : Nat) : State × Bool :=
  match j.ring, j.cell with
  | some r, _ =>
    let (s, cons) := readCons s e r j
    match jobWrite s e j (ringBase s e r + 0x100) 8 (rstat s e r (cons + 1)) with
    | (s, false) => (s, false)
    | (s, true) =>
      if bitAt (j.word 0) 3 then
        (evqNotice s j.tenant (bits (j.word 0) 4 7) (BitVec.ofNat 64 (j.slot + 64)) (evDesc ev.ENGINE e st), true)
      else (s, true)
  | none, some cell =>
    match s.op? cell with
    | some k =>
      if k.xjob ≠ j.slot ∨ k.xdone ∨ !(opOpen k || k.state == .ending) then (s, true)
      else if st ≠ cst.OK then (endOp s cell { k with xdone := true } st faddr true, true)
      else if k.state = .ending then (endOp s cell { k with xdone := true } cst.OK 0 false, true)
      else (s.setOp cell { k with xdone := true }, true)
    | none => (s, true)
  | none, none => (s, true)

/-- What of half 0 a job's end leaves: saved, or no longer valid (R278, R284, R290, R291). -/
def endContext (s : State) (e : Nat) (j : Job) (st : Nat) (scrubbed : Bool) : State × Bool :=
  if st = cst.OUT_FULL ∨ st = cst.OUTPUT_LIMIT ∨ (st = cst.OK ∧ !j.final) then saveHalf s e j 0
  else if st = cst.OK ∨ scrubbed then voidHalf s e j 0
  else (s, true)

/-- A decryption that has released plaintext is scrubbed on these ends (R284). -/
def scrubs (e : Nat) (j : Job) (st : Nat) : Bool :=
  isCipher e && j.opens && !j.hold && !j.ctxBad && [cst.AUTH_FAIL, cst.POISON, cst.KEY_SPENT, cst.DATA_CHECK].contains st

/-- A job ends with a status (R271). A parity error leaves no counts and touches no context (R292). -/
def finishJob (s : State) (e : Nat) (j : Job) (st faddr check : Nat) : State :=
  let parity := st == cst.STATE_PARITY
  let scrub := !parity && scrubs e j st
  let n := if scrub then j.msgOut else 0
  match jobWrite s e j j.msgDst n 0 with
  | (s, false) => haltJob s e j halt.ADDRESS
  | (s, true) =>
    let words := resultWords (if parity then 0 else j.used) (if parity then 0 else j.made) (if n = 0 then 0 else j.msgDst) n faddr check
    match jobWrite s e j (j.slot + 72) 56 words with
    | (s, false) => haltJob s e j halt.ADDRESS
    | (s, true) =>
      match (if parity then (s, true) else endContext s e j st scrub) with
      | (s, false) => haltJob s e j halt.ADDRESS
      | (s, true) =>
        let word8 := st + boolNat j.ctxBad * 2 ^ 8 + boolNat j.released * 2 ^ 9 + 2 ^ 63
        match jobWrite s e j (j.slot + 64) 8 word8 with
        | (s, false) => haltJob s e j halt.ADDRESS
        | (s, true) =>
          match jobReport s e j st faddr with
          | (s, false) => haltJob s e j halt.ADDRESS
          | (s, true) => (engIdle s e).bump (engStat e 16 32) 1

/-- The end of a job whose input is taken: with an output sector that left poisoned it is a DATA_CHECK, whatever else the end would
have been (R293: the job goes on to its end and then reports; DEDUCED, log 40). -/
def finishGood (s : State) (e : Nat) (j : Job) (st faddr check : Nat) (out : Option Nat) : State :=
  match out with
  | some a =>
    let a := a / 64 * 64
    if j.dst < a + 64 ∧ a < j.dst + j.made then
      finishJob (raise (poisonSector s e j a) (dom.engine e) .DE) e j cst.DATA_CHECK a check
    else finishJob s e j st faddr check
  | none => finishJob s e j st faddr check

/-- A cipher job's FINAL step: the tag is written, or compared; held plaintext goes out only after it matches (R281, R284). -/
def cipherFinal (s : State) (e : Nat) (w : Went) (out : Option Nat) : State :=
  let j := w.job
  if !j.final ∨ !j.tagged then finishGood s e j cst.OK 0 0 out
  else
    let tag := fitBytes (Config.cipherTag j.mode (mget s.eng.keyVer j.kslot 0) (recState j.rec_) (recAad j.rec_) (recText j.rec_)) 16
    if j.dir = 0 then
      match jobWrite s e j (j.pba + 16) 16 (ofBytes tag) with
      | (s, false) => haltJob s e j halt.ADDRESS
      | (s, true) => finishGood s e j cst.OK 0 0 out
    else
      match readParams s e j with
      | (s, none) => haltJob s e j halt.ADDRESS
      | (s, some (_, some f)) => finishGood s e (if j.hold then { j with made := 0 } else j) cst.POISON f 0 out
      | (s, some (p, none)) =>
        if p.tag ≠ tag then finishGood s e (if j.hold then { j with made := 0 } else j) cst.AUTH_FAIL 0 0 out
        else if j.hold then
          match jobWrite s e j j.dst w.out.length (ofBytes w.out) with
          | (s, false) => haltJob s e j halt.ADDRESS
          | (s, true) => finishGood s e j cst.OK 0 0 out
        else finishGood s e j cst.OK 0 0 out

/-- The job at an engine runs to its end. A job whose key was taken away ends at a 4 KiB boundary of its input, which a free
value chooses (R294). -/
def runJob (s : State) (e : Nat) (j : Job) (bad : EngBad) : State :=
  match j.early with
  | some (st, f) => finishJob s e j st f 0
  | none =>
    let n := if j.revoked then min j.srclen (j.used + s.freeVal.toNat % ((j.srclen - j.used) / 4096 + 1) * 4096) else j.srclen
    let s := if j.revoked then s.drew else s
    match takeUpTo s e j n bad.inp with
    | (s, none) => haltJob s e j halt.ADDRESS
    | (s, some w) =>
      let k : Job := if w.job.hold ∧ (w.stop.isSome ∨ j.revoked) then { w.job with made := 0 } else w.job
      match w.stop with
      | some (st, f) => finishGood s e k st f w.check bad.out
      | none =>
        if j.revoked then finishGood s e k cst.KEY_SPENT 0 0 bad.out
        else if isCipher e then cipherFinal s e w bad.out
        else finishGood s e w.job cst.OK 0 w.check bad.out

/-- ENGINE_JOB_END (R271). -/
def doEngineJobEnd (e : Nat) (bad : EngBad) (s : State) : State :=
  if 8 ≤ e ∨ !s.domOn (dom.engine e) then s
  else
    match (s.engAt e).job with
    | some j => runJob s e j bad
    | none => s

/-- ENGINE_JOB_END (R271). -/
def execEngineJobEnd (e : Nat) (bad : EngBad) (s : State) : Host.Outcome State Fault Refusal := .next (orWait (doEngineJobEnd e bad) s)

/-! ### Suspension (R277) -/

/-- A job saved into half 1 up to where it has come; a HOLD job will run again from its start (R285). -/
def suspendJob (s : State) (e : Nat) (j : Job) : State :=
  let j : Job := if j.hold then { j with used := 0, made := 0, rec_ := [] } else j
  match saveHalf s e j 1 with
  | (s, false) => haltJob s e j halt.ADDRESS
  | (s, true) => (engIdle s e).modEng e (fun g => { g with susp := mset g.susp j.tenant j })

/-- A job is cut off once input up to byte `n` has been taken. -/
def cutJob (s : State) (e : Nat) (j : Job) (n : Nat) : State :=
  if j.early.isSome ∨ j.revoked ∨ (j.srclen ≤ n ∧ !j.hold) then runJob s e j { inp := none, out := none }
  else if j.hold then suspendJob s e j
  else
    match takeUpTo s e j (max j.used n) none with
    | (s, none) => haltJob s e j halt.ADDRESS
    | (s, some w) =>
      match w.stop with
      | some (st, f) => finishGood s e w.job st f w.check none
      | none => suspendJob s e w.job

/-! ### What work a tenant has at an engine (R270) -/

/-- A job yet to be read, for the accesses to a ring or an operation's job. -/
def jobAt (s : State) (v slot : Nat) (ring cell : Option Nat) (desc : List Word) : Job :=
  { ring := ring, cell := cell, vi := v, tenant := s.viTenant v, slot := slot, desc := desc, released := false, hold := false
    early := none, ctxBad := false, used := 0, made := 0, rec_ := [], revoked := false }

/-- What a poll of a ring sees. -/
inductive RingSees where
  | empty
  | job (cons : Nat)
  | halt (reason : Nat)
  deriving DecidableEq, Repr

/-- PROD and CONS of a ring read (R269). -/
def pollRing (s : State) (e r : Nat) : State × RingSees :=
  let j := jobAt s (ringVi s e r) 0 (some r) none []
  match jobRead s e j (ringBase s e r) 8 with
  | (s, none) => (s, .halt halt.READ)
  | (s, some p) =>
    match jobRead s e j (ringBase s e r + 0x100) 8 with
    | (s, none) => (s, .halt halt.READ)
    | (s, some c) =>
      if p.poison.isSome ∨ c.poison.isSome then (s, .halt halt.POISON)
      else if p.val % 2 ^ 16 = c.val % 2 ^ 16 then (s, .empty)
      else (s, .job (c.val % 2 ^ 16))

/-- The rings of an engine that a tenant's jobs may come from, in rotation after the last one served. -/
def ringsOf (s : State) (e tenant : Nat) : List Nat :=
  ((List.range 64).map (fun i => ((s.engAt e).lastRing + 1 + i) % 64)).filter (fun r =>
    s.get (ringCfg e r 0 2) == 1 && s.viTenant (ringVi s e r) == tenant)

/-- The operations whose jobs wait at an engine for a tenant, oldest first (R270, R274). -/
def xformsOf (s : State) (e tenant : Nat) : List Nat :=
  (s.engAt e).xforms.filter (fun c => match s.op? c with
    | some k => s.viTenant k.vi == tenant
    | none => false)

/-- The tenant has a suspended job, an XFORM job or a ring that holds work. -/
def engHasWork (s : State) (e tenant : Nat) : Bool :=
  (mget? (s.engAt e).susp tenant).isSome || xformsOf s e tenant != []
    || (ringsOf s e tenant).any (fun r => (pollRing s e r).2 != .empty)

/-- Every tenant that could have work at an engine. -/
def engTenants (s : State) (e : Nat) : List Nat :=
  ((s.engAt e).susp.map (·.1)
    ++ (s.engAt e).xforms.filterMap (fun c => (s.op? c).map (fun k => s.viTenant k.vi))
    ++ ((List.range 64).filter (fun r => s.get (ringCfg e r 0 2) == 1)).map (fun r => s.viTenant (ringVi s e r))).eraseDups

/-- The tenant that an engine serves now: the owner of the beat; in open weave, when the owner has no work, the next borrower
(R24, R270). -/
def engServes (s : State) (e : Nat) : Option Nat :=
  let t := table.engine e
  let owner := s.beatOwner t s.beat
  if s.beat = Config.houseBeat then none
  else if s.closedWeave then (if lastOfRun s t ∧ 150 ≤ s.since % 200 then none else owner)
  else
    match owner.filter (engHasWork s e) with
    | some o => some o
    | none =>
      if owner.isSome ∨ s.hedKind t s.beat = 1 then rotation (mget? s.loom.last t) ((engTenants s e).filter (engHasWork s e)) else none

/-! ### Polling (R270) -/

/-- A checked job at the engine. -/
def engTake (s : State) (e : Nat) (j : Job) : State :=
  let s := ((s.put (engStat e 0 2) 1).put (engStat e 2 10) j.tenant).noteIssue (table.engine e) j.tenant
  s.modEng e (fun g => { g with job := some j })

/-- A suspended job comes back: key charge, half 1 restored (R277, R279, R283). -/
def restoreJob (s : State) (e : Nat) (j : Job) : State :=
  let s := s.modEng e (fun g => { g with susp := mdel g.susp j.tenant })
  let (s, aad) : State × Nat := if isCipher e ∧ j.first then
      match readParams s e j with
      | (s, some (p, _)) => (s, p.aadLen)
      | (s, none) => (s, 0)
    else (s, 0)
  let (s, paid) := if !isCipher e then (s, true)
    else if keyRefused s j then (s, false)
    else chargeKey s j (aad + j.srclen)
  if !paid then engTake s e { j with early := some (cst.KEY_SPENT, 0) }
  else
    match loadHalf s e j 1 with
    | (s, .fault) => haltJob s e j halt.ADDRESS
    | (s, .poison f) => engTake s e { j with early := some (cst.POISON, f) }
    | (s, .bad) => engTake s e { j with early := some (cst.AUTH_FAIL, 0), ctxBad := true }
    | (s, .ok r) => engTake s e (if j.hold then j else { j with rec_ := r })

/-- A job read and checked; it starts, waits for its next run, or halts. -/
def beginJob (s : State) (e : Nat) (j : Job) : State :=
  match startJob s e j with
  | (s, .go k) =>
    let s := engTake s e k
    s.modEng e (fun g => { g with
      lastRing := j.ring.getD g.lastRing
      xforms := match j.cell with
        | some c => g.xforms.erase c
        | none => g.xforms })
  | (s, .wait) => s
  | (s, .halt reason) =>
    haltJob (s.modEng e (fun g => { g with
      lastRing := j.ring.getD g.lastRing
      xforms := match j.cell with
        | some c => g.xforms.erase c
        | none => g.xforms })) e j reason

/-- The job of an operation (R274). -/
def beginXform (s : State) (e cell : Nat) : State :=
  let drop (s : State) : State := s.modEng e (fun g => { g with xforms := g.xforms.erase cell })
  match s.op? cell with
  | none => drop s
  | some k =>
    if !(opOpen k || k.state == .ending) ∨ k.xdone then drop s
    else
      match descRead s (engSrc e) k.vi k.xjob 128 with
      | (s, .fault) => endOp (drop s) cell { k with xdone := true } cst.BAD_PROGRAM k.xjob true
      | (s, .poison) => poisonOp (drop s) cell { k with xdone := true } k.xjob
      | (s, .ok x) => beginJob s e (jobAt s k.vi k.xjob none (some cell) (wordsOf (bytesOf x 128) 16))

/-- The first ring in rotation that has work is served. -/
def serveRings (s : State) (e : Nat) : List Nat → State
  | [] => s
  | r :: t =>
    let v := ringVi s e r
    match pollRing s e r with
    | (s, .empty) => serveRings s e t
    | (s, .halt reason) => haltRing (s.modEng e (fun g => { g with lastRing := r })) e r (jobAt s v 0 (some r) none []) 0 reason
    | (s, .job cons) =>
      let slot := cons % ringSlots s e r
      let addr := ringBase s e r + 0x200 + slot * 0x80
      let j := jobAt s v addr (some r) none []
      match jobRead s e j addr 128 with
      | (s, none) => haltJob (s.modEng e (fun g => { g with lastRing := r })) e j halt.READ
      | (s, some g) =>
        if g.poison.isSome then haltJob (s.modEng e (fun g => { g with lastRing := r })) e j halt.POISON
        else beginJob s e { j with desc := wordsOf (bytesOf g.val 128) 16 }

/-- An idle engine takes work of a tenant: its suspended job, its XFORM jobs, then its rings (R270, R277). -/
def serveTenant (s : State) (e tenant : Nat) : State :=
  match mget? (s.engAt e).susp tenant with
  | some j => restoreJob s e j
  | none =>
    match xformsOf s e tenant with
    | c :: _ => beginXform s e c
    | [] => serveRings s e (ringsOf s e tenant)

/-- ENGINE_RING_POLL (R270). -/
def doEngineRingPoll (e : Nat) (s : State) : State :=
  if 8 ≤ e ∨ !s.domOn (dom.engine e) ∨ (s.engAt e).job.isSome ∨ s.fcu.safe.isSome then s
  else
    match engServes s e with
    | some t => serveTenant s e t
    | none => s

/-- ENGINE_RING_POLL (R270). -/
def execEngineRingPoll (e : Nat) (s : State) : Host.Outcome State Fault Refusal := .next (orWait (doEngineRingPoll e) s)

/-- The job at an engine is cut off now: in closed weave at the end of its tenant's run, in open weave when the beat is another
tenant's and that tenant has work (R24, R277). -/
def engCutOff (s : State) (e : Nat) (j : Job) : Bool :=
  let t := table.engine e
  let owner := s.beatOwner t s.beat
  if s.closedWeave then owner != some j.tenant || (lastOfRun s t && 150 ≤ s.since % 200)
  else
    match owner with
    | some o => o != j.tenant && engHasWork s e o
    | none => false

/-- JOB_SUSPEND (R277): a job cut off after input up to byte `upTo`, in open weave at a 4 KiB boundary. -/
def doJobSuspend (e upTo : Nat) (s : State) : State :=
  match (s.engAt e).job with
  | some j =>
    if 8 ≤ e ∨ !s.domOn (dom.engine e) ∨ !engCutOff s e j then s
    else cutJob s e j (if s.closedWeave then upTo else upTo / 4096 * 4096)
  | none => s

/-- JOB_SUSPEND (R277). -/
def execJobSuspend (e upTo : Nat) (s : State) : Host.Outcome State Fault Refusal := .next (orWait (doJobSuspend e upTo) s)

/-! ### Ring registers (R270, R273) -/

/-- A write of a ring's configuration: EN wakes the engine (R346), RESTART clears HALTED. -/
def ringCfgWrite (s : State) (e ring : Nat) (v : Word) : State :=
  if 8 ≤ e ∨ 64 ≤ ring then s
  else
    let f := ringCfg e ring 0 1
    let w := taken s f.off v
    let s := hostWrite s f.off v
    let s := if bitAt w 2 then s.put (ringCfg e ring 1 1) 0 else s
    if bitAt w 0 then doorbell s (dom.engine e) else s

/-- RING_ENABLE (R270). -/
def execRingEnable (e ring : Nat) (v : Word) (s : State) : Host.Outcome State Fault Refusal := .next (ringCfgWrite s e ring v)

/-- RING_RESTART (R273): the job at CONS runs again at a later poll. -/
def execRingRestart (e ring : Nat) (v : Word) (s : State) : Host.Outcome State Fault Refusal := .next (ringCfgWrite s e ring v)

/-! ### Key slots (R280, R283, R294) -/

/-- The key in CIP_KSDATA: the words that its type uses. -/
def engKeyData (s : State) (words : List Nat) : Nat :=
  (words.zipIdx).foldl (fun (x : Nat) (p : Nat × Nat) => x + s.get (CIP_KSDATA.KEY p.1) * 2 ^ (64 * p.2)) 0

/-- The words of CIP_KSDATA that a key type uses. -/
def keyWords (ktype : Nat) : List Nat :=
  if ktype = 0 then [0, 1] else if ktype = 2 then [0, 1, 4, 5] else if ktype = 3 then [0, 1, 2, 3, 4, 5, 6, 7] else [0, 1, 2, 3]

/-- Jobs that hold a key slot, running or suspended, lose it (R294). -/
def revokeKey (s : State) (k : Nat) : State :=
  let hit (j : Job) : Job := if j.kslot = k then { j with revoked := true } else j
  (List.range 4).foldl (fun s e => s.modEng e (fun g => { g with
    job := g.job.map hit, susp := g.susp.map (fun (x : Nat × Job) => (x.1, hit x.2)) })) s

/-- A new key in a slot: the counters clear (R283). GENERATE takes the old key from the jobs that hold it as LOAD does, which R294
names alone: DEDUCED, log 40. -/
def keySet (s : State) (k ktype ver : Nat) : State :=
  let s := revokeKey s k
  let s := { s with eng := { s.eng with keyVer := mput s.eng.keyVer k ver 0 } }
  let s := ((s.put (CIP_KS_CFG.STATE k) ks.LOADED).put (CIP_KS_CFG.KTYPE k) ktype).put (CIP_KS_INVCNT.COUNT k) 0
  s.put (CIP_KS_BYTCNT.COUNT k) 0

/-- A key drawn from the internal random source. -/
def drawKey (s : State) : State × Nat := ({ s with eng := { s.eng with nextVer := s.eng.nextVer + 1 } }, 2 * s.eng.nextVer)

/-- A write of CIP_KSCMD: ignored while BUSY. -/
def ksCommand (s : State) (v : Word) : State :=
  if s.flag CIP_KSCMD.BUSY then s
  else
    let op := bits (taken s CIP_KSCMD.off v) 13 2
    let s := hostWrite s CIP_KSCMD.off v
    let k := s.get CIP_KSCMD.SLOT
    let ty := s.get CIP_KSCMD.KTYPE
    let loaded := loadedVer (engKeyData s (keyWords ty) * 8 + ty)
    let s :=
      if s.flag CIP_KSCMD.TARGET then
        (if op = 1 then { s with eng := { s.eng with wrapVer := loadedVer (engKeyData s [0, 1, 2, 3]) } }
         else if op = 2 then
          match drawKey s with
          | (s, ver) => { s with eng := { s.eng with wrapVer := ver } }
         else s)
      else if op = 1 then keySet s k ty loaded
      else if op = 2 then
        match drawKey s with
        | (s, ver) => keySet s k ty ver
      else if op = 3 then
        let s := revokeKey s k
        { s with eng := { s.eng with keyVer := mdel s.eng.keyVer k } }.put (CIP_KS_CFG.STATE k) ks.EMPTY
      else s
    if op = 0 then s else s.putFlag CIP_KSCMD.BUSY true

/-- KEYSLOT_LOAD (R283). -/
def execKeyslotLoad (v : Word) (s : State) : Host.Outcome State Fault Refusal := .next (ksCommand s v)

/-- KEYSLOT_GENERATE (R283). -/
def execKeyslotGenerate (v : Word) (s : State) : Host.Outcome State Fault Refusal := .next (ksCommand s v)

/-- KEYSLOT_ERASE (R294). -/
def execKeyslotErase (v : Word) (s : State) : Host.Outcome State Fault Refusal := .next (ksCommand s v)

/-- WRAP_KEY_LOAD (R280). -/
def execWrapKeyLoad (v : Word) (s : State) : Host.Outcome State Fault Refusal := .next (ksCommand s v)

/-- WRAP_KEY_GENERATE (R280). -/
def execWrapKeyGenerate (v : Word) (s : State) : Host.Outcome State Fault Refusal := .next (ksCommand s v)

/-- KSCMD_DONE (R283): BUSY clears, and CIP_KSDATA is zeroed. -/
def doKscmdDone (s : State) : State :=
  if s.flag CIP_KSCMD.BUSY then
    (List.range 8).foldl (fun s j => s.put (CIP_KSDATA.KEY j) 0) (s.putFlag CIP_KSCMD.BUSY false)
  else s

/-- KSCMD_DONE (R283). -/
def execKscmdDone (s : State) : Host.Outcome State Fault Refusal := .next (doKscmdDone s)

/-- KEYSLOT_GRANT_WRITE (R294): an enabled descriptor cache loses its copy of the grant, a disabled one keeps it (R164, R235). -/
def doKeyslotGrantWrite (k : Nat) (v : Word) (s : State) : State :=
  if Config.keySlots ≤ k then s
  else
    let s := hostWrite s (CIP_KS_CFG.off k) v
    let s := if s.flag CHS_CFG.DCEN then { s with chs := { s.chs with grants := mdel s.chs.grants k } } else s
    if s.flag (CIP_KS_CFG.GRANT k) then s else revokeKey s k

/-- KEYSLOT_GRANT_WRITE (R294). -/
def execKeyslotGrantWrite (k : Nat) (v : Word) (s : State) : Host.Outcome State Fault Refusal := .next (doKeyslotGrantWrite k v s)

/-! ### Parity (R292) -/

/-- The running job ends STATE_PARITY; a half that was being written is left with VALID 0. -/
def parityEnd (s : State) (e : Nat) (half : Option Nat) : State :=
  match (s.engAt e).job with
  | none => s
  | some j =>
    let s := match half with
      | some h => (voidHalf s e j (h % 2)).1
      | none => s
    finishJob s e j cst.STATE_PARITY 0 0

/-- ENGINE_PARITY_ERROR (R292). -/
def doEngineParityError (e : Nat) (half : Option Nat) (s : State) : State :=
  if 8 ≤ e ∨ !s.domOn (dom.engine e) then s
  else parityEnd (raise (s.bump (engStat e 48 8) 1) (dom.engine e) .CE) e half

/-- ENGINE_PARITY_ERROR (R292). -/
def execEngineParityError (e : Nat) (half : Option Nat) (s : State) : Host.Outcome State Fault Refusal :=
  .next (orWait (doEngineParityError e half) s)

end Sys2Proof.Machine
end

