-- ==== Sys2Proof/Machine/ChsRows.lean ====
section
/-! DEFINITION. The commands of the channel subsystem: doorbells and acceptance, subchannel commands, dispatch, channel programs,
completion, set-up and Shuttle restarts (R204 to R239, R420, R421). -/

namespace Sys2Proof.Machine

/-! ### Doorbells (R207, R208) -/

def vst.IDLE : Nat := 0
def vst.PENDING : Nat := 1
def vst.ACCEPTED : Nat := 2
def vst.NOT_ACCEPTED : Nat := 3

/-- The doorbell page of a VI is open to a requester (R207). -/
def pageOpen (s : State) (v : Nat) (w : Who) : Bool :=
  v < 4096 && (w.level == .H || (s.flag (CHS_VI_CFG.EN v) && s.viTenant v == w.tenant))

def doorKey (v slot : Nat) : Nat := v * 64 + slot

def setDoor (s : State) (v slot : Nat) (x : Option Nat) : State :=
  { s with chs := { s.chs with doorbells := match x with
    | some a => mset s.chs.doorbells (doorKey v slot) a
    | none => mdel s.chs.doorbells (doorKey v slot) } }

/-- VI_STAT of a slot set; COLLIDE stays. -/
def setStat (s : State) (v slot state reason seq : Nat) : State :=
  ((s.put (VI_STAT.STATE v slot) state).put (VI_STAT.REASON v slot) reason).put (VI_STAT.SEQ v slot) seq

/-- VI_DOORBELL (R208): PENDING, or COLLIDE while it is PENDING. -/
def doViDoorbell (vi slot : Nat) (v : Word) (w : Who) (s : State) : State :=
  if 64 ≤ slot ∨ !pageOpen s vi w then s
  else if s.get (VI_STAT.STATE vi slot) = vst.PENDING then s.putFlag (VI_STAT.COLLIDE vi slot) true
  else setDoor ((s.put (VI_STAT.STATE vi slot) vst.PENDING).put (VI_STAT.SEQ vi slot) 0) vi slot (some v.toNat)

/-- VI_DOORBELL (R208). -/
def execViDoorbell (vi slot : Nat) (v : Word) (w : Who) (s : State) : Host.Outcome State Fault Refusal :=
  .next (doViDoorbell vi slot v w s)

/-! ### Acceptance (R206, R208, R209) -/

/-- The fields of an ORB (R206). -/
structure Orb where
  subch : Nat
  prio : Nat
  notify : Bool
  order : Bool
  xform : Bool
  ncord : Nat
  tag : Nat
  cpa : Nat
  xjob : Nat
  tmo : Nat
  rz : Bool
  deriving DecidableEq, Repr

/-- The fields of 64 bytes. -/
def orbOf (x : Nat) : Orb :=
  { subch := bits x 0 16, prio := bits x 16 3, notify := bitAt x 19, order := bitAt x 20, xform := bitAt x 21, ncord := bits x 25 7
    tag := bits x 32 32, cpa := bits x 68 48 * 16, xjob := bits x 134 46 * 64, tmo := bits x 192 16
    rz := bits x 22 3 ≠ 0 || bits x 64 4 ≠ 0 || bits x 116 12 ≠ 0 || bits x 128 6 ≠ 0 || bits x 180 12 ≠ 0 || bits x 208 304 ≠ 0 }

/-- The wheel source of the acceptor's reads: the descriptor cache. -/
def acceptorSrc : Nat := 48

/-- Steps 4 to 8 of R208, and 0 when none fails. -/
def orbReason (s : State) (v : Nat) (o : Orb) : Nat :=
  let b := s.scb o.subch
  if o.rz ∨ b.state = sub.FREE ∨ b.vi ≠ v ∨ s.cordCount ≤ o.ncord ∨ o.xform ≠ (o.xjob != 0) then cst.BAD_PROGRAM
  else if b.state = sub.HALTED then cst.CHANNEL_HALT
  else if b.state = sub.LOST then cst.DEVICE_LOST
  else if s.get (CHS_VI_CFG.QUOTA v) ≤ s.get (CHS_VI_CFG.QUEUED v) then cst.OVERRUN
  else if b.opMax ≤ b.opened then cst.QUOTA
  else 0

/-- The first n cell numbers of the pool that are not in use. -/
def freeCells (used : List Nat) (k : Nat) : Nat → Nat → List Nat
  | 0, _ => []
  | _, 0 => []
  | f + 1, n + 1 => if used.contains k then freeCells used (k + 1) f (n + 1) else k :: freeCells used (k + 1) f n

/-- Journal and completion cells in use. -/
def usedCells (s : State) : List Nat := s.chs.cells.flatMap (fun e => [e.1, e.2.comp])

/-- A journal record in state ACCEPTED. -/
def newRec (s : State) (v slot orb : Nat) (o : Orb) (comp : Nat) : JRec :=
  let b := s.scb o.subch
  { state := .accepted, vi := v, orb := orb, subch := o.subch, seq := b.nextSeq, prio := o.prio, tag := o.tag, notify := o.notify
    ncord := o.ncord, order := o.order, xform := o.xform, xjob := o.xjob, tmo := if o.tmo = 0 then b.tmo else o.tmo
    opened := s.time.now, age := s.chs.order, comp := comp, door := some slot, first := o.cpa, ccw := o.cpa, ccwCount := 0, ccwno := 0
    afterJump := false, cmd := 0, md := 0, run := [], more := false, spans := [], got := 0, skip := 0, lba := 0, dev := .none, mark := 0
    goal := none, cmds := 0, stale := false, sense := [], past := [], xdone := false, endCcw := 0, resid := 0, moved := 0, status := 0, lenx := false, dstat := 0, faddr := 0, slot := none
    phase := false, half := false, wrote := false, mirrored := false, epoch := 0, shut := none }

/-- A module that journals its acceptances to a twin (R209, R324). -/
def mirrors (s : State) : Bool := s.get SPL_STAT.STATE == 1

/-- The acceptance of a checked ORB. On a spliced module the slot stays PENDING until the record is mirrored. -/
def acceptOrb (s : State) (v slot orb : Nat) (o : Orb) : State :=
  match freeCells (usedCells s) 0 ((usedCells s).length + 2) 2 with
  | [cell, comp] =>
    let b := s.scb o.subch
    let r := newRec s v slot orb o comp
    let s := { s with chs := { s.chs with
      order := s.chs.order + 1, pool := s.chs.pool.filter (fun e => e.1 / 64 ≠ cell && e.1 / 64 ≠ comp) } }
    let s := s.setScb o.subch { b with nextSeq := if b.nextSeq = 2 ^ 48 - 1 then 1 else b.nextSeq + 1, opened := b.opened + 1 }
    let s := poolUpdate (s.put (CHS_VI_CFG.QUEUED v) (s.get (CHS_VI_CFG.QUEUED v) + 1))
    if mirrors s then s.setOp cell r else setStat (s.setOp cell { r with door := none }) v slot vst.ACCEPTED 0 r.seq
  | _ => s

/-- A refused doorbell; OVERRUN is noted in VI_VSTAT. -/
def refuseDoor (s : State) (v slot reason : Nat) : State :=
  let s := if reason = cst.OVERRUN then s.putFlag (VI_VSTAT.OVERRUN v) true else s
  setStat s v slot vst.NOT_ACCEPTED reason 0

/-- ACCEPTANCE (R208). -/
def doAcceptance (vi slot : Nat) (s : State) : State :=
  match mget? s.chs.doorbells (doorKey vi slot) with
  | none => s
  | some a =>
    if s.stopped ∨ 4096 ≤ vi ∨ 64 ≤ slot then s
    else
      let s := setDoor s vi slot none
      if s.flag (CHS_VI_CFG.SUSPEND vi) ∨ s.spl.refusing then refuseDoor s vi slot cst.SUSPENDED
      else if a % 64 ≠ 0 ∨ 2 ^ 52 ≤ a then refuseDoor s vi slot cst.BAD_PROGRAM
      else
        match descRead s acceptorSrc vi a 64 with
        | (s, .fault) => refuseDoor s vi slot cst.BAD_PROGRAM
        | (s, .poison) => refuseDoor s vi slot cst.POISON
        | (s, .ok x) =>
          let o := orbOf x
          let r := orbReason s vi o
          if r ≠ 0 then refuseDoor s vi slot r else acceptOrb s vi slot a o

/-- ACCEPTANCE_MIRRORED (R209): the record of a PENDING slot has been mirrored. -/
def doAcceptanceMirrored (vi slot : Nat) (s : State) : State :=
  match s.chs.cells.find? (fun e => e.2.vi == vi && e.2.door == some slot && e.2.mirrored) with
  | some (cell, j) => setStat (s.setOp cell { j with door := none }) vi slot vst.ACCEPTED 0 j.seq
  | none => s

/-- ACCEPTANCE_MIRRORED (R209). -/
def execAcceptanceMirrored (vi slot : Nat) (s : State) : Host.Outcome State Fault Refusal := .next (doAcceptanceMirrored vi slot s)

/-! ### Subchannel commands (R219, R420) -/

def scres.OK : Nat := 0
def scres.WRONG_STATE : Nat := 1
def scres.OPEN_OPS : Nat := 2
def scres.PORT_MODE : Nat := 3

/-- A write of CHS_SCCMD whose OP is the one of its row runs that command on SUBCH; any other is not this row's. -/
def scWrite (s : State) (v : Word) (op : Nat) (go : State → Nat → State × Nat) : State :=
  let w := taken s CHS_SCCMD.off v
  if s.flag CHS_SCCMD.BUSY ∨ bits w 16 3 ≠ op then s
  else
    let (s, r) := go (hostWrite s CHS_SCCMD.off v) (bits w 0 16)
    s.put CHS_SCCMD.RESULT r

/-- READ: SCB words 0 to 15 into CHS_SCDATA. -/
def scReadGo (s : State) (x : Nat) : State × Nat :=
  let ws := scbWords s (s.scb x) ++ List.replicate 16 0
  ((List.range 16).foldl (fun s i => s.wr (CHS_SCDATA0.off + 8 * i) (ws.getD i 0).toNat) s, scres.OK)

/-- SC_READ (R219). -/
def execScRead (v : Word) (s : State) : Host.Outcome State Fault Refusal := .next (scWrite s v 1 scReadGo)

/-- A session is opened with a control unit (R256). -/
def openSession (s : State) (p session : Nat) : State :=
  let s := s.modPort p (fun x => { x with sessions := mset x.sessions session 1 })
  weftSend s p 0 { frameOf s ft.SESS_OPEN 0 0 0 [] with session := session }

/-- What the adapter firmware finds at BIND: the block size, and whether the subchannel is LOST (R256, R266, R420). -/
def bindLost (s : State) (kind p target : Nat) (probe : BindProbe) : Bool :=
  if kind = 2 then mget (s.port p).sessions (target % 2 ^ 16) 0 == 3
  else
    !linkUp s p || !probe.answers
      || (kind == 0 && (!probe.active || !probe.formatOk || probe.blkLog2 < 9 || 12 < probe.blkLog2))

/-- BIND from words 0, 1 and 3 of CHS_SCDATA. -/
def scBindGo (probe : BindProbe) (s : State) (x : Nat) : State × Nat :=
  let b := s.scb x
  let kind := s.get CHS_SCDATA0.KIND
  let p := s.get CHS_SCDATA0.PORT
  let target := s.get CHS_SCDATA1.TARGET
  if b.state ≠ sub.FREE then (s, scres.WRONG_STATE)
  else if (kind == 2) != weftMode s p then (s, scres.PORT_MODE)
  else
    let lost := bindLost s kind p target probe
    let s := s.setScb x { b with
      state := if lost then sub.LOST else sub.BOUND, kind := kind, vi := s.get CHS_SCDATA0.VI, port := p, target := target
      blk := if kind = 0 ∧ probe.answers ∧ probe.active then probe.blkLog2 % 256 else 0, opMax := s.get CHS_SCDATA3.OPMAX
      tmo := s.get CHS_SCDATA3.TMO, mdts := if kind = 2 then 0 else probe.mdts, sense := [] }
    let fresh : Bool := kind == 2 && linkUp s p && mget (s.port p).sessions (target % 2 ^ 16) 0 == 0
    (if fresh then openSession s p (target % 2 ^ 16) else s, scres.OK)

/-- SC_BIND (R420). -/
def execScBind (v : Word) (probe : BindProbe) (s : State) : Host.Outcome State Fault Refusal :=
  .next (scWrite s v 2 (scBindGo probe))

/-- UNBIND: the subchannel is FREE, its sequence numbers go on. -/
def scUnbindGo (s : State) (x : Nat) : State × Nat :=
  let b := s.scb x
  if b.state = sub.FREE then (s, scres.WRONG_STATE)
  else if b.opened ≠ 0 then (s, scres.OPEN_OPS)
  else (s.setScb x { b with state := sub.FREE, kind := 0, vi := 0, port := 0, target := 0, blk := 0, mdts := 0, sense := [] }, scres.OK)

/-- SC_UNBIND (R219). -/
def execScUnbind (v : Word) (s : State) : Host.Outcome State Fault Refusal := .next (scWrite s v 3 scUnbindGo)

/-- HALT of a BOUND subchannel. -/
def scHaltGo (s : State) (x : Nat) : State × Nat :=
  if (s.scb x).state ≠ sub.BOUND then (s, scres.WRONG_STATE) else (haltSub s x, scres.OK)

/-- SC_HALT (R219). -/
def execScHalt (v : Word) (s : State) : Host.Outcome State Fault Refusal := .next (scWrite s v 4 scHaltGo)

/-- CLEARHALT of a HALTED subchannel. -/
def scClearhaltGo (s : State) (x : Nat) : State × Nat :=
  let b := s.scb x
  if b.state ≠ sub.HALTED then (s, scres.WRONG_STATE) else (s.setScb x { b with state := sub.BOUND }, scres.OK)

/-- SC_CLEARHALT (R219). -/
def execScClearhalt (v : Word) (s : State) : Host.Outcome State Fault Refusal := .next (scWrite s v 5 scClearhaltGo)

/-! ### Dispatch (R206, R224, R230, R325) -/

/-- The RUNNING Shuttles bound to a quad, ascending (R230). -/
def runningOn (s : State) (q : Nat) : List Nat :=
  (List.range Config.shuttles).filter (fun n => s.get (CHS_SHUT.QUAD n) == q && s.get (CHS_SHUT.STATE n) == shutst.RUNNING)

/-- The Shuttle that an operation of a subchannel on quad q runs on. -/
def serverOf (s : State) (q x : Nat) : Option Nat :=
  match runningOn s q with
  | [] => none
  | l => l[x % l.length]?

/-- Shuttle n takes operations of quad q and subchannel x, or completes them when no Shuttle of the quad is RUNNING. -/
def serves (s : State) (n q x : Nat) : Bool :=
  match serverOf s q x with
  | some m => m == n
  | none => s.get (CHS_SHUT.QUAD n) == q || (List.range Config.shuttles).all (fun m => s.get (CHS_SHUT.QUAD m) != q)

/-- An operation that waits for dispatch: ACCEPTED, DISPATCHED before a Shuttle restart, or one that a twin sends again (R216, R233,
R332). -/
def waitsDispatch (j : JRec) : Bool :=
  j.state == .accepted || (j.shut.isNone && (j.state == .dispatched || (j.state == .active && j.dev == .none && j.mirrored)))

/-- Taken from its queue an operation is DISPATCHED; an ACTIVE one that is sent again stays ACTIVE (R216). -/
def takenUp (j : JRec) : JRec := { j with state := if j.state = .active then .active else .dispatched }

/-- Every earlier-accepted operation of the subchannel has retired (R206). -/
def orderClear (s : State) (j : JRec) : Bool :=
  !j.order || s.chs.cells.all (fun e => e.2.subch != j.subch || j.age ≤ e.2.age)

/-- The commit of the capture that holds the acceptance (R325). -/
def committedOp (s : State) (j : JRec) : Bool := !mirrors s || (j.mirrored && j.epoch ≤ s.get SPL_STAT.EPOCH && j.epoch ≠ 0)

/-- The tenant for which work starts in the current beat of a table, of those that have some ready: the owner or, in open weave,
the next borrower (R24, R231). -/
def workTenant (s : State) (t : Nat) (ready : List Nat) : Option Nat :=
  let lent := if s.closedWeave then none else rotation (mget? s.loom.last t) ready
  if s.stopped ∨ s.beat = Config.houseBeat ∨ beatClosing s t then none
  else
    match s.beatOwner t s.beat with
    | some o => if ready.contains o then some o else lent
    | none => if s.hedKind t s.beat = 1 then lent else none

/-- Operations that wait for Shuttle n: cell and record. -/
def readyOps (s : State) (n : Nat) : List (Nat × JRec) :=
  s.chs.cells.filter (fun e =>
    let j := e.2
    waitsDispatch j && serves s n (opQuad s j) j.subch && orderClear s j && committedOp s j
      && !(s.replays (s.viTenant j.vi) && s.flag RPL_CFG.DATA))

/-- Operations that Shuttle n may take now. -/
def dispatchable (s : State) (n : Nat) : List (Nat × JRec) :=
  let xs := readyOps s n
  xs.filter (fun e =>
    let t := table.dma (opPort s e.2)
    workTenant s t ((xs.filter (fun x => table.dma (opPort s x.2) == t)).map (fun x => s.viTenant x.2.vi)) == some (s.viTenant e.2.vi))

/-- The choice of R224: the lowest PRIO, the VI after the last one served, the oldest. -/
def nextOp (last : Nat) (xs : List (Nat × JRec)) : Option Nat :=
  match (xs.map (fun e => e.2.prio)).min? with
  | none => none
  | some p =>
    let ys := xs.filter (fun e => e.2.prio == p)
    let turn (e : Nat × JRec) : Nat := (e.2.vi + 4096 - last % 4096 - 1) % 4096
    match (ys.map turn).min? with
    | none => none
    | some v => ((ys.filter (fun e => turn e == v)).foldr byAge []).head?.map (·.1)

/-- An operation taken by Shuttle n; an XFORM job whose program writes first goes to its engine (R274). The LBA of a program is free
until a LOCATE, and one that is dispatched again keeps its own (R233, R234). -/
def takeOp (s : State) (n cell : Nat) (j : JRec) : State :=
  let fresh : Bool := j.state == .accepted
  let j : JRec := { (takenUp j) with shut := some n, lba := if fresh then s.freeVal.toNat else j.lba }
  let s := if fresh then s.drew else s
  let s := (s.setOp cell j).modShut n (fun x => { x with cell := some cell, lastVi := j.vi })
  if j.xform ∧ !j.xdone then
    match writesFirst s (dmaSrc (opQuad s j)) j.vi j.ccw 0 4097 with
    | (s, true) => xformStart s cell j
    | (s, false) => s
  else if j.dev = .reading then weftCmd s cell j
  else s

/-- A dispatch of an operation by Shuttle n (R230, R241, R345). -/
def dispatchOp (s : State) (n cell : Nat) (j : JRec) : State :=
  let p := opPort s j
  let d : JRec := { (takenUp j) with shut := none }
  match serverOf s (p / 4) j.subch with
  | none => endOp s cell d cst.PATH_LOST 0 false
  | some _ =>
    if s.flag (CHP_CTL.DISABLE p) then endOp s cell d cst.SUSPENDED 0 false
    else if !s.domOn (dom.quad (p / 4)) then endOp s cell d cst.DARK 0 false
    else if !s.domOn (dom.cluster n) then doorbell s (dom.cluster n)
    else
      match poolCheck s cell j with
      | some s => s
      | none => takeOp s n cell j

/-- SHUTTLE_DISPATCH (R224). -/
def doShuttleDispatch (n : Nat) (s : State) : State :=
  if Config.shuttles ≤ n ∨ (s.shut n).saved then s
  else
    match nextOp (s.shut n).lastVi (dispatchable s n) with
    | none => s
    | some cell =>
      match s.op? cell with
      | some j => dispatchOp s n cell j
      | none => s

/-! ### Channel programs (R211 to R214, R234, R258) -/

/-- CCW_READ (R212). -/
def execCcwRead (cell : Nat) (s : State) : Host.Outcome State Fault Refusal := .next (orWait (ccwStep ccw.READ cell) s)

/-- CCW_WRITE (R212). -/
def execCcwWrite (cell : Nat) (s : State) : Host.Outcome State Fault Refusal := .next (orWait (ccwStep ccw.WRITE cell) s)

/-- CCW_CONTROL (R234). -/
def execCcwControl (cell : Nat) (s : State) : Host.Outcome State Fault Refusal := .next (orWait (ccwStep ccw.CONTROL cell) s)

/-- CCW_SENSE (R212). -/
def execCcwSense (cell : Nat) (s : State) : Host.Outcome State Fault Refusal := .next (orWait (ccwStep ccw.SENSE cell) s)

/-- CCW_NOP (R212). -/
def execCcwNop (cell : Nat) (s : State) : Host.Outcome State Fault Refusal := .next (orWait (ccwStep ccw.NOP cell) s)

/-- CCW_JUMP (R212). -/
def execCcwJump (cell : Nat) (s : State) : Host.Outcome State Fault Refusal := .next (orWait (ccwStep ccw.JUMP cell) s)

/-! ### The device's answer (R218, R234) -/

/-- A command of the operation is at its device. -/
def atDevice (j : JRec) : Bool := j.dev == .sent || j.dev == .aborting

/-- Statuses that a failed NVMe command may give; R234 names none. -/
def nvmeCodes : List Nat := [cst.BAD_PROGRAM, cst.DEVICE_LOST, cst.DATA_CHECK, cst.PATH_LOST]

/-- The bytes that a command has moved once one of its NVMe commands has ended. -/
def nvmeGot (j : JRec) (c : NvmeEnd) : Nat :=
  if j.cmd ≠ ccw.CONTROL then j.got + c.bytes
  else if j.md = 0xFF then 64 + j.got + c.bytes
  else (j.run.map RunCcw.count).sum

/-- The status that a failed NVMe command gives its operation. -/
def nvmeCode (c : NvmeEnd) : Nat := nvmeCodes.getD (Config.nvmeFailure c.status.toNat % nvmeCodes.length) cst.BAD_PROGRAM

/-- What a command's first failed NVMe command leaves in its record. -/
def nvmeNoted (j : JRec) (c : NvmeEnd) : JRec :=
  if c.status = 0 ∨ j.sense ≠ [] then j
  else { j with status := if j.status = cst.OK then nvmeCode c else j.status, dstat := c.status, sense := [c.cqe0, c.cqe1] }

/-- NVME_COMPLETION (R234): a transfer that was split ends with the last of its commands. -/
def doNvmeCompletion (cell : Nat) (c : NvmeEnd) (s : State) : State :=
  match s.op? cell with
  | none => s
  | some j =>
    if !atDevice j ∨ j.state ≠ .active ∨ weftMode s (opPort s j) then s
    else if c.abort then
      match j.goal with
      | some code => endOp s cell { j with got := nvmeGot j c } code j.faddr false
      | none => s
    else
      let j := nvmeNoted { j with got := nvmeGot j c } c
      if 1 < j.cmds then s.setOp cell { j with cmds := j.cmds - 1 }
      else cmdDone s cell j (if j.sense = [] then [c.cqe0, c.cqe1] else j.sense)

/-- NVME_COMPLETION (R234). -/
def execNvmeCompletion (cell : Nat) (c : NvmeEnd) (s : State) : Host.Outcome State Fault Refusal := .next (orWait (doNvmeCompletion cell c) s)

/-- rclk of a millisecond. -/
def msRclk : Nat := 100000

/-- OPERATION_TIMEOUT (R218). -/
def doOperationTimeout (cell : Nat) (s : State) : State :=
  match s.op? cell with
  | none => s
  | some j =>
    if s.stopped ∨ !opOpen j ∨ s.time.now < j.opened + j.tmo * msRclk then s
    else abortOp s cell j cst.TIMEOUT 0

/-- ABORT_CONFIRM_TIMEOUT (R218): the device stays silent for 100 ms. A DATA_CHECK stands (R262). -/
def doAbortConfirmTimeout (cell : Nat) (s : State) : State :=
  match s.op? cell with
  | none => s
  | some j =>
    if s.stopped ∨ j.dev ≠ .aborting ∨ s.time.now < j.mark + 100 * msRclk then s
    else
      let code := if j.goal = some cst.DATA_CHECK then cst.DATA_CHECK else cst.TIMEOUT
      loseSub (endOp s cell j code j.faddr false) j.subch cst.DEVICE_LOST

/-- ABORT_CONFIRM_TIMEOUT (R218). -/
def execAbortConfirmTimeout (cell : Nat) (s : State) : Host.Outcome State Fault Refusal := .next (doAbortConfirmTimeout cell s)

/-! ### Completion (R216, R220, R221, R421) -/

/-- Every data write of an operation has been acknowledged: one that did not end well ends the operation, with DATA_CHECK where a
handover failed and BAD_PROGRAM where the line was not reached (R203, R216; log 45). -/
def opSettled (s : State) (cell : Nat) (j : JRec) : State × JRec :=
  match s.owed.find? (fun o => o.who == opWho cell && o.cmp.isSome) with
  | none => (s, j)
  | some o =>
    let s := takenBack s (opWho cell)
    if j.status ≠ cst.OK then (s, j)
    else
      let code := if o.cmp = some .failed then cst.DATA_CHECK else cst.BAD_PROGRAM
      (s.setScb j.subch { s.scb j.subch with sense := senseRec code j.dstat [] }, { j with status := code, faddr := badTpa s j o.line })

/-- OPERATION_POSTED (R216). In REPLAY the journal posts it (R390). -/
def doOperationPosted (cell : Nat) (s : State) : State :=
  match s.op? cell with
  | none => s
  | some j =>
    if s.stopped ∨ j.state ≠ .ending ∨ xformBusy s cell ∨ s.replays (s.viTenant j.vi) ∨ awaited s (opWho cell) then s
    else
      let (s, j) := opSettled s cell j
      match poolCheck s cell j with
      | some s =>
        (match s.op? cell with
          | some j => post s cell j
          | none => s)
      | none => post s cell j

/-- OPERATION_POSTED (R216). -/
def execOperationPosted (cell : Nat) (s : State) : Host.Outcome State Fault Refusal := .next (doOperationPosted cell s)

/-- A ring write failed at an address (R421). -/
def ringFail (s : State) (v addr : Nat) : State := raiseAt (s.putFlag (CHS_VI_CFG.RINGFAULT v) true) src.acceptor .UC addr

/-- The ring entry of a record failed: it is written again from step 1 (R421). -/
def ringAgain (s : State) (cell : Nat) (j : JRec) (addr : Nat) : State :=
  ringFail ((takenBack s (ringWho cell)).setOp cell { j with half := false, wrote := false }) j.vi addr

/-- A ring write of a record met a hole or a dark block. -/
def ringBad (s : State) (cell : Nat) : Bool := (wentBad s (ringWho cell)).any CmpEnd.refuses

/-- Word 7 of an entry, once the writes of words 0 to 6 are performed (R221). -/
def ringLast (s : State) (cell : Nat) (j : JRec) (slot : Nat) : State :=
  let v := j.vi
  let src := dmaSrc (opQuad s j)
  let a := ringAddr s v slot
  if awaited s (ringWho cell) then s
  else if ringBad s cell then ringAgain s cell j a
  else
    match viSpan s src v (a + 56) 8 .store with
    | (s, none) => ringAgain s cell j (a + 56)
    | (s, some x) =>
      let w := ofBytes (bytesOfWords ((completionRecord j).drop 7))
      let (s, r, _) := writeBytesFor (ringWho cell) (takenBack s (ringWho cell)) src (s.viTenant v) x.pa 8 w false none
      if r ≠ .ok then ringAgain s cell j (a + 56) else s.setOp cell { j with wrote := true }

/-- The entry of a record at its slot: the dirty bit, words 0 to 6, then word 7 (R221). -/
def ringEntry (s : State) (cell : Nat) (j : JRec) (slot : Nat) : State :=
  let v := j.vi
  let src := dmaSrc (opQuad s j)
  let a := ringAddr s v slot
  if j.half then ringLast s cell j slot
  else
    match dirtyPage s src v (a / 4096) with
    | (s, some f) => ringFail s v f
    | (s, none) =>
      match viSpan s src v a 56 .store with
      | (s, none) => ringFail s v a
      | (s, some x) =>
        let w := ofBytes (bytesOfWords ((completionRecord j).take 7))
        let (s, r, _) := writeBytesFor (ringWho cell) s src (s.viTenant v) x.pa 56 w false none
        if r ≠ .ok then ringAgain s cell j a
        else
          let k : JRec := { j with half := true }
          ringLast (s.setOp cell k) cell k slot

/-- A slot at HEAD for a record, which is journaled with it; none while the ring is full. -/
def ringSlot (s : State) (j : JRec) : Option (State × JRec) :=
  match j.slot with
  | some _ => some (s, j)
  | none =>
    let v := j.vi
    let h := s.get (VI_CQHEAD.HEAD v)
    let n := ringSize s v
    if (h + 1) % n = s.get (VI_CQTAIL.TAIL v) then none
    else
      let lap := mget s.chs.laps v 1
      let lap' := if h + 1 = n then lap + 1 else lap
      let s := (s.put (VI_CQHEAD.HEAD v) ((h + 1) % n)).putFlag (VI_CQHEAD.PHASE v) (lap' % 2 == 1)
      some ({ s with chs := { s.chs with laps := mput s.chs.laps v lap' 1 } }, { j with slot := some h, phase := lap % 2 == 1 })

/-- The oldest POSTED record of a VI that is not in its ring is written there. -/
def ringWrite (s : State) (v : Nat) : State :=
  let waits := (s.postedOf v).filter (fun c => match s.op? c with
    | some j => !j.wrote
    | none => false)
  match waits.head? with
  | none => s
  | some cell =>
    match s.op? cell with
    | none => s
    | some j =>
      match ringSlot s j with
      | none => s
      | some (s, j) => ringEntry (s.setOp cell j) cell j (j.slot.getD 0)

/-- COMPLETION_RING_WRITE (R221). -/
def doCompletionRingWrite (vi : Nat) (s : State) : State :=
  if s.stopped ∨ s.flag (CHS_VI_CFG.RINGFAULT vi) then s else ringWrite s vi

/-- COMPLETION_RING_WRITE (R221). -/
def execCompletionRingWrite (vi : Nat) (s : State) : Host.Outcome State Fault Refusal := .next (orWait (doCompletionRingWrite vi) s)

/-- OPERATION_RETIRE (R216). -/
def doOperationRetire (cell : Nat) (s : State) : State :=
  match s.op? cell with
  | none => s
  | some j =>
    if s.stopped ∨ j.state ≠ .posted ∨ !j.wrote ∨ j.door.isSome ∨ awaited s (ringWho cell) then s
    else if ringBad s cell then ringAgain s cell j (ringAddr s j.vi (j.slot.getD 0))
    else
      let s := freeOp (takenBack s (ringWho cell)) cell j
      let s := if mirrors s then { s with chs := { s.chs with retired := s.chs.retired ++ [(j.subch, j.seq, s.spl.epochNow)] } } else s
      if j.notify then
        evqNotice s (s.viTenant j.vi) j.ncord (BitVec.ofNat 64 (ringAddr s j.vi (j.slot.getD 0))) (evDesc ev.CHANNEL j.vi j.status)
      else s

/-- OPERATION_RETIRE (R216). -/
def execOperationRetire (cell : Nat) (s : State) : Host.Outcome State Fault Refusal := .next (doOperationRetire cell s)

/-- CQ_TAIL_WRITE (R221). -/
def execCqTailWrite (vi : Nat) (v : Word) (w : Who) (s : State) : Host.Outcome State Fault Refusal :=
  .next (if pageOpen s vi w then hostWrite s (VI_CQTAIL.off vi) v else s)

/-! ### Set-up (R225, R235 to R237, R421) -/

/-- The VI is enabled: ring pointers and lap are reset (R236). -/
def viStart (s : State) (v : Nat) : State :=
  let s := ((s.put (VI_CQHEAD.HEAD v) 0).putFlag (VI_CQHEAD.PHASE v) true).put (VI_CQTAIL.TAIL v) 0
  { s with chs := { s.chs with laps := mdel s.chs.laps v } }

/-- A quota kept where the reservations would exceed the pool, with QREFUSE (R225). -/
def quotaCheck (old new : State) (f : Fld) : State :=
  if old.get f < new.get f ∧ Config.poolCells < poolHeld new false then (new.put f (old.get f)).putFlag CHS_POOL.QREFUSE true else new

/-- A write of CHS_VI_v_CFG (R225, R236, R237, R421). One that clears EN while operations are queued is ignored. -/
def viCfgWrite (v : Nat) (w : Word) (s : State) : State :=
  let off := CHS_VI_CFG.off v
  let en := s.flag (CHS_VI_CFG.EN v)
  let x := taken s off w
  if 4096 ≤ v ∨ (en ∧ !bitAt x 0 ∧ s.get (CHS_VI_CFG.QUEUED v) ≠ 0) then s
  else
    let fault := s.flag (CHS_VI_CFG.RINGFAULT v)
    let s := poolUpdate (quotaCheck s (hostWrite s off w) (CHS_VI_CFG.QUOTA v))
    let s := if !en ∧ s.flag (CHS_VI_CFG.EN v) then viStart s v else s
    let s := if bitAt x 1 ∧ bitAt x 2 then
        (opsWith s (fun j => j.vi == v && j.state == .accepted)).foldl (fun s c => endIfOpen s c cst.SUSPENDED) s
      else s
    if fault ∧ !s.flag (CHS_VI_CFG.RINGFAULT v) then orWait (fun s => ringWrite s v) s else s

/-- RINGFAULT_CLEAR (R421). -/
def execRingfaultClear (vi : Nat) (v : Word) (s : State) : Host.Outcome State Fault Refusal := .next (viCfgWrite vi v s)

/-- VI_ENABLE (R236). -/
def execViEnable (vi : Nat) (v : Word) (s : State) : Host.Outcome State Fault Refusal := .next (viCfgWrite vi v s)

/-- VI_SUSPEND (R237). -/
def execViSuspend (vi : Nat) (v : Word) (s : State) : Host.Outcome State Fault Refusal := .next (viCfgWrite vi v s)

/-- VI_CANCEL (R237). -/
def execViCancel (vi : Nat) (v : Word) (s : State) : Host.Outcome State Fault Refusal := .next (viCfgWrite vi v s)

/-- VI_QUOTA_WRITE (R225). -/
def execViQuotaWrite (vi : Nat) (v : Word) (s : State) : Host.Outcome State Fault Refusal := .next (viCfgWrite vi v s)

/-- A write of CHS_EVQ_c (R225). -/
def evqWrite (c : Nat) (w : Word) (s : State) : State :=
  if Config.cords ≤ c then s else poolUpdate (quotaCheck s (hostWrite s (CHS_EVQ.off c) w) (CHS_EVQ.QUOTA c))

/-- EVQ_QUOTA_WRITE (R225). -/
def execEvqQuotaWrite (c : Nat) (v : Word) (s : State) : Host.Outcome State Fault Refusal := .next (evqWrite c v s)

/-- A write of CHS_DCINV (R235). -/
def doDcInvalidate (v : Word) (s : State) : State :=
  let go := bitAt (taken s CHS_DCINV.off v) 0
  let s := hostWrite s CHS_DCINV.off v
  if go then s.putFlag CHS_DCINV.BUSY true else s

/-- DC_INVALIDATE (R235). -/
def execDcInvalidate (v : Word) (s : State) : Host.Outcome State Fault Refusal := .next (doDcInvalidate v s)

/-- DC_INVALIDATE_DONE (R235). -/
def doDcInvalidateDone (s : State) : State :=
  if s.flag CHS_DCINV.BUSY then { s.putFlag CHS_DCINV.BUSY false with chs := { s.chs with dc := [], grants := [] } } else s

/-- DC_INVALIDATE_DONE (R235). -/
def execDcInvalidateDone (s : State) : Host.Outcome State Fault Refusal := .next (doDcInvalidateDone s)

/-- A write of CHS_CFG: once the cache is disabled, the homes track it no more (R164). -/
def chsCfgWrite (v : Word) (s : State) : State :=
  let on := s.flag CHS_CFG.DCEN
  let s := hostWrite s CHS_CFG.off v
  if on ∧ !s.flag CHS_CFG.DCEN then s.dir.foldl (fun s e => if e.2.holders.contains dcSrc then dirForget s e.1 dcSrc else s) s else s

/-- DESCRIPTOR_CACHE_ENABLE (R164). -/
def execDescriptorCacheEnable (v : Word) (s : State) : Host.Outcome State Fault Refusal := .next (chsCfgWrite v s)

/-! ### Coinciding events (R217) -/

/-- An acceptance with what comes in its fclk: the suspension, the HALT and the retirement act first (R217). -/
def acceptWith (vi : Nat) (same : AcceptWith) (s : State) : State :=
  let s := match same.cfg with
    | some w => viCfgWrite vi w s
    | none => s
  let s := match same.cmd with
    | some w => scWrite s w 4 scHaltGo
    | none => s
  let s := match same.retire with
    | some c => doOperationRetire c s
    | none => s
  doAcceptance vi same.slot s

/-- ACCEPTANCE (R208). -/
def execAcceptance (vi : Nat) (slot : AcceptWith) (s : State) : Host.Outcome State Fault Refusal :=
  .next (orWait (acceptWith vi slot) s)

/-! ### Shuttles (R231, R233) -/

/-- The running context of a Shuttle saved in its data memory, at a place of the module's own (R231; log 45). -/
def saveShuttle (s : State) (n : Nat) : State :=
  s.modShut n (fun x => { x with
    saved := true
    dmem := (ctxBody x.core).zipIdx.foldl (fun m e => tableWrite m (Config.shutSave % 0x1F000 + 8 * e.2) e.1.toNat 8) x.dmem })

/-- SHUTTLE_BEAT_STOP (R231). -/
def doShuttleBeatStop (n : Nat) (s : State) : State :=
  if Config.shuttles ≤ n ∨ s.get (CHS_SHUT.STATE n) ≠ shutst.RUNNING ∨ !beatClosing s (32 + s.get (CHS_SHUT.QUAD n)) then s
  else saveShuttle s n

/-- SHUTTLE_BEAT_STOP (R231). -/
def execShuttleBeatStop (n : Nat) (s : State) : Host.Outcome State Fault Refusal := .next (doShuttleBeatStop n s)

/-- An operation whose Shuttle has gone: a DISPATCHED one is dispatched again, an ACTIVE one on a Weft port waits to be sent
again, one on a PCIe port completes DEVICE_LOST (R233). -/
def orphan (s : State) (cell : Nat) : State :=
  match s.op? cell with
  | none => s
  | some j =>
    match j.state with
    | .dispatched => shutDrop (s.setOp cell { j with shut := none }) cell
    | .active =>
      if weftMode s (opPort s j) then shutDrop (s.setOp cell { j with shut := none }) cell
      else endOp s cell j cst.DEVICE_LOST 0 false
    | _ => s

/-- The operations that Shuttle n holds. -/
def heldBy (s : State) (n : Nat) : List Nat := opsWith s (fun j => opTaken j && j.shut == some n)

/-- A Weft operation sent again with its SEQ: the command at hand, on the Shuttle that serves it now (R233). -/
def resend (s : State) (cell : Nat) : State :=
  match s.op? cell with
  | none => s
  | some j =>
    if j.state ≠ .active ∨ !weftMode s (opPort s j) then s
    else
      let n := serverOf s (opQuad s j) j.subch
      let j : JRec := { j with shut := n }
      let s := s.setOp cell j
      if (j.dev = .sent ∨ j.dev = .reading) ∧ n.isSome ∧ linkUp s (opPort s j) then weftCmd s cell j else s

/-- A Shuttle that is not restarted any more: FAILED, its domain off with the other Shuttles of the cluster (R233). -/
def shutFail (s : State) (n : Nat) : State :=
  let k := n / 4
  let ops := (List.range 4).flatMap (fun i => heldBy s (4 * k + i))
  let s := (List.range 4).foldl (fun s i =>
    let m := 4 * k + i
    if s.get (CHS_SHUT.STATE m) = shutst.FAILED then s else s.put (CHS_SHUT.STATE m) (if m = n then shutst.FAILED else shutst.OFF)) s
  let s := ops.foldl (fun s c => resend (orphan s c) c) s
  (setDom s (dom.cluster n) pst.OFF).putFlag (FCU_SRC.FAILED (dom.cluster n)) true

/-- A Shuttle block-reset for a restart. -/
def shutRestart (s : State) (n : Nat) : State :=
  let rs := (s.shut n).restarts.filter (fun t => s.time.now < t + Config.minuteRclk)
  if Config.maxRestarts ≤ rs.length then shutFail s n
  else
    let s := s.modShut n (fun x => { x with restarts := s.time.now :: rs, core := Core.zero, saved := false, cell := none })
    (s.bump (CHS_SHUT.RESTARTS n) 1).put (CHS_SHUT.STATE n) shutst.RESTARTING

/-- The operations of a Shuttle that runs no more go to another, or end (R233). -/
def shutLost (s : State) (n : Nat) : State :=
  let st := s.get (CHS_SHUT.STATE n)
  if st = shutst.FAILED ∨ st = shutst.OFF then (heldBy s n).foldl (fun s c => resend (orphan s c) c) s else s

/-- SHUTTLE_RESTART (R233): a Shuttle that has halted, or whose cluster is held in block reset; the operations of one that has FAILED are
taken from it. -/
def doShuttleRestart (n : Nat) (s : State) : State :=
  if Config.shuttles ≤ n then s
  else if s.get (CHS_SHUT.STATE n) ≠ shutst.RUNNING then shutLost s n
  else if (s.shut n).core.run = .halted ∨ s.fcu.held.contains (dom.cluster n) then shutRestart s n
  else s

/-- SHUTTLE_RESTART (R233). -/
def execShuttleRestart (n : Nat) (s : State) : Host.Outcome State Fault Refusal := .next (orWait (doShuttleRestart n) s)

/-- The firmware of a Shuttle runs again from the copy of the image, from the start of its instruction memory (R233). -/
def shutLoad (s : State) (n : Nat) : State :=
  let s := match s.boot.copy with
    | some c => loadShuttleFw s c n
    | none => s
  (s.modShut n (fun x => { x with core := { Core.zero with lvl := .H, run := .running }, saved := false, cell := none })).put
    (CHS_SHUT.STATE n) shutst.RUNNING

/-- SHUTTLE_RESTART_DONE (R233). -/
def doShuttleRestartDone (n : Nat) (s : State) : State :=
  if Config.shuttles ≤ n ∨ s.get (CHS_SHUT.STATE n) ≠ shutst.RESTARTING ∨ s.fcu.held.contains (dom.cluster n) then s
  else
    let ops := heldBy s n
    let s := shutLoad s n
    ops.foldl (fun s c => resend (orphan s c) c) s

/-- SHUTTLE_RESTART_DONE (R233). -/
def execShuttleRestartDone (n : Nat) (s : State) : Host.Outcome State Fault Refusal := .next (orWait (doShuttleRestartDone n) s)

end Sys2Proof.Machine
end

