-- ==== Sys2Proof/Machine/Stack.lean ====
section
/-! DEFINITION. Stack manipulation, majors 0x01 to 0x03 (R71, R83). -/

namespace Sys2Proof.Machine

/-- N of an operation (R83). -/
def opndN (f : FO) : Nat := f.opnd.toNat % 32

/-- Entries rearranged: those read, top first, give those pushed, in order. -/
def shuffle (a : Agent) (reads pops : Nat) (pushes : Nat) (f : List Word → List Word) : InsnWord → State → State × Got Done :=
  stackOp a reads pops pushes fun _ ins => .ok (Out.push (f ins))

/-- Entries 0 and n exchanged in place. -/
def swapEntries (n : Nat) (c : List SEnt) : List SEnt :=
  match c.head?, (c.drop n).head? with
  | some x, some y => (c.set 0 { x with val := y.val }).set n { y with val := x.val }
  | _, _ => c

/-- The value lies within the current level's stack (R71); bits [2:0] and [63:48] are ignored. -/
def newSp (k : Core) (v : Word) : Got Word :=
  let x := keepBits v spMask
  let l := k.stkOf k.lvl
  if x.toNat < l.sl.toNat ∨ l.sb.toNat < x.toNat then .trap { cause := trap.STACK_LIMIT, eval := l.sp } else .ok x

/-- SP of the current level replaced after a spill of the whole cache (R70, R71). -/
def Core.moveSp (k : Core) (tenant : Nat) (x : Word) : Core := (k.spillAll tenant).setSp x.toNat

/-- SETSP after its stack check. -/
def setSpBody (a : Agent) (w : InsnWord) (s : State) : State × Got Done :=
  andThen (stackStep s a w 1 1 0) fun s st =>
  andThen (s, newSp (s.core a) (inp st.ins 0)) fun s x =>
    (s, .ok { next := none, result := 0, after := id
              apply := fun s => s.modCore a (fun k => (k.popN 1).moveSp (s.agentTenant a) x) })

/-- DROP (R83): a → -/
def doDrop (a : Agent) (f : FO) : State → State :=
  runInsn a (.drop a f) f.cond .U .runs <|
    shuffle a 1 1 0 fun _ => []

/-- DROP (R83). -/
def execDrop (a : Agent) (f : FO) (s : State) : Host.Outcome State Fault Refusal := .next (doDrop a f s)

/-- DUP (R83): a → a a -/
def doDup (a : Agent) (f : FO) : State → State :=
  runInsn a (.dup a f) f.cond .U .runs <|
    shuffle a 1 1 2 fun i => [inp i 0, inp i 0]

/-- DUP (R83). -/
def execDup (a : Agent) (f : FO) (s : State) : Host.Outcome State Fault Refusal := .next (doDup a f s)

/-- SWAP (R83): a b → b a -/
def doSwap (a : Agent) (f : FO) : State → State :=
  runInsn a (.swap a f) f.cond .U .runs <|
    shuffle a 2 2 2 fun i => [inp i 0, inp i 1]

/-- SWAP (R83). -/
def execSwap (a : Agent) (f : FO) (s : State) : Host.Outcome State Fault Refusal := .next (doSwap a f s)

/-- OVER (R83): a b → a b a -/
def doOver (a : Agent) (f : FO) : State → State :=
  runInsn a (.over a f) f.cond .U .runs <|
    shuffle a 2 2 3 fun i => [inp i 1, inp i 0, inp i 1]

/-- OVER (R83). -/
def execOver (a : Agent) (f : FO) (s : State) : Host.Outcome State Fault Refusal := .next (doOver a f s)

/-- ROT (R83): a b c → b c a -/
def doRot (a : Agent) (f : FO) : State → State :=
  runInsn a (.rot a f) f.cond .U .runs <|
    shuffle a 3 3 3 fun i => [inp i 1, inp i 0, inp i 2]

/-- ROT (R83). -/
def execRot (a : Agent) (f : FO) (s : State) : Host.Outcome State Fault Refusal := .next (doRot a f s)

/-- NIP (R83): a b → b -/
def doNip (a : Agent) (f : FO) : State → State :=
  runInsn a (.nip a f) f.cond .U .runs <|
    shuffle a 2 2 1 fun i => [inp i 0]

/-- NIP (R83). -/
def execNip (a : Agent) (f : FO) (s : State) : Host.Outcome State Fault Refusal := .next (doNip a f s)

/-- DUPN (R83): a copy of entry N is pushed; depth N + 1 is needed. -/
def doDupn (a : Agent) (f : FO) : State → State :=
  runInsn a (.dupn a f) f.cond .U .runs <|
    shuffle a ((opndN f) + 1) 0 1 fun i => [inp i (opndN f)]

/-- DUPN (R83). -/
def execDupn (a : Agent) (f : FO) (s : State) : Host.Outcome State Fault Refusal := .next (doDupn a f s)

/-- XCHN (R83): entry 0 and entry N change places. -/
def doXchn (a : Agent) (f : FO) : State → State :=
  runInsn a (.xchn a f) f.cond .U .runs <|
    stackOp a ((opndN f) + 1) 0 0 fun _ _ => .ok { vals := [], upd := fun k => { k with cache := swapEntries (opndN f) k.cache }, next := none }

/-- XCHN (R83). -/
def execXchn (a : Agent) (f : FO) (s : State) : Host.Outcome State Fault Refusal := .next (doXchn a f s)

/-- DROPN (R83): N entries are popped. -/
def doDropn (a : Agent) (f : FO) : State → State :=
  runInsn a (.dropn a f) f.cond .U .runs <|
    shuffle a (opndN f) (opndN f) 0 fun _ => []

/-- DROPN (R83). -/
def execDropn (a : Agent) (f : FO) (s : State) : Host.Outcome State Fault Refusal := .next (doDropn a f s)

/-- DEPTH (R83): the depth before the push. -/
def doDepth (a : Agent) (f : FO) : State → State :=
  runInsn a (.depth a f) f.cond .U .runs <|
    stackOp a 0 0 1 fun k _ => .ok (Out.push [BitVec.ofInt 64 k.depth])

/-- DEPTH (R83). -/
def execDepth (a : Agent) (f : FO) (s : State) : Host.Outcome State Fault Refusal := .next (doDepth a f s)

/-- GETSP (R83): SP before the push. -/
def doGetsp (a : Agent) (f : FO) : State → State :=
  runInsn a (.getsp a f) f.cond .U .runs <|
    stackOp a 0 0 1 fun k _ => .ok (Out.push [(k.stkOf k.lvl).sp])

/-- GETSP (R83). -/
def execGetsp (a : Agent) (f : FO) (s : State) : Host.Outcome State Fault Refusal := .next (doGetsp a f s)

/-- SETSP (R71, R83): v →; SP moves within SL and SB after a spill. -/
def doSetsp (a : Agent) (f : FO) : State → State :=
  runInsn a (.setsp a f) f.cond .U .runs <|
    setSpBody a

/-- SETSP (R71, R83). -/
def execSetsp (a : Agent) (f : FO) (s : State) : Host.Outcome State Fault Refusal := .next (doSetsp a f s)

/-- PUSH (R83): → sext(IMM22) -/
def doPush (a : Agent) (f : FI) : State → State :=
  runInsn a (.push a f) f.cond .U .runs <|
    stackOp a 0 0 1 fun _ _ => .ok (Out.push [f.imm.signExtend 64])

/-- PUSH (R83). -/
def execPush (a : Agent) (f : FI) (s : State) : Host.Outcome State Fault Refusal := .next (doPush a f s)

/-- PUSHH (R83): a → (a << 21) OR IMM21 -/
def doPushh (a : Agent) (f : FH) : State → State :=
  runInsn a (.pushh a f) f.cond .U .runs <|
    stackOp a 1 1 1 fun _ ins => .ok (Out.push [(inp ins 0 <<< 21) ||| f.imm.zeroExtend 64])

/-- PUSHH (R83). -/
def execPushh (a : Agent) (f : FH) (s : State) : Host.Outcome State Fault Refusal := .next (doPushh a f s)

end Sys2Proof.Machine
end

