-- ==== Sys2Proof/Machine/System.lean ====
section
/-! DEFINITION. System instructions, major 0x00 (R70 to R72, R82, R95 to R97, R125), and the wakes of WAITE and TLBSYNC. -/

namespace Sys2Proof.Machine

/-! ### Bodies -/

/-- A body that completes with a change of the state. -/
def doneWith (s : State) (apply : State → State) : State × Got Done :=
  (s, .ok { next := none, result := 0, apply := apply, after := id })

/-- A body that pops p entries, answers a value, and changes the state. -/
def popsThen (a : Agent) (p : Nat) (w : InsnWord) (s : State) (f : State → List Word → State × Got (State → State)) :
    State × Got Done :=
  andThen (stackStep s a w p p 0) fun s st =>
  andThen (f s st.ins) fun s g =>
    doneWith s (fun s => g (s.modCore a (fun k => k.popN p)))

/-! ### Control registers (R72) -/

/-- EVQ_STAT: records queued, and discards since the last OVERFLOW record; a count that its field cannot hold saturates (DESIGN
CHOICE, log 40). A Shuttle has no queue (DEDUCED, log 40). -/
def evqStat (s : State) : Agent → Word
  | .cord c =>
    let q := s.evq (s.tenantOf c) c
    BitVec.ofNat 64 (min q.recs.length 0xFFFF + min q.lost 0xFFFF * 2 ^ 16)
  | .shuttle _ => 0

/-- The number by which an agent names itself, in CORDID and as the source of a signal: of a Shuttle its own (DESIGN CHOICE, log 40). -/
def agentNumber : Agent → Nat
  | .cord c => c
  | .shuttle n => n

def stkReg (x : LvlStk) : Nat → Word
  | 0 => x.sp
  | 1 => x.sb
  | _ => x.sl

def trReg (x : TrapRegs) : Nat → Word
  | 0 => x.tvec
  | 1 => x.epc
  | 2 => x.estat
  | 3 => x.eval
  | _ => x.gate

def readCr (s : State) (a : Agent) (n : Nat) : Word :=
  let k := s.core a
  if n = 0 then k.flags
  else if n = 1 then k.pstate
  else if n = 2 then k.fcsr
  else if n = 3 then BitVec.ofNat 64 (agentNumber a)
  else if n = 4 then k.retire
  else if n = 5 then evqStat s a
  else if n < 0x14 then stkReg k.stkU (n - 0x10)
  else if n < 0x18 then stkReg k.stkS (n - 0x14)
  else if n < 0x20 then stkReg k.stkH (n - 0x18)
  else if n < 0x28 then trReg k.trS (n - 0x20)
  else if n < 0x30 then trReg k.trH (n - 0x28)
  else if n = 0x30 then k.ptbr
  else k.s2br

def setStk (x : LvlStk) (i : Nat) (v : Word) : LvlStk :=
  match i with
  | 0 => { x with sp := v }
  | 1 => { x with sb := v }
  | _ => { x with sl := v }

def setTrReg (x : TrapRegs) (i : Nat) (v : Word) : TrapRegs :=
  match i with
  | 0 => { x with tvec := keepBits v tvecMask }
  | 1 => { x with epc := keepBits v epcMask }
  | 2 => { x with estat := keepBits v estatMask }
  | 3 => { x with eval := v }
  | _ => { x with gate := keepBits v gateMask }

/-- A control register written; reserved bits are ignored. The current level's SP is written by the instruction itself. -/
def Core.writeCr (k : Core) (n : Nat) (v : Word) : Core :=
  if n = 0 then { k with flags := keepBits v 15 }
  else if n = 1 then { k with ee := bitAt v.toNat 2 }
  else if n = 2 then
    let x := keepBits v fcsrMask
    { k with fcsr := x, fpCount := pendCount (fcsrPend x) k.fpCount }
  else if n < 0x14 then { k with stkU := setStk k.stkU (n - 0x10) (keepBits v spMask) }
  else if n < 0x18 then { k with stkS := setStk k.stkS (n - 0x14) (keepBits v spMask) }
  else if n < 0x20 then { k with stkH := setStk k.stkH (n - 0x18) (keepBits v spMask) }
  else if n < 0x28 then { k with trS := setTrReg k.trS (n - 0x20) v }
  else if n < 0x30 then { k with trH := setTrReg k.trH (n - 0x28) v }
  else if n = 0x30 then { k with ptbr := keepBits v ptbrMask }
  else { k with s2br := keepBits v s2brMask }

/-- A reserved encoding in a defined field. -/
def crRefuses (n : Nat) (v : Word) : Bool :=
  if n = 2 then decide (4 < bits v.toNat 0 3)
  else if n = 0x22 ∨ n = 0x2A then decide (0x10 < bits v.toNat 0 8) || bits v.toNat 8 2 == 3
  else false

/-- The number of a level's SP register. -/
def spNumber : Level → Nat
  | .U => 0x10
  | .S => 0x14
  | .H => 0x18

/-- WRCR after its stack check (R71, R72). -/
def wrcrBody (a : Agent) (n : Nat) (w : InsnWord) (s : State) : State × Got Done :=
  andThen (stackStep s a w 1 1 0) fun s st =>
    let v := inp st.ins 0
    let k := s.core a
    if crRefuses n v then trapAt s trap.ILLEGAL n
    else if n = spNumber k.lvl then
      andThen (s, newSp k v) fun s x =>
        doneWith s (fun s => s.modCore a (fun k => (k.popN 1).moveSp (s.agentTenant a) x))
    else doneWith s (fun s => s.modCore a (fun k => (k.popN 1).writeCr n v))

/-- Inside a knot WRCR of FLAGS and FCSR is performed, of any other register it slips (R146). -/
def wrcrKnot (n : Nat) : KnotRule := if n = 0 ∨ n = 2 then .runs else .unsupported

/-! ### TRET (R95) -/

def estatLevel (x : Word) : Nat := bits x.toNat 8 2

/-- The level that an agent changes to: a Shuttle stays at H (R100). -/
def levelFor (a : Agent) (l : Level) : Level :=
  match a with
  | .cord _ => l
  | .shuttle _ => .H

def tretBody (a : Agent) (w : InsnWord) (s : State) : State × Got Done :=
  let k := s.core a
  let r := k.trOf k.lvl
  let p := estatLevel r.estat
  if lvlCode k.lvl < p then trapAt s trap.PRIV w.toNat
  else
    (s, .ok { next := some r.epc, result := 0, after := id, apply := fun s => s.modCore a (fun k =>
      let dst := levelFor a (lvlOfCode p)
      let k := if dst = k.lvl then k else k.spillAll (s.agentTenant a)
      let k := k.setTr k.lvl { r with estat := r.estat &&& ~~~0x800#64 }
      { k with lvl := dst, ee := bitAt r.estat.toNat 10 }) })

/-! ### Events (R82, R97, R99) -/

/-- The oldest record of the cord's queue taken away; an OVERFLOW record follows when space has returned. -/
def evqPop (s : State) (c : Nat) : State :=
  let t := s.tenantOf c
  let q := s.evq t c
  evqOverflow (evqUpdateUsed (s.setEvq t c { q with recs := q.recs.tail }) c) t c

/-- Value and descriptor of the oldest record, 0 and 0 without one. -/
def evqFront (s : State) : Agent → Word × Word
  | .cord c => (s.evq (s.tenantOf c) c).recs.headD (0, 0)
  | .shuttle _ => (0, 0)

def evpopBody (a : Agent) (w : InsnWord) (s : State) : State × Got Done :=
  andThen (stackStep s a w 0 0 2) fun s st =>
    let r := evqFront s a
    (s, .ok { next := none, result := r.2, after := id, apply := fun s =>
      let s := s.modCore a (fun k => k.replace (s.agentTenant a) 0 ([r.1, r.2].zip st.homes))
      match a with
      | .cord c => evqPop s c
      | .shuttle _ => s })

/-- The cord's event queue holds a record. Queues belong to pairs of tenant and cord (R97), so a Shuttle has none: its WAITE waits for
ever, and its EVPOP finds nothing (DEDUCED, log 40). -/
def eventReady (s : State) : Agent → Bool
  | .cord c => !(s.evq (s.tenantOf c) c).recs.isEmpty
  | .shuttle _ => false

/-- The tenant under which a signal to a cord is queued (R82). -/
def signalTenant (s : State) (c : Nat) : Nat := if s.assigned c then s.tenantOf c else 0

/-- A signal may be sent to the cord (R82). At H too a number beyond the cords of the mode names no cord, and traps PRIV (DESIGN
CHOICE, log 40). -/
def signalOk (s : State) (a : Agent) (target : Nat) : Bool :=
  decide (target < s.cordCount)
    && ((s.core a).lvl == .H || (s.assigned target && s.tenantOf target == s.agentTenant a))

def signalBody (a : Agent) (w : InsnWord) (s : State) : State × Got Done :=
  popsThen a 2 w s fun s ins =>
    let target := (inp ins 1).toNat
    if !signalOk s a target then trapAt s trap.PRIV w.toNat
    else
      (s, .ok fun s => evqSend s (signalTenant s target) target (inp ins 0) (evDesc ev.SIGNAL (agentNumber a) 0)
        (match a with
          | .cord c => some c
          | .shuttle _ => none))

/-! ### RDTIME (R82) -/

def rdtimeBody (a : Agent) (w : InsnWord) (s : State) : State × Got Done :=
  andThen (stackStep s a w 0 0 1) fun s st =>
    let (s, x) : State × Nat := match a with
      | .cord c => if s.replayed c then replayValue s c else (s, s.rdtime)
      | .shuttle _ => (s, s.rdtime)
    let t := BitVec.ofNat 64 x
    (s, .ok { next := none, result := t, after := id, apply := fun s =>
      let s := match a with
        | .cord c => stageValue s c t.toNat 0 8
        | .shuttle _ => s
      s.modCore a (fun k => k.replace (s.agentTenant a) 0 ([t].zip st.homes)) })

/-! ### RETG (R96) -/

/-- The results pushed on the caller's stack, in their original order. -/
def retgBody (a : Agent) (r : Nat) (w : InsnWord) (s : State) : State × Got Done :=
  let k := s.core a
  andThen (stackStep s a w (r + 2) (r + 2) 0) fun s st =>
    let ret := inp st.ins (r + 1)
    let ps := inp st.ins r
    let p := bits ps.toNat 0 2
    if lvlCode k.lvl ≤ p then trapAt s trap.PRIV w.toNat
    else
      let dst := levelFor a (lvlOfCode p)
      let sp : Word := if dst = k.lvl then BitVec.ofNat 64 (k.sp + 8 * (r + 2)) else (k.stkOf dst).sp
      if !k.stackOk dst 0 r then trapAt s trap.STACK_LIMIT sp.toNat
      else if ret.toNat % 4 ≠ 0 then (s, .trap { cause := trap.ALIGN, eval := ret })
      else
        andThen (homesBelow s a w dst sp.toNat r) fun s hs =>
          let res := (st.ins.take r).reverse
          (s, .ok { next := some ret, result := res.getLastD 0, after := id, apply := fun s => s.modCore a (fun k =>
            let t := s.agentTenant a
            let k := ((k.popN (r + 2)).spillAll t)
            ({ k with lvl := dst, ee := bitAt ps.toNat 2 }).replace t 0 (res.zip hs)) })

/-! ### Address generators (R82) -/

def agIndex (f : FO) : Nat := f.opnd.toNat / 8 % 8
def agPart (f : FO) : Nat := f.opnd.toNat % 8

def wragBody (a : Agent) (f : FO) (w : InsnWord) (s : State) : State × Got Done :=
  popsThen a 1 w s fun s ins =>
    let v := inp ins 0
    if agPart f = 4 ∧ 32 < v.toNat then (s, .trap { cause := trap.ILLEGAL, eval := v })
    else (s, .ok fun s => s.modCore a (fun k => k.setAg (agIndex f) ((k.ag (agIndex f)).setPart (agPart f) v)))

/-! ### TLB maintenance (R125) -/

/-- The entries that an invalidation removes. -/
def TlbInv.hits (i : TlbInv) (e : TlbEnt) : Bool :=
  match i with
  | .va t p x => e.tenant == t && e.vpage == p && (e.global || e.asid == x)
  | .asid t x => e.tenant == t && !e.global && e.asid == x
  | .s1all t => e.tenant == t
  | .ipa t p => e.tenant == t && e.ipage == p
  | .tenant t => e.tenant == t

/-- An invalidation concerns data that an operation has laid out by the channel translation caches, which act on TLBI.IPA and
TLBI.TENANT alone (R205). -/
def TlbInv.hitsOp (s : State) (i : TlbInv) (j : JRec) : Bool :=
  match i with
  | .ipa t p => s.get (CHS_VI_CFG.TENANT j.vi) == t && j.spans.any (fun x => x.tpa / 4096 == p)
  | .tenant t => s.get (CHS_VI_CFG.TENANT j.vi) == t && !j.spans.isEmpty
  | _ => false

/-- An invalidation applied in every TLB; commands that use a translation which it removes are marked, and a TLBSYNC waits for them. -/
def applyInv (s : State) (i : TlbInv) : State :=
  { s with
    tlb := s.tlb.filter (fun e => !i.hits e)
    chs := { s.chs with cells := s.chs.cells.map (fun (e : Nat × JRec) => (e.1, { e.2 with stale := e.2.stale || i.hitsOp s e.2 })) } }

/-- An invalidation issued: a cord's waits to be applied, a Shuttle's is applied at once. -/
def issueInv (s : State) (a : Agent) (i : TlbInv) : State :=
  match a with
  | .cord c => { s with tlbi := s.tlbi ++ [(c, i)] }
  | .shuttle _ => applyInv s i

/-- The invalidations that a cord has issued applied. -/
def applyInvs (s : State) (c : Nat) : State :=
  (s.tlbi.filter (fun e => e.1 == c)).foldl (fun s e => applyInv s e.2) { s with tlbi := s.tlbi.filter (fun e => e.1 ≠ c) }

/-- The current tenant: 0x000 at H. -/
def currentTenant (s : State) (a : Agent) : Nat := if (s.core a).lvl = .H then 0 else s.agentTenant a

def invBody (a : Agent) (p : Nat) (mk : State → List Word → TlbInv) (w : InsnWord) (s : State) : State × Got Done :=
  popsThen a p w s fun s ins => (s, .ok fun s' => issueInv s' a (mk s ins))

/-- A command of the channel still uses a translation that has been invalidated (R205). -/
def staleOps (s : State) : Bool := s.chs.cells.any (fun (e : Nat × JRec) => e.2.stale)

/-- A cord has issued an invalidation that is not yet applied everywhere. -/
def invPending (s : State) : Agent → Bool
  | .cord c => s.tlbi.any (fun e => e.1 == c) || staleOps s
  | .shuttle _ => false

/-! ### The instructions -/

/-- NOP (R82): nothing. -/
def doNop (a : Agent) (f : FO) : State → State :=
  runInsn a (.nop a f) f.cond .U .runs <|
    plainOp a fun s => doneWith s id

/-- NOP (R82). -/
def execNop (a : Agent) (f : FO) (s : State) : Host.Outcome State Fault Refusal := .next (doNop a f s)

/-- WAITE (R82): waits until the event queue holds a record. -/
def doWaite (a : Agent) (f : FO) : State → State :=
  runInsn a (.waite a f) f.cond .U .unsupported <|
    plainOp a fun s => if eventReady s a then doneWith s id else (s, .park .waitEvent)

/-- WAITE (R82). -/
def execWaite (a : Agent) (f : FO) (s : State) : Host.Outcome State Fault Refusal := .next (doWaite a f s)

/-- RDCR (R72): a control register is pushed. -/
def doRdcr (a : Agent) (f : FO) : State → State :=
  runInsn a (.rdcr a f) f.cond ((crReadLevel f.opnd.toNat).getD .U) .runs <|
    fun w s => andThen (stackStep s a w 0 0 1) fun s st =>
      let v := readCr s a f.opnd.toNat
      (s, .ok { next := none, result := v, after := id, apply := fun s =>
        s.modCore a (fun k => k.replace (s.agentTenant a) 0 ([v].zip st.homes)) })

/-- RDCR (R72). -/
def execRdcr (a : Agent) (f : FO) (s : State) : Host.Outcome State Fault Refusal := .next (doRdcr a f s)

/-- WRCR (R72): a control register is written. -/
def doWrcr (a : Agent) (f : FO) : State → State :=
  runInsn a (.wrcr a f) f.cond ((crWriteLevel f.opnd.toNat).getD .U) (wrcrKnot f.opnd.toNat) <|
    wrcrBody a f.opnd.toNat

/-- WRCR (R72). -/
def execWrcr (a : Agent) (f : FO) (s : State) : Host.Outcome State Fault Refusal := .next (doWrcr a f s)

/-- TRET (R95): the trap return of the current level. -/
def doTret (a : Agent) (f : FO) : State → State :=
  runInsn a (.tret a f) f.cond .S .unsupported <|
    fun w => plainOp a (tretBody a w) w

/-- TRET (R95). -/
def execTret (a : Agent) (f : FO) (s : State) : Host.Outcome State Fault Refusal := .next (doTret a f s)

/-- RDTIME (R82): PICK × 12,800 + rclk since the boundary. -/
def doRdtime (a : Agent) (f : FO) : State → State :=
  runInsn a (.rdtime a f) f.cond .U .runs <|
    rdtimeBody a

/-- RDTIME (R82). -/
def execRdtime (a : Agent) (f : FO) (s : State) : Host.Outcome State Fault Refusal := .next (doRdtime a f s)

/-- SSYNC (R70, R82): the stack cache is spilled. -/
def doSsync (a : Agent) (f : FO) : State → State :=
  runInsn a (.ssync a f) f.cond .U .runs <|
    plainOp a fun s => doneWith s (fun s => s.modCore a (fun k => k.spillAll (s.agentTenant a)))

/-- SSYNC (R70, R82). -/
def execSsync (a : Agent) (f : FO) (s : State) : Host.Outcome State Fault Refusal := .next (doSsync a f s)

/-- EVPOP (R97): the oldest record: value and descriptor. -/
def doEvpop (a : Agent) (f : FO) : State → State :=
  runInsn a (.evpop a f) f.cond .U .unsupported <|
    evpopBody a

/-- EVPOP (R97). -/
def execEvpop (a : Agent) (f : FO) (s : State) : Host.Outcome State Fault Refusal := .next (doEvpop a f s)

/-- SIGNAL (R82): a record of TYPE 0x03 to a cord. -/
def doSignal (a : Agent) (f : FO) : State → State :=
  runInsn a (.signal a f) f.cond .U .unsupported <|
    signalBody a

/-- SIGNAL (R82). -/
def execSignal (a : Agent) (f : FO) (s : State) : Host.Outcome State Fault Refusal := .next (doSignal a f s)

/-- RETG (R96): the gate return. -/
def doRetg (a : Agent) (f : FO) : State → State :=
  runInsn a (.retg a f) f.cond .S .unsupported <|
    retgBody a (f.opnd.toNat % 8)

/-- RETG (R96). -/
def execRetg (a : Agent) (f : FO) (s : State) : Host.Outcome State Fault Refusal := .next (doRetg a f s)

/-- RDAG (R82): a part of an address generator. -/
def doRdag (a : Agent) (f : FO) : State → State :=
  runInsn a (.rdag a f) f.cond .U .runs <|
    stackOp a 0 0 1 fun k _ => .ok (Out.push [(k.ag (agIndex f)).part (agPart f)])

/-- RDAG (R82). -/
def execRdag (a : Agent) (f : FO) (s : State) : Host.Outcome State Fault Refusal := .next (doRdag a f s)

/-- WRAG (R82): a part of an address generator written. -/
def doWrag (a : Agent) (f : FO) : State → State :=
  runInsn a (.wrag a f) f.cond .U .runs <|
    wragBody a f

/-- WRAG (R82). -/
def execWrag (a : Agent) (f : FO) (s : State) : Host.Outcome State Fault Refusal := .next (doWrag a f s)

/-- TLBI.VA (R125): entries of the page of va. -/
def doTlbiVa (a : Agent) (f : FO) : State → State :=
  runInsn a (.tlbiVa a f) f.cond .S .unsupported <|
    invBody a 1 fun s ins => .va (currentTenant s a) ((inp ins 0).toNat / 4096) (ptbrAsid (s.core a).ptbr)

/-- TLBI.VA (R125). -/
def execTlbiVa (a : Agent) (f : FO) (s : State) : Host.Outcome State Fault Refusal := .next (doTlbiVa a f s)

/-- TLBI.ASID (R125): non-global entries of an ASID. -/
def doTlbiAsid (a : Agent) (f : FO) : State → State :=
  runInsn a (.tlbiAsid a f) f.cond .S .unsupported <|
    invBody a 1 fun s ins => .asid (currentTenant s a) ((inp ins 0).toNat % 4096)

/-- TLBI.ASID (R125). -/
def execTlbiAsid (a : Agent) (f : FO) (s : State) : Host.Outcome State Fault Refusal := .next (doTlbiAsid a f s)

/-- TLBI.S1ALL (R125): every entry of the current tenant. -/
def doTlbiS1all (a : Agent) (f : FO) : State → State :=
  runInsn a (.tlbiS1all a f) f.cond .S .unsupported <|
    invBody a 0 fun s _ => .s1all (currentTenant s a)

/-- TLBI.S1ALL (R125). -/
def execTlbiS1all (a : Agent) (f : FO) (s : State) : Host.Outcome State Fault Refusal := .next (doTlbiS1all a f s)

/-- TLBI.IPA (R125): entries derived from a stage-2 page of a tenant; ipa tenant →. -/
def doTlbiIpa (a : Agent) (f : FO) : State → State :=
  runInsn a (.tlbiIpa a f) f.cond .H .unsupported <|
    invBody a 2 fun _ ins => .ipa ((inp ins 0).toNat % 1024) ((inp ins 1).toNat / 4096)

/-- TLBI.IPA (R125). -/
def execTlbiIpa (a : Agent) (f : FO) (s : State) : Host.Outcome State Fault Refusal := .next (doTlbiIpa a f s)

/-- TLBI.TENANT (R125): every entry of a tenant. -/
def doTlbiTenant (a : Agent) (f : FO) : State → State :=
  runInsn a (.tlbiTenant a f) f.cond .H .unsupported <|
    invBody a 1 fun _ ins => .tenant ((inp ins 0).toNat % 1024)

/-- TLBI.TENANT (R125). -/
def execTlbiTenant (a : Agent) (f : FO) (s : State) : Host.Outcome State Fault Refusal := .next (doTlbiTenant a f s)

/-- TLBSYNC (R125): waits for the earlier TLBIs. -/
def doTlbsync (a : Agent) (f : FO) : State → State :=
  runInsn a (.tlbsync a f) f.cond .S .unsupported <|
    plainOp a fun s => if invPending s a then (s, .park .waitTlb) else doneWith s id

/-- TLBSYNC (R125). -/
def execTlbsync (a : Agent) (f : FO) (s : State) : Host.Outcome State Fault Refusal := .next (doTlbsync a f s)

/-! ### Wakes -/

/-- A parked instruction retires. -/
def wake (s : State) (c : Nat) : State := retire (s.modCord c (fun k => { k with run := k.goes })) (.cord c) none 0

/-- WAITE_WAKE (R82): a record has entered the queue. -/
def doWaiteWake (c : Nat) (s : State) : State :=
  if (s.cord c).run = .waitEvent ∧ !(s.cord c).paused ∧ eventReady s (.cord c) then wake s c else s

/-- WAITE_WAKE (R82). -/
def execWaiteWake (c : Nat) (s : State) : Host.Outcome State Fault Refusal := .next (doWaiteWake c s)

/-- TLBSYNC_COMPLETE (R125): every TLBI of the cord has been applied everywhere. -/
def doTlbsyncComplete (c : Nat) (s : State) : State :=
  let s := applyInvs s c
  if (s.cord c).run = .waitTlb ∧ !(s.cord c).paused ∧ !staleOps s then wake s c else s

/-- TLBSYNC_COMPLETE (R125). -/
def execTlbsyncComplete (c : Nat) (s : State) : Host.Outcome State Fault Refusal := .next (doTlbsyncComplete c s)

end Sys2Proof.Machine
end

