-- ==== Sys2Proof/Machine/Memory.lean ====
section
/-! DEFINITION. Memory instructions, majors 0x08 to 0x0D: loads, stores, load-reserved, store-conditional, far atomics and
line operations (R69, R86 to R88, R131 to R135, R158, R201, R417). -/

namespace Sys2Proof.Machine

/-! ### Loads (R86) -/

/-- A loaded value pushed, and the address generator stepped (R92). -/
def loadDone (a : Agent) (s : State) (pops : Nat) (st : Stk) (g : Option (Nat × Word)) (v : Word) (resv : Option Resv) :
    State × Got Done :=
  (s, .ok { next := none, result := v, after := id, apply := fun s => s.modCore a (fun k =>
    let k := (k.replace (s.agentTenant a) pops ([v].zip st.homes)).stepAg g
    match resv with
    | some r => { k with resv := some r }
    | none => k) })

def loadBody (a : Agent) (m : MemForm) (w : InsnWord) (s : State) : State × Got Done :=
  andThen (stackStep s a w m.pops m.pops 1) fun s st =>
    let k := s.core a
    let fm := m.form k (inp st.ins 0)
    andThen (loadAt s a w k.lvl fm.va m.size) fun s v =>
      match a, v with
      | _, .now x => loadDone a s m.pops st fm.step (BitVec.ofNat 64 x) none
      | .cord c, .later p off pa n whole =>
        parkRead s c p off { port := p, seq := 0, pa := pa, size := n, whole := whole, pops := m.pops
                             home := st.homes.headD { pa := 0, attr := .cached }, ag := fm.step }
      | .shuttle _, .later _ _ _ _ _ => (s, .wait)

/-- The answer to a cord's register read arrives (R245): a load whose value it is completes with it; any other instruction, and one
that a recovery holds, takes it up when it runs again. -/
def loadAnswer (s : State) (c : Nat) (v : Word) : State :=
  match (s.cord c).run with
  | .waitLoad w =>
    let x : Word := BitVec.ofNat 64 (v.toNat % 256 ^ w.size)
    let s := stageValue s c x.toNat w.pa w.size
    if w.whole ∧ !(s.cord c).paused then
      let s := s.modCord c (fun k =>
        { (k.replace (s.tenantOf c) w.pops [(x, w.home)]).stepAg w.ag with run := k.goes })
      retire s (.cord c) none x
    else s.modCord c (fun k => { k.answered w.pa x.toNat with run := k.goes })
  | _ => s

/-! ### Stores (R86) -/

/-- The pieces of a store of an agent, checked (R131). -/
def storeAt (s : State) (a : Agent) (w : InsnWord) (lvl : Level) (va : Word) (n : Nat) : State × Got (List Piece) :=
  match a with
  | .cord c =>
    andThen (dataPieces s c lvl .store va n) fun s ps =>
    andThen (checkPieces s c w lvl .store ps) fun s _ => (s, .ok ps)
  | .shuttle _ => (s, .ok ((cut va n).map (fun x => { va := x.1, pa := x.1.toNat, size := x.2, attr := .cached })))

def storeBody (a : Agent) (m : MemForm) (w : InsnWord) (s : State) : State × Got Done :=
  let p := m.pops + 1
  andThen (stackStep s a w p p 0) fun s st =>
    let k := s.core a
    let fm := m.form k (inp st.ins 1)
    let v := (inp st.ins 0).toNat
    andThen (storeAt s a w k.lvl fm.va m.size) fun s ps =>
      (s, .ok { next := none, result := 0, after := id, apply := fun s => s.modCore a (fun k =>
        ((k.popN p).storePieces (s.agentTenant a) ps v).stepAg fm.step) })

/-! ### Load-reserved, store-conditional, far atomics (R87, R132 to R135, R175, R417) -/

/-- A Shuttle's address in its memory window, for an access that acts on memory alone (R232, R417). -/
def windowPiece (s : State) (i : Nat) (va : Word) (acc : Acc1) : State × Got (Piece × Spot) :=
  match shutSpot va.toNat with
  | .tenant tpa =>
    match shutPhys s i tpa acc with
    | (s, some pa) =>
      let p : Piece := { va := va, pa := pa, size := 1, attr := .uncached }
      if deviceRange s pa then trapAt s trap.MACHINE_CHECK pa
      else
        match spotFor s pa (shutTenant s i) with
        | .hole => trapAt (countRefusal s pa (shutTenant s i)) trap.ADDR_HOLE pa
        | .dark _ => trapAt s trap.BUS_DARK pa
        | x => (s, .ok (p, x))
    | (s, none) => trapAt s trap.ADDR_HOLE va.toNat
  | .hole => trapAt s trap.ADDR_HOLE va.toNat
  | _ => trapAt s trap.MACHINE_CHECK va.toNat

/-- One aligned piece of an atomic access, checked, its overlapping stack entries spilled (R69, R87, R417). For a Shuttle
only memory behind its window counts. -/
def atomicAt (s : State) (a : Agent) (w : InsnWord) (lvl : Level) (va : Word) (n : Nat) (acc : Acc1) : State × Got Piece :=
  if va.toNat % n ≠ 0 then (s, .trap { cause := trap.ALIGN, eval := va })
  else
    match a with
    | .cord c =>
      andThen (dataPieces s c lvl acc va n) fun s ps =>
        match ps with
        | [p] =>
          andThen (leadCheck s c w lvl .atomic p) fun s _ =>
            (s.modCord c (fun k => k.spillOnce (s.tenantOf c) p.pa n), .ok p)
        | _ => (s, .trap { cause := trap.ALIGN, eval := va })
    | .shuttle i => andThen (windowPiece s i va acc) fun s (p, _) => (s, .ok { p with size := n })

/-- The requester and tenant of an agent's requests at a home. -/
def agentSrc (s : State) : Agent → Nat
  | .cord c => s.triadOf c
  | .shuttle n => shutSrc s n

def requestTenant (s : State) : Agent → Nat
  | .cord c => s.tenantOf c
  | .shuttle n => shutTenant s n

/-- The number of an agent's requester: a cord's own, or a Shuttle's. -/
def requester : Agent → Nat
  | .cord c => c
  | .shuttle n => 0x80 + n

/-- A cord's buffered stores to a line are performed before an access that its home makes (R132). -/
def drainFor (s : State) (a : Agent) (pa : Nat) : State :=
  match a with
  | .cord c => drainLine s c (pa / 256)
  | .shuttle _ => s

/-- A cord's atomic access goes through its caches. -/
def usesCache (s : State) (a : Agent) (p : Piece) : Bool :=
  match a with
  | .cord c => p.attr == .cached && !l1dOff s (s.triadOf c) (s.shareOf c)
  | .shuttle _ => false

/-- Lines of a reservation's granule, n of them, obtained with write intent; where the caches take no part every other copy
is flushed, and the home holds the reservation (R133, R163). -/
def takeGranule (s : State) (a : Agent) (cached : Bool) (base : Nat) : Nat → State × Got Unit
  | 0 => (s, .ok ())
  | n + 1 =>
    andThen (takeGranule s a cached base n) fun s _ =>
      let line := normLine s (base + n * 256)
      match a, cached with
      | .cord c, true => lineThen (obtain s c line 0 true false) (line * 256) fun s => (touchL1 s c line false, .ok ())
      | _, _ =>
        let (s, r, _) := onceNow s (requester a) (.cmo .flush) (Req.of (agentSrc s a) line (requestTenant s a))
        onceThen s r (line * 256) fun s => (s, .ok ())

/-- The bytes of an atomic access read, with their poison. -/
def atomicRead (s : State) (a : Agent) (cached : Bool) (p : Piece) : State × Got (LineData × BitVec 4) :=
  match a, cached with
  | .cord c, true => readLine s c p.pa p.size true false
  | _, _ =>
    let (s, r, d, b) := readOnce s (agentSrc s a) (requester a) (requestTenant s a) (normLine s p.pa)
    onceThen s r p.pa fun s => (s, .ok (d, b))

/-- A poisoned result (R201). -/
def poisonOf (s : State) (p : Piece) : Trap :=
  if s.poisonPolicy then { cause := trap.POISON, eval := p.va } else { cause := trap.MACHINE_CHECK, eval := BitVec.ofNat 64 p.pa }

def lrBody (a : Agent) (m : MemForm) (w : InsnWord) (s : State) : State × Got Done :=
  andThen (stackStep s a w m.pops m.pops 1) fun s st =>
    let k := s.core a
    let fm := m.form k (inp st.ins 0)
    andThen (atomicAt s a w k.lvl fm.va m.size .load) fun s p =>
      let g := s.granule
      let base := p.pa / g * g
      let cached := usesCache s a p
      andThen (takeGranule s a cached base (g / 256)) fun s _ =>
      andThen (atomicRead s a cached p) fun s (d, poison) =>
        let k := s.core a
        if k.meetsPoison poison p.pa p.size then (s, .trap (poisonOf s p))
        else
          loadDone a s m.pops st fm.step (BitVec.ofNat 64 (k.patch p.pa p.size (lineBytes d (p.pa % 256) p.size)))
            (some { base := base, size := g })

/-- A store performed at once: in the cord's L2 when it uses its caches, else at the home. -/
def performNow (s : State) (a : Agent) (cached : Bool) (p : Piece) (v : Nat) : State × Got Unit :=
  let line := normLine s p.pa
  let mask := spanMask (p.pa % 256) p.size
  let bytes := spanBytes (p.pa % 256) (v % 256 ^ p.size)
  match a, cached with
  | .cord c, true =>
    lineThen (obtain s c line (touched mask) true false) p.pa fun s => (writeL2 s (s.triadOf c) line mask bytes, .ok ())
  | _, _ =>
    if evicting s (agentSrc s a) line then (s, .wait)
    else ((pokeLine s (agentSrc s a) (requestTenant s a) p.pa mask bytes false 0).1, .ok ())

/-- The reservation is held and covers the address (R135). -/
def Core.holds (k : Core) (pa : Nat) : Bool :=
  match k.resv with
  | some r => r.base ≤ pa && pa < r.base + r.size
  | none => false

def scBody (a : Agent) (m : MemForm) (w : InsnWord) (s : State) : State × Got Done :=
  let pn := m.pops + 1
  andThen (stackStep s a w pn pn 1) fun s st =>
    let k := s.core a
    let fm := m.form k (inp st.ins 1)
    let v := (inp st.ins 0).toNat
    andThen (atomicAt s a w k.lvl fm.va m.size .store) fun s p =>
      let fin (s : State) (r : Word) (st' : List StoreReq) : State × Got Done :=
        (s, .ok { next := none, result := r, after := id, apply := fun s => s.modCore a (fun k =>
          { (k.replace (s.agentTenant a) pn ([r].zip st.homes)).stepAg fm.step with resv := none, wrote := k.wrote ++ st' }) })
      let s := drainFor s a p.pa
      if !(s.core a).holds p.pa then fin s 0 []
      else if (s.core a).buffered p.pa then (s, .wait)
      else
        andThen (performNow s a (usesCache s a p) p v) fun s _ =>
          fin s 1 [{ pa := p.pa, va := p.va, size := p.size, val := v, tenant := s.agentTenant a, attr := p.attr }]

/-- Operands of a far atomic above the address: two for CAS (R87). -/
def aopPops (f : FA) : Nat := if f.aop = 5 then 2 else 1

def atomBody (a : Agent) (f : FA) (w : InsnWord) (s : State) : State × Got Done :=
  let m := MemForm.ofA f
  let n := aopPops f
  let pn := m.pops + n
  andThen (stackStep s a w pn pn 1) fun s st =>
    let k := s.core a
    let fm := m.form k (inp st.ins n)
    let x := if n = 2 then inp st.ins 1 else inp st.ins 0
    let y := inp st.ins 0
    andThen (atomicAt s a w k.lvl fm.va m.size .fill) fun s p =>
      let s := drainFor s a p.pa
      if (s.core a).buffered p.pa then (s, .wait)
      else
        let (s, r, old, poison) := atomNow s (agentSrc s a) (requester a) (requestTenant s a) p.pa (m.size == 8) f.aop x y
        onceThen s r p.pa fun s =>
          if poison then (s, .trap (poisonOf s p))
          else loadDone a (s.modCore a (fun k => k.clearResv p.pa p.size)) pn st fm.step (BitVec.ofNat 64 old) none

/-! ### Line operations (R88, R158, R417) -/

/-- The lead that a spot of the module's own accesses stands for. -/
def Spot.lead : Spot → Lead
  | .mem h => .mem h
  | .remote m => .remote m
  | .hole => .hole
  | .dark d => .dark d

/-- The line of a line operation, translated and checked (R417); `u` names the checks of step 9. A Shuttle's ZLINE outside memory
is a store, which its own map takes or drops. -/
def lineAt (s : State) (a : Agent) (w : InsnWord) (acc : Acc1) (u : Use) (va : Word) : State × Got (Piece × Lead) :=
  let lvl := (s.core a).lvl
  match a with
  | .cord c =>
    andThen (physAll s c lvl acc [(va, 1)]) fun s ps =>
      match ps with
      | [p] =>
        let p := { p with pa := p.pa / 256 * 256, size := 256 }
        if u = .store ∧ misWindow s p.pa 256 then (s, .trap { cause := trap.ALIGN, eval := va })
        else andThen (leadCheck s c w lvl u p) fun s l => (s, .ok (p, l))
      | _ => (s, .wait)
  | .shuttle i =>
    if u = .store then
      let p : Piece := { va := va, pa := va.toNat / 256 * 256, size := 256, attr := .uncached }
      (s, .ok (p, .hole))
    else
      andThen (windowPiece s i va acc) fun s (p, x) => (s, .ok ({ p with pa := p.pa / 256 * 256, size := 256 }, x.lead))

/-- The address of a line operation (R88). -/
def lineVa (f : FL) (ins : List Word) : Word := inp ins 0 + f.disp.signExtend 64

/-- A body that pops the address and performs a line operation. -/
def lineBody (a : Agent) (f : FL) (acc : Acc1) (u : Use) (go : State → Piece → Lead → State × Got (State → State)) (w : InsnWord)
    (s : State) : State × Got Done :=
  popsThen a 1 w s fun s ins =>
    andThen (lineAt s a w acc u (lineVa f ins)) fun s (p, l) => go s p l

/-- A cache-maintenance request for a line at its home, here or on another module (R158). -/
def cmoNow (a : Agent) (op : CmoOp) (s : State) (p : Piece) (_ : Lead) : State × Got (State → State) :=
  let line := normLine s p.pa
  let s := drainFor s a p.pa
  if (s.core a).buffered p.pa ∨ evicting s (agentSrc s a) line then (s, .wait)
  else
    let (s, r, _) := onceNow s (requester a) (.cmo op) (Req.of (agentSrc s a) line (requestTenant s a))
    onceThen s r p.pa fun s => (s, .ok id)

/-- The line in M, all its sectors zero, valid and dirty (R158). -/
def zeroL2 (s : State) (t line : Nat) : State :=
  s.setL2 t line { s.l2At t line with st := .M, valid := 15, dirty := 15, poison := 0, bytes := 0 }

/-- Cached stack entries of the line read zero after a ZLINE, and the cord's reservation on it goes (R134). -/
def Core.zeroLine (k : Core) (pa : Nat) : Core :=
  ({ k with cache := k.cache.map (fun (e : SEnt) => e.write pa 256 0) } : Core).clearResv pa 256

/-- A lead to DDR or CXL memory. -/
def Lead.isMem : Lead → Bool
  | .mem _ => true
  | .remote _ => true
  | _ => false

/-- ZLINE at a line (R158, R417): in the cord's caches, a WR_LINE at the home, or a store of 256 zero bytes. A store buffered before it
is performed first. -/
def zlineGo (a : Agent) (s : State) (p : Piece) (l : Lead) : State × Got (State → State) :=
  let line := normLine s p.pa
  let stored (s : State) : State × Got (State → State) :=
    (s, .ok fun s => s.modCore a (fun k => (k.zeroLine p.pa).store
      { pa := p.pa, va := p.va, size := 256, val := 0, tenant := s.agentTenant a, attr := p.attr }))
  match a with
  | .shuttle _ => stored s
  | .cord c =>
    if (s.core a).inKnot ∨ p.attr = .device ∨ !l.isMem ∨ !usesCache s a p then stored s
    else
      let s := drainFor s a p.pa
      if (s.core a).buffered p.pa then (s, .wait)
      else
        lineThen (obtain s c line 0 true true) p.pa fun s =>
          (touchL1 (zeroL2 s (s.triadOf c) line) c line false, .ok fun s => s.modCore a (fun k => k.zeroLine p.pa))

/-- A prefetch: the line asked for, or nothing (R88, R158). -/
def prefetchGo (a : Agent) (write : Bool) (s : State) (p : Piece) (l : Lead) : State :=
  match a with
  | .cord c =>
    if usesCache s a p ∧ l.isMem then
      match obtain s c (normLine s p.pa) 0 write false with
      | (s, .ready) => touchL1 s c (normLine s p.pa) false
      | (s, _) => s
    else s
  | .shuttle _ => s

/-- A prefetch never traps after step 5 of R79, and slips no knot (R88, R417). It needs R, or W, but writes nothing. One that finds a
fault does nothing but pop its address; where the stack check or a fill faults there is nothing to pop, and it retires alone (DESIGN
CHOICE, log 40). -/
def prefetchBody (a : Agent) (f : FL) (write : Bool) (w : InsnWord) (s : State) : State × Got Done :=
  match stackStep s a w 1 1 0 with
  | (s1, .ok st) =>
    let s2 := match a with
      | .cord c =>
        (match physAll s1 c (s1.core a).lvl (if write then .probe else .load) [(lineVa f st.ins, 1)] with
          | (s2, .ok [p]) =>
            if p.attr = .cached then prefetchGo a write s2 p (leadOf s2 (s2.tenantOf c) (s2.core a).lvl p.pa)
            else if wanting s1 s2 then s2
            else s1
          | (s2, _) => if wanting s1 s2 then s2 else s1)
      | .shuttle _ => s1
    doneWith s2 (fun s => s.modCore a (fun k => k.popN 1))
  | (s1, .trap _) => if wanting s s1 then (s1, .wait) else doneWith s id
  | (s1, .slip c) => (s1, .slip c)
  | (s1, .wait) => (s1, .wait)
  | (s1, .park r) => (s1, .park r)

/-! ### The instructions -/

/-- LOAD (R86): zero-extended data is pushed. -/
def doLoad (a : Agent) (f : FM) : State → State :=
  runInsn a (.load a f) f.cond .U .runs <|
    loadBody a (MemForm.ofM f)

/-- LOAD (R86). -/
def execLoad (a : Agent) (f : FM) (s : State) : Host.Outcome State Fault Refusal := .next (doLoad a f s)

/-- STORE (R86): the low bytes of v enter the store buffer. -/
def doStore (a : Agent) (f : FM) : State → State :=
  runInsn a (.store a f) f.cond .U .runs <|
    storeBody a (MemForm.ofM f)

/-- STORE (R86). -/
def execStore (a : Agent) (f : FM) (s : State) : Host.Outcome State Fault Refusal := .next (doStore a f s)

/-- LOAD_RESERVED (R87, R133): a load that reserves its granule. -/
def doLoadReserved (a : Agent) (f : FM) : State → State :=
  runInsn a (.loadReserved a f) f.cond .U .unsupported <|
    lrBody a (MemForm.ofM f)

/-- LOAD_RESERVED (R87, R133). -/
def execLoadReserved (a : Agent) (f : FM) (s : State) : Host.Outcome State Fault Refusal := .next (doLoadReserved a f s)

/-- STORE_CONDITIONAL (R87, R135): stores and pushes 1 while the reservation holds, else pushes 0. -/
def doStoreConditional (a : Agent) (f : FM) : State → State :=
  runInsn a (.storeConditional a f) f.cond .U .unsupported <|
    scBody a (MemForm.ofM f)

/-- STORE_CONDITIONAL (R87, R135). -/
def execStoreConditional (a : Agent) (f : FM) (s : State) : Host.Outcome State Fault Refusal := .next (doStoreConditional a f s)

/-- FAR_ATOMIC (R87, R175): the old value is pushed. -/
def doFarAtomic (a : Agent) (f : FA) : State → State :=
  runInsn a (.farAtomic a f) f.cond .U .unsupported <|
    atomBody a f

/-- FAR_ATOMIC (R87, R175). -/
def execFarAtomic (a : Agent) (f : FA) (s : State) : Host.Outcome State Fault Refusal := .next (doFarAtomic a f s)

/-- ZLINE (R158): the line is zero and dirty. -/
def doZline (a : Agent) (f : FL) : State → State :=
  runInsn a (.zline a f) f.cond .U .runs <|
    lineBody a f .store .store (zlineGo a)

/-- ZLINE (R158). -/
def execZline (a : Agent) (f : FL) (s : State) : Host.Outcome State Fault Refusal := .next (doZline a f s)

/-- CLEAN (R158): dirty sectors go home, copies stay. -/
def doClean (a : Agent) (f : FL) : State → State :=
  runInsn a (.clean a f) f.cond .U .unsupported <|
    lineBody a f .rx .atomic (cmoNow a .clean)

/-- CLEAN (R158). -/
def execClean (a : Agent) (f : FL) (s : State) : Host.Outcome State Fault Refusal := .next (doClean a f s)

/-- FLUSH (R158): as CLEAN, then every copy is invalidated. -/
def doFlush (a : Agent) (f : FL) : State → State :=
  runInsn a (.flush a f) f.cond .U .unsupported <|
    lineBody a f .rx .atomic (cmoNow a .flush)

/-- FLUSH (R158). -/
def execFlush (a : Agent) (f : FL) (s : State) : Host.Outcome State Fault Refusal := .next (doFlush a f s)

/-- INVAL (R158): every copy is invalidated, dirty data discarded. -/
def doInval (a : Agent) (f : FL) : State → State :=
  runInsn a (.inval a f) f.cond .H .unsupported <|
    lineBody a f .rx .atomic (cmoNow a .inval)

/-- INVAL (R158). -/
def execInval (a : Agent) (f : FL) (s : State) : Host.Outcome State Fault Refusal := .next (doInval a f s)

/-- PFR (R158): a prefetch for reading. -/
def doPfr (a : Agent) (f : FL) : State → State :=
  runInsn a (.pfr a f) f.cond .U .runs <|
    prefetchBody a f false

/-- PFR (R158). -/
def execPfr (a : Agent) (f : FL) (s : State) : Host.Outcome State Fault Refusal := .next (doPfr a f s)

/-- PFW (R158): a prefetch with write intent. -/
def doPfw (a : Agent) (f : FL) : State → State :=
  runInsn a (.pfw a f) f.cond .U .runs <|
    prefetchBody a f true

/-- PFW (R158). -/
def execPfw (a : Agent) (f : FL) (s : State) : Host.Outcome State Fault Refusal := .next (doPfw a f s)

/-- ICINV (R158): the line leaves every L1I. -/
def doIcinv (a : Agent) (f : FL) : State → State :=
  runInsn a (.icinv a f) f.cond .U .unsupported <|
    lineBody a f .exec .atomic (cmoNow a .icinv)

/-- ICINV (R158). -/
def execIcinv (a : Agent) (f : FL) (s : State) : Host.Outcome State Fault Refusal := .next (doIcinv a f s)

end Sys2Proof.Machine
end

