-- ==== Sys2Proof/Machine/PortRows.lean ====
section
/-! DEFINITION. The commands of the channel ports: service, the Weft link, its frames, and PCIe (R241 to R267). -/

namespace Sys2Proof.Machine

/-! ### Links (R241, R246, R247, R250, R251) -/

/-- A link leaves UP, or goes on training. -/
def linkLeaves (s : State) (p dst : Nat) : State :=
  let up := linkUp s p
  let s := (s.put (CHP_STAT.LINK p) dst).put (CHP_STAT.WIDTH p) 0
  s.modPort p (fun x => { x with
    initSeen := false, initAcked := false, inits := [], nakDue := false, nakWait := false, released := false, releasing := false
    leftUp := if up then some s.time.now else x.leftUp })

/-- A link retrains; retrainings are counted. -/
def retrain (s : State) (p : Nat) : State :=
  (linkLeaves s p (if s.get (CHP_STAT.LINK p) = lnk.DOWN then lnk.TRAINING else lnk.RETRAIN)).bump (CHP_WERR.RETRAIN p) 1

/-- The sessions of the subchannels bound to a port, each once. -/
def portSessions (s : State) (p : Nat) : List Nat :=
  ((subsOf s p).filterMap (fun x => if (s.scb x).kind = 2 then some ((s.scb x).target % 2 ^ 16) else none)).eraseDups

/-- A Weft link is UP: 64 GT/s on four lanes, and every session is opened again (R246, R256). -/
def weftUp (s : State) (p : Nat) : State :=
  let s := (((s.put (CHP_STAT.LINK p) lnk.UP).put (CHP_STAT.RATE p) 5).put (CHP_STAT.WIDTH p) 4).putFlag (CHP_STAT.DEAD p) false
  let s := s.modPort p (fun x => { x with leftUp := none, replays := 0, sessions := [] })
  portGo ((portSessions s p).foldl (fun s n => openSession s p n) s) p

/-- UP once INIT has been received and the own INIT acknowledged. -/
def weftCheckUp (s : State) (p : Nat) : State :=
  let x := s.port p
  if x.initSeen ∧ x.initAcked ∧ !linkUp s p ∧ s.get (CHP_STAT.LINK p) ≠ lnk.DOWN then weftUp s p else s

/-- The flits of a replay buffer from FSEQ n on; none when n is not among them. -/
def fromFseq (n : Nat) : List SentFlit → Option (List SentFlit)
  | [] => none
  | x :: t => if x.fseq = n then some (x :: t) else fromFseq n t

/-- An ACK of a FSEQ frees it and every earlier flit (R250); an INIT of the port may be among them. -/
def ackFlits (s : State) (p n : Nat) : State :=
  match fromFseq n (s.port p).replay with
  | some (_ :: t) =>
    let waits (i : Nat) : Bool := t.any (fun e => e.fseq == i)
    s.modPort p (fun x => { x with
      replay := t, replays := 0, initAcked := x.initAcked || !x.inits.all waits, inits := x.inits.filter waits })
  | _ => s

/-- Every unacknowledged flit is sent again; after four replays without progress the link retrains (R250). -/
def portReplay (s : State) (p : Nat) : State :=
  let s := s.bump (CHP_WERR.REPLAY p) 1
  let s := resendFlits (s.modPort p (fun x => { x with replays := x.replays + 1 })) p
  if 4 ≤ (s.port p).replays then (retrain s p).modPort p (fun x => { x with replays := 0 }) else s

/-! ### Service (R241) -/

/-- Subchannels of a port have open operations. -/
def portOpen (s : State) (p : Nat) : Bool := (subsOf s p).any (fun x => (s.scb x).opened != 0)

/-- Operations of a port cancelled: ACCEPTED ones end SUSPENDED, the others are aborted. -/
def portCancel (s : State) (p : Nat) : State :=
  (opsWith s (fun j => opPort s j == p && opOpen j)).foldl (fun s c =>
    match s.op? c with
    | some j => if j.state = .accepted then endOp s c j cst.SUSPENDED 0 false else abortOp s c j cst.SUSPENDED 0
    | none => s) s

/-- A write of CHP_CTL (R241). -/
def portCtl (p : Nat) (v : Word) (s : State) : State :=
  let w := taken s (CHP_CTL.off p) v
  if Config.ports ≤ p then s
  else if bitAt w 0 then
    if portOpen s p ∧ !bitAt w 1 then s.putFlag (CHP_STAT.REFUSED p) true
    else
      let s := hostWrite s (CHP_CTL.off p) v
      portIdle (if bitAt w 1 then portCancel s p else s) p
  else
    let was := s.flag (CHP_CTL.DISABLE p)
    let s := hostWrite s (CHP_CTL.off p) v
    if was ∨ bitAt w 2 then
      let s := retrain s p
      if s.flag (PWR_DOM.PADLATCH (dom.quad (p / 4))) ∨ !s.domOn (dom.quad (p / 4)) then s.put (CHP_STAT.LINK p) lnk.DOWN else s
    else s

/-- PORT_DISABLE (R241). -/
def execPortDisable (p : Nat) (v : Word) (s : State) : Host.Outcome State Fault Refusal := .next (portCtl p v s)

/-- PORT_DISABLE_FORCE (R241). -/
def execPortDisableForce (p : Nat) (v : Word) (s : State) : Host.Outcome State Fault Refusal := .next (portCtl p v s)

/-- PORT_ENABLE (R241). -/
def execPortEnable (p : Nat) (v : Word) (s : State) : Host.Outcome State Fault Refusal := .next (portCtl p v s)

/-- PORT_RETRAIN (R241). -/
def execPortRetrain (p : Nat) (v : Word) (s : State) : Host.Outcome State Fault Refusal := .next (portCtl p v s)

/-! ### INIT, release, flits (R246 to R252) -/

/-- A Weft port whose link is training. -/
def weftTrains (s : State) (p : Nat) : Bool :=
  p < Config.ports && weftMode s p && (s.get (CHP_STAT.LINK p) == lnk.TRAINING || s.get (CHP_STAT.LINK p) == lnk.RETRAIN)

/-- What an INIT says is taken while the link trains: credits, and the FSEQ from which the port resumes (R247, R250). A unit that expects
a flit which the port has neither sent nor kept starts afresh there (log 44). -/
def initTake (s : State) (p : Nat) (m : InitMsg) : State :=
  let s := if linkUp s p ∧ (s.port p).released then linkLeaves s p lnk.RETRAIN else s
  if !weftTrains s p ∨ m.version ≠ 1 ∨ m.credits < 34 then s
  else
    let left := (fromFseq m.fseq (s.port p).replay).getD []
    let s := s.modPort p (fun x => { x with
      initSeen := true, credits := m.credits, replay := left, inits := x.inits.filter (fun i => left.any (fun e => e.fseq == i))
      txSeq := if left = [] then m.fseq % 1024 else x.txSeq })
    weftCheckUp (resendFlits s p) p

/-- A payload or control flit has been accepted in FSEQ order: an ACK is due. -/
def flitAccepted (s : State) (p : Nat) : State :=
  s.modPort p (fun x => { x with rxSeq := (x.rxSeq + 1) % 1024, ackPending := true, nakWait := false })

/-- A Weft link that carries flits. -/
def weftAlive (s : State) (p : Nat) : Bool := p < Config.ports && weftMode s p && s.get (CHP_STAT.LINK p) != lnk.DOWN

/-- INIT (R247): the control flit comes in FSEQ order and is acknowledged. -/
def doInit (p : Nat) (m : InitMsg) (s : State) : State :=
  if weftAlive s p then flitReply (initTake (flitAccepted s p) p m) p else s

/-- INIT (R247). -/
def execInit (p : Nat) (m : InitMsg) (s : State) : Host.Outcome State Fault Refusal := .next (doInit p m s)

/-- INIT_RESEND (R246). -/
def execInitResend (p : Nat) (s : State) : Host.Outcome State Fault Refusal :=
  .next (if weftTrains s p then sendInit s p else s)

/-- The far end announces the release of the link (R247). -/
def linkReleased (s : State) (p : Nat) : State := s.modPort p (fun x => { x with released := true })

/-- LINK_RELEASE (R247). -/
def execLinkRelease (p : Nat) (s : State) : Host.Outcome State Fault Refusal :=
  .next (if p < Config.ports ∧ weftMode s p ∧ linkUp s p then linkReleased s p else s)

/-- REPLAY_TIMEOUT (R250): the oldest flit has waited 200 rclk. -/
def doReplayTimeout (p : Nat) (s : State) : State :=
  match (s.port p).replay with
  | e :: _ => if e.at_ + 200 ≤ s.time.now ∧ linkUp s p then portReplay s p else s
  | [] => s

/-- REPLAY_TIMEOUT (R250). -/
def execReplayTimeout (p : Nat) (s : State) : Host.Outcome State Fault Refusal := .next (doReplayTimeout p s)

/-- The link of a port is gone: its subchannels are LOST and its window is dead. -/
def portGone (s : State) (p code : Nat) : State :=
  let s := ((s.put (CHP_STAT.LINK p) lnk.DOWN).put (CHP_STAT.WIDTH p) 0).putFlag (CHP_STAT.DEAD p) true
  let s := s.modPort p (fun x => { x with
    replay := [], replays := 0, leftUp := none, sessions := [], tx := [], outs := [], rx := [], rxPart := [], inits := []
    nakDue := false, ackPending := false, nakWait := false, freed := 0, initSeen := false, initAcked := false })
  report (losePort s p code) { Report.of (dom.quad (p / 4)) .UC with info := BitVec.ofNat 64 p }

/-- LINK_HOLD_EXPIRY (R251). -/
def doLinkHoldExpiry (p : Nat) (s : State) : State :=
  match (s.port p).leftUp with
  | none => s
  | some t =>
    if Config.ports ≤ p ∨ linkUp s p ∨ s.time.now < t + s.get (CHP_CFG.HOLDMS p) * msRclk then s else portGone s p cst.PATH_LOST

/-- LINK_HOLD_EXPIRY (R251). -/
def execLinkHoldExpiry (p : Nat) (s : State) : Host.Outcome State Fault Refusal := .next (doLinkHoldExpiry p s)

/-! ### Frames received (R254, R255, R261, R262) -/

/-- The operation that a frame's SESSION, SUBCH and SEQ name: one open at the port's device. -/
def frameOp (s : State) (p : Nat) (f : Frame) : Option (Nat × JRec) :=
  s.chs.cells.find? (fun e => e.2.state == .active && e.2.subch == f.subch && e.2.seq == f.seq && opPort s e.2 == p
    && (s.scb f.subch).target % 2 ^ 16 == f.session)

/-- A frame that the unit may send, well formed (R255). -/
def frameGood (f : Frame) : Bool :=
  f.ver == 1 && f.rzOk && f.payload.length == f.len
    && (if f.typ = ft.DATA_IN then 1 ≤ f.len && f.len ≤ 4096
        else if f.typ = ft.STATUS then f.len == 0 || f.len == 56
        else if f.typ = ft.REG_RSP then f.len == 0 || f.len == 8
        else [ft.SESS_ACCEPT, ft.SESS_CLOSE, ft.DUPACK, ft.ABORT_DONE].contains f.typ && f.len == 0)

/-- The tenant-physical address of the byte at an offset of a command's data; 0 beyond it. -/
def spanAt (o : Nat) : List Span → Nat
  | [] => 0
  | x :: t => if o < x.len then x.tpa + o else spanAt (o - x.len) t

/-- A frame whose CRC fails: discarded, counted, and its operation aborted to end DATA_CHECK (R262). -/
def frameCrcFail (s : State) (p : Nat) (f : Frame) : State :=
  let s := s.bump (CHP_WERR.FRAMECRC p) 1
  match frameOp s p f with
  | some (cell, j) => abortOp s cell j cst.DATA_CHECK (if f.typ = ft.DATA_IN then spanAt f.count j.spans else 0)
  | none => s

/-- A frame of an operation, which an ABORT_DONE makes unwelcome (R261). -/
def opTyp (t : Nat) : Bool := [ft.DATA_IN, ft.STATUS, ft.DUPACK, ft.ABORT_DONE].contains t

/-- The buffer space of a frame is free again: its credits go back (R252). -/
def frameFreed (s : State) (p : Nat) (f : Frame) : State := s.modPort p (fun x => { x with freed := x.freed + frameCredits f })

/-- The checks of a received frame: what remains to be done when it passes (R255, R261, R262). -/
def frameTake (s : State) (p : Nat) (f : Frame) (go : State → State) : State :=
  if Config.ports ≤ p ∨ !weftMode s p ∨ !linkUp s p then s
  else
    let s := frameFreed (s.modPort p (fun x => { x with rx := x.rx.erase f })) p f
    flitReply
      (if !f.crcOk then frameCrcFail s p f
       else if !frameGood f ∨ (opTyp f.typ ∧ (s.port p).aborted.contains (f.subch, f.seq)) then s.bump (CHP_WERR.BADTYPE p) 1
       else go s) p

/-- Frames that end in a flit: bad ones are dropped there, the others wait in the port. -/
def frameArrives (s : State) (p : Nat) (f : Frame) : State :=
  if !f.crcOk then frameCrcFail (frameFreed s p f) p f
  else if !frameGood f then (frameFreed s p f).bump (CHP_WERR.BADTYPE p) 1
  else s.modPort p (fun x => { x with rx := x.rx ++ [f] })

/-- The payload of a flit joins the bytes of a frame that has begun; the frames that end in it arrive (R253). -/
def payloadTake (s : State) (p : Nat) (body : List Byte) : State :=
  let bs := (s.port p).rxPart ++ body
  let (fs, rest) := framesIn (bs.length / 16 + 1) bs
  fs.foldl (fun s f => frameArrives s p f) (s.modPort p (fun x => { x with rxPart := rest }))

/-- An accepted payload or control flit (R247, R253). -/
def flitContent (s : State) (p : Nat) (f : Flit) : State :=
  let typ := (f.body.headD 0).toNat
  if f.kind = 1 then payloadTake s p f.body
  else if typ = 1 then initTake s p (initOf f.body)
  else if typ = 2 then linkReleased s p
  else s.bump (CHP_WERR.BADTYPE p) 1

/-- ACK, NAK and CREDIT of an accepted flit; a NAK names the last flit accepted too. -/
def flitHeader (s : State) (p : Nat) (f : Flit) : State :=
  let s := if f.ackv ∨ f.nak then ackFlits s p f.ackSeq else s
  let s := if f.nak then portReplay s p else s
  weftCheckUp (s.modPort p (fun x => { x with credits := x.credits + f.credit })) p

/-- A flit is dropped: a NAK goes out, and every flit is dropped until the one that is expected (R250). Flits that are only out of order
ask for no second NAK. -/
def flitDropped (s : State) (p : Nat) (damaged : Bool) : State :=
  s.modPort p (fun x => { x with nakDue := x.nakDue || damaged || !x.nakWait, nakWait := true })

/-- A flit taken by its KIND and FSEQ (R248, R250). -/
def flitTake (s : State) (p : Nat) (f : Flit) : State :=
  if !f.crcOk ∨ f.kind = 3 then flitDropped s p true
  else if f.kind = 0 then flitHeader s p f
  else if f.fseq = (s.port p).rxSeq then flitContent (flitHeader (flitAccepted s p) p f) p f
  else if f.kind = 2 ∧ f.body.headD 0 = 1 ∧ weftTrains s p then initTake s p (initOf f.body)
  else flitDropped s p false

/-- FLIT_RECEIVE (R249, R250): the 256 bytes of a flit. -/
def doFlitReceive (p : Nat) (bytes : List Byte) (s : State) : State :=
  if !weftAlive s p ∨ bytes.length ≠ 256 then s
  else
    let f := flitOf bytes
    flitReply (portGo (flitTake (s.bump (CHP_WERR.FECCORR p) f.corrected) p f) p) p

/-- FLIT_RECEIVE (R249). -/
def execFlitReceive (p : Nat) (bytes : List Byte) (s : State) : Host.Outcome State Fault Refusal := .next (doFlitReceive p bytes s)

/-- CHP_WERR_READ (R250). -/
def execChpWerrRead (p : Nat) (s : State) : Host.Outcome State Fault Refusal := .next (hostRead s (CHP_WERR.off p))

/-! ### Sessions (R256) -/

/-- The subchannels of a session at a port. -/
def sessionSubs (s : State) (p session : Nat) : List Nat :=
  (subsOf s p).filter (fun x => (s.scb x).kind == 2 && (s.scb x).target % 2 ^ 16 == session)

def setSession (s : State) (p session st : Nat) : State :=
  s.modPort p (fun x => { x with sessions := mput x.sessions session st 0 })

/-- SESS_ACCEPT (R256). -/
def doSessAccept (p session : Nat) (dstat : BitVec 16) (s : State) : State :=
  if Config.ports ≤ p ∨ !linkUp s p ∨ mget (s.port p).sessions session 0 ≠ 1 then s
  else if dstat = 0 then
    let subs := sessionSubs s p session
    (opsWith s (fun j => subs.contains j.subch && j.state == .active && j.shut.isNone)).foldl resend (setSession s p session 2)
  else if dstat = 1 then
    (sessionSubs s p session).foldl (fun s x => loseSub s x cst.DEVICE_LOST) (setSession s p session 3)
  else if dstat = 2 then
    let subs := sessionSubs s p session
    (opsWith s (fun j => subs.contains j.subch && j.state == .active)).foldl (fun s c => endIfOpen s c cst.DEVICE_LOST)
      (setSession s p session 2)
  else s

/-- SESS_ACCEPT (R256). -/
def execSessAccept (p session : Nat) (dstat : BitVec 16) (s : State) : Host.Outcome State Fault Refusal :=
  .next (orWait (doSessAccept p session dstat) s)

/-- SESS_CLOSE (R255). -/
def execSessClose (p session : Nat) (s : State) : Host.Outcome State Fault Refusal :=
  .next (if p < Config.ports ∧ weftMode s p then setSession s p session 0 else s)

/-! ### Frames of operations (R258 to R262) -/

/-- How a write of a command's data fared, and what its record then says: a line that was not reached ends it BAD_PROGRAM, a failed
handover DATA_CHECK (R203, R214). -/
def dataNoted (j : JRec) (failed : Option Nat) (tpa : Nat) (bad : Option Nat) : JRec :=
  if j.status ≠ cst.OK then j
  else
    match failed, bad with
    | some f, _ => { j with status := cst.BAD_PROGRAM, faddr := f }
    | none, some o => { j with status := cst.DATA_CHECK, faddr := tpa + o }
    | none, none => j

/-- Data of a READ from a device, at an offset of the command's data. `bad` is the offset of a byte whose sector fails its check at the
handover to memory (R203). Poisoned data end the operation POISON (R262). Bytes beyond the command's data count, and go nowhere. -/
def dataMove (s : State) (cell : Nat) (j : JRec) (o : Nat) (bs : List Byte) (poison : Bool) (bad : Option Nat) : State :=
  let p := opPort s j
  let xs := spanSlice j.spans o bs.length
  let s := burstTaken s p (s.viTenant j.vi) bs.length true
  let (s, e) := spansIn s cell j poison bad xs (ofBytes bs)
  let j := dataNoted { j with got := j.got + bs.length } e 0 (bad.map (fun b => spanAt (o + b) j.spans))
  s.setOp cell (if poison ∧ j.status = cst.OK then { j with status := cst.POISON, faddr := spanAt o j.spans } else j)

/-- A Weft port whose link is UP takes frames. -/
def frameLive (s : State) (p : Nat) : Bool := p < Config.ports && weftMode s p && linkUp s p

/-- A frame whose data cannot be injected yet waits in the port (R242). -/
def frameWaits (s : State) (p : Nat) (f : Frame) : State :=
  if (s.port p).rx.contains f then s else s.modPort p (fun x => { x with rx := x.rx ++ [f] })

/-- DATA_IN (R262). -/
def doDataIn (p : Nat) (f : Frame) (bad : Option Nat) (s : State) : State :=
  match frameOp s p f with
  | some (cell, j) =>
    if frameLive s p ∧ f.crcOk ∧ frameGood f ∧ !(burstMay s p (s.viTenant j.vi) f.len true && inTurn s p) then frameWaits s p f
    else
      frameTake s p f (fun s =>
        if f.typ ≠ ft.DATA_IN ∨ j.cmd ≠ ccw.READ ∨ !atDevice j then s
        else dataMove s cell j f.count f.payload f.poison bad)
  | none => frameTake s p f id

/-- DATA_IN (R262). -/
def execDataIn (p : Nat) (f : DataFrame) (s : State) : Host.Outcome State Fault Refusal :=
  .next (orWait (doDataIn p f.frame f.bad) s)

/-- The 56 sense bytes of a STATUS in words 1 to 7 of the subchannel's record (R260). -/
def statusSense (s : State) (f : Frame) : List Word :=
  if bitAt f.dstat.toNat 8 ∧ f.len = 56 then wordsOf f.payload 7 else ((s.scb f.subch).sense.drop 1).take 7

/-- The end that a STATUS gives its command (R260). -/
def statusEnd (s : State) (cell : Nat) (j : JRec) (f : Frame) : State :=
  let cls := bits f.dstat.toNat 0 8
  let sense := statusSense s f
  let b := s.scb j.subch
  let s := s.setScb j.subch { b with sense := (b.sense.take 1 ++ List.replicate (1 - b.sense.length) 0) ++ sense }
  let j : JRec := { j with dstat := f.dstat }
  let fail (code : Nat) : State :=
    endOpWith s cell j (if j.status = cst.OK then code else j.status) (if j.status = cst.OK then 0 else j.faddr) false sense
  if cls = 0 then cmdDone s cell j sense
  else if cls = 1 then fail cst.BAD_PROGRAM
  else if cls = 3 then fail cst.DATA_CHECK
  else if cls = 4 then (if j.goal.isSome then s else s.setOp cell { j with dev := .none, mark := s.time.now, got := 0 })
  else loseSub (endOpWith s cell j cst.DEVICE_LOST 0 false sense) j.subch cst.DEVICE_LOST

/-- STATUS (R260). -/
def doStatus (p : Nat) (f : Frame) (s : State) : State :=
  frameTake s p f (fun s =>
    match frameOp s p f with
    | some (cell, j) => if f.typ = ft.STATUS ∧ atDevice j ∧ f.ccwno = j.ccwno then statusEnd s cell j f else s
    | none => s)

/-- STATUS (R260). -/
def execStatus (p : Nat) (f : Frame) (s : State) : Host.Outcome State Fault Refusal := .next (orWait (doStatus p f) s)

/-- DUPACK (R263): the unit had received the operation before. -/
def doDupack (p : Nat) (f : Frame) (s : State) : State :=
  frameTake s p f (fun s =>
    if f.typ ≠ ft.DUPACK then s
    else
      let s := s.bump (CHP_WERR.DUPACK p) 1
      match frameOp s p f with
      | some (cell, j) => if atDevice j then endOp s cell j cst.DUPLICATE_ACK 0 false else s
      | none => s)

/-- DUPACK (R263). -/
def execDupack (p : Nat) (f : Frame) (s : State) : Host.Outcome State Fault Refusal := .next (doDupack p f s)

/-- ABORT_DONE (R261): later frames of the SEQ are discarded; the abort of an operation is confirmed, while one that comes after the STATUS
of its operation changes nothing (R264). -/
def doAbortDone (p : Nat) (f : Frame) (s : State) : State :=
  frameTake s p f (fun s =>
    if f.typ ≠ ft.ABORT_DONE then s
    else
      let o := frameOp s p f
      let s := s.modPort p (fun x => { x with aborted := x.aborted ++ [(f.subch, f.seq)] })
      match o with
      | some (cell, j) => if j.dev = .aborting then endOp s cell j (j.goal.getD cst.TIMEOUT) j.faddr false else s
      | none => s)

/-- ABORT_DONE (R261). -/
def execAbortDone (p : Nat) (f : Frame) (s : State) : Host.Outcome State Fault Refusal := .next (doAbortDone p f s)

/-- BUSY_RETRY (R260): 100 µs after a Busy status the command is sent again. -/
def doBusyRetry (cell : Nat) (s : State) : State :=
  match s.op? cell with
  | none => s
  | some j =>
    if j.state ≠ .active ∨ j.dev ≠ .none ∨ j.run = [] ∨ !weftMode s (opPort s j) ∨ s.time.now < j.mark + msRclk / 10 ∨ !weftReady s j then s
    else weftCmd s cell j

/-- BUSY_RETRY (R260). -/
def execBusyRetry (cell : Nat) (s : State) : Host.Outcome State Fault Refusal := .next (orWait (doBusyRetry cell) s)

/-! ### Register responses (R245, R255) -/

/-- The cord whose load waits for a frame of a port. -/
def loadWaiter (s : State) (p q : Nat) : Option Nat :=
  (List.range Config.cords).find? (fun c => match (s.cord c).run with
    | .waitLoad w => w.port == p && w.seq == q
    | _ => false)

/-- A store-buffer entry that waits for the acknowledgement of a frame of a port. -/
def entryWaits (p q : Nat) (e : SbEnt) : Bool := e.sent && e.port == p && e.seq == q

/-- The stores that wait for a frame are performed, in a store buffer or moved into a flush claim (R419). -/
def storeAcked (s : State) (p q : Nat) : State :=
  let left (es : List SbEnt) : List SbEnt := es.filter (fun x => !entryWaits p q x)
  let s := { s with
    cords := s.cords.map (fun (e : Nat × Core) => (e.1, { e.2 with sbuf := left e.2.sbuf }))
    loom := { s.loom with claims := s.loom.claims.map (fun (e : Nat × List Claim) =>
      (e.1, e.2.map (fun (x : Claim) => { x with stores := left x.stores }))) } }
  (List.range 4).foldl claimsReturn s

/-- A store waits for the acknowledgement of a frame of a port. -/
def storeWaits (s : State) (p q : Nat) : Bool :=
  s.cords.any (fun (e : Nat × Core) => e.2.sbuf.any (entryWaits p q))
    || s.loom.claims.any (fun (e : Nat × List Claim) => e.2.any (fun (x : Claim) => x.stores.any (entryWaits p q)))

/-- REG_RSP (R255): 8 bytes answer a REG_RD and none a REG_WR; another length is not allowed. -/
def doRegRsp (p : Nat) (f : Frame) (s : State) : State :=
  frameTake s p f (fun s =>
    if f.typ ≠ ft.REG_RSP then s
    else
      match loadWaiter s p f.seq with
      | some c => if f.len = 8 then loadAnswer s c (BitVec.ofNat 64 (ofBytes f.payload)) else s.bump (CHP_WERR.BADTYPE p) 1
      | none =>
        if !storeWaits s p f.seq then s
        else if f.len = 0 then storeAcked s p f.seq
        else s.bump (CHP_WERR.BADTYPE p) 1)

/-- REG_RSP (R255). -/
def execRegRsp (p : Nat) (f : Frame) (s : State) : Host.Outcome State Fault Refusal := .next (doRegRsp p f s)

/-! ### PCIe (R242, R265, R267) -/

/-- A channel port in PCIe mode. -/
def pciePort (s : State) (p : Nat) : Bool := p < Config.ports && !weftMode s p

/-- A ×8 port in PCIe mode, numbered from 48. -/
def wideIo (s : State) (p : Nat) : Bool := 48 ≤ p && p < 64 && !s.cxlMode (p - 48)

/-- DPC contains a port, or its device is gone (R265). -/
def dpc (s : State) (p : Nat) : State :=
  if pciePort s p then portGone s p cst.DEVICE_LOST
  else if wideIo s p then report s { Report.of (dom.mem (16 + (p - 48))) .UC with info := BitVec.ofNat 64 (p - 48) }
  else s

/-- DPC_CONTAINMENT (R265). -/
def execDpcContainment (p : Nat) (s : State) : Host.Outcome State Fault Refusal := .next (dpc s p)

/-- A store that waited for a PCIe link goes out (R137, R245). -/
def heldOut (p : Nat) (s : State) (e : SbEnt) : State :=
  match mmioOf s (e.pa % 2 ^ 48) with
  | .port q off => if entryWaits p 0 e ∧ q = p then s.send (.tlpWrite p off e.size (lineBytes e.bytes (e.pa % 256) e.size)) else s
  | _ => s

/-- The stores that waited for a PCIe link go out, cord by cord and then those moved into flush claims. -/
def heldStores (s : State) (p : Nat) : State :=
  let es := s.cords.flatMap (fun (e : Nat × Core) => e.2.sbuf)
    ++ s.loom.claims.flatMap (fun (e : Nat × List Claim) => e.2.flatMap (fun (x : Claim) => x.stores))
  storeAcked (es.foldl (heldOut p) s) p 0

/-- A PCIe link comes UP at a rate up to MAXRATE and a width of four lanes or fewer, neither of which a rule fixes. -/
def pcieUp (s : State) (p : Nat) : State :=
  let rate := s.freeVal.toNat % (s.get (CHP_CFG.MAXRATE p) + 1)
  let s := s.drew
  let width := 2 ^ (s.freeVal.toNat % 3)
  let s := s.drew
  let flit : Bool := rate == 5 || bitAt s.freeVal.toNat 0
  let s := ((s.drew.put (CHP_STAT.LINK p) lnk.UP).put (CHP_STAT.RATE p) rate).put (CHP_STAT.WIDTH p) width
  heldStores (((s.putFlag (CHP_STAT.FLIT p) flit).putFlag (CHP_STAT.DEAD p) false).modPort p (fun x => { x with leftUp := none })) p

/-- PCIE_HOTPLUG_EVENT (R265). -/
def doPcieHotplugEvent (p : Nat) (ev : HotPlug) (s : State) : State :=
  if !pciePort s p ∧ !wideIo s p then s
  else
    match ev with
    | .presence true => s.modPort p (fun x => { x with present := true })
    | .presence false => if (s.port p).present then dpc (s.modPort p (fun x => { x with present := false })) p else s
    | .attention => s.modPort p (fun x => { x with attention := true })
    | .power on => s.modPort p (fun x => { x with powered := on })
    | .linkState true =>
      if pciePort s p ∧ (s.get (CHP_STAT.LINK p) = lnk.TRAINING ∨ s.get (CHP_STAT.LINK p) = lnk.RETRAIN) then pcieUp s p else s
    | .linkState false => if wideIo s p ∨ linkUp s p then dpc s p else s

/-- PCIE_HOTPLUG_EVENT (R265). -/
def execPcieHotplugEvent (p : Nat) (ev : HotPlug) (s : State) : Host.Outcome State Fault Refusal := .next (doPcieHotplugEvent p ev s)

/-- The data of an operation that holds an address range: its cell, record, and the span. -/
def tlpSpan (s : State) (p a n : Nat) (inward : Bool) : Option (Nat × JRec × Span) :=
  s.chs.cells.findSome? (fun e =>
    let j := e.2
    if atDevice j ∧ opPort s j = p ∧ ((j.cmd == ccw.READ) == inward ∨ j.cmd = ccw.CONTROL) then
      (j.spans.find? (fun x => x.pa ≤ a && a + n ≤ x.pa + x.len)).map (fun x => (e.1, j, x))
    else none)

/-- A read completion in `resp`: its words, then 1 when the TLP is poisoned and 0 when it is not (R201, R203). -/
def tlpReply (s : State) (v n : Nat) (poison : Bool) : State :=
  { s with resp := wordsOf (bytesOf v n) ((n + 7) / 8) ++ [BitVec.ofNat 64 (boolNat poison)] }

/-- A device behind a PCIe port reads the data of an operation (R201, R203, R242). -/
def tlpRead (s : State) (p a n : Nat) : State :=
  match tlpSpan s p a n false with
  | none => s
  | some (cell, j, x) =>
    let t := s.viTenant j.vi
    if 4096 < n ∨ !burstMay s p t n false then s
    else
      let (s, g) := spansRead (burstTaken s p t n false) (dmaSrc (p / 4)) t [{ pa := a, tpa := x.tpa + (a - x.pa), len := n }]
      if g.poison.isSome ∧ !s.poisonPolicy then channelHalt s cell j
      else
        let k : JRec := { j with got := j.got + n }
        let k : JRec := match g.poison with
          | some f => if k.status = cst.OK then { k with status := cst.POISON, faddr := f } else k
          | none => k
        let bad := g.poison.isSome || (s.port p).badOut
        let s := (s.setOp cell k).modPort p (fun x => { x with badOut := false })
        tlpReply (s.account t led.DMA_OUT_BYTES n) g.val n bad

/-- A device behind a PCIe port writes the data of an operation (R203, R242); `bad` as in `dataMove`. -/
def tlpWrite (s : State) (p a : Nat) (bs : List Byte) (ep : Bool) (bad : Option Nat) : State :=
  match tlpSpan s p a bs.length true with
  | none => s
  | some (cell, j, x) =>
    let t := s.viTenant j.vi
    let n := bs.length
    let tpa := x.tpa + (a - x.pa)
    if 4096 < n ∨ !(burstMay s p t n true && inTurn s p) then s
    else
      let (s, ok) := dmaIn (burstTaken s p t n true) cell j tpa a n (ofBytes bs) ep bad
      s.setOp cell (dataNoted { j with got := j.got + n } (if ok then none else some tpa) tpa bad)

/-- A device behind a ×8 port accesses memory as tenant 0x000, untranslated (R267). -/
def wideTlp (s : State) (p : Nat) (t : Tlp) : State :=
  if !s.domOn (dom.mem (16 + (p - 48))) then s
  else
    match t with
    | .memRead a n =>
      let (s, b) := readBytes s 57 0 a n
      if b.reach = .ok then tlpReply s b.val n b.poison else s
    | .memWrite a bs ep => (writeBytes s 57 0 a bs.length (ofBytes bs) ep).1
    | .mmioCpl _ _ => s

/-- INBOUND_TLP (R242). -/
def doInboundTlp (p : Nat) (t : Tlp) (bad : Option Nat) (s : State) : State :=
  if wideIo s p then wideTlp s p t
  else if !pciePort s p ∨ !linkUp s p then s
  else
    match t with
    | .memRead a n => tlpRead s p a n
    | .memWrite a bs ep => tlpWrite s p a bs ep bad
    | .mmioCpl c v =>
      match (s.cord c).run with
      | .waitLoad w => if w.port = p then loadAnswer s c v else s
      | _ => s

/-- INBOUND_TLP (R242). -/
def execInboundTlp (p : Nat) (t : TlpIn) (s : State) : Host.Outcome State Fault Refusal :=
  .next (orWait (doInboundTlp p t.tlp t.bad) s)

/-! ### Coinciding events (R217, R264) -/

/-- A dispatch with what comes in its fclk: a disable acts first, a CANCEL finds the operation dispatched. -/
def dispatchWith (same : DispatchWith) (s : State) : State :=
  let s := match same.port with
    | some (p, w) => portCtl p w s
    | none => s
  let s := doShuttleDispatch same.shuttle s
  match same.cfg with
  | some (v, w) => viCfgWrite v w s
  | none => s

/-- SHUTTLE_DISPATCH (R224). -/
def execShuttleDispatch (n : DispatchWith) (s : State) : Host.Outcome State Fault Refusal :=
  .next (orWait (dispatchWith n) s)

/-- The device's final status, taken as it comes. -/
def finalTake (cell : Nat) (x : FinalStatus) (s : State) : State :=
  match x with
  | .nvme c => doNvmeCompletion cell c s
  | .frame p f =>
    if f.typ = ft.STATUS ∨ !f.crcOk then doStatus p f s
    else if f.typ = ft.DUPACK then doDupack p f s
    else s

/-- OPERATION_TIMEOUT (R218): a final status of the same fclk stands. -/
def execOperationTimeout (cell : TimeoutWith) (s : State) : Host.Outcome State Fault Refusal :=
  .next (orWait (fun s => doOperationTimeout cell.cell (match cell.final with
    | some x => finalTake cell.cell x s
    | none => s)) s)

end Sys2Proof.Machine
end

