-- ==== Sys2Proof/Machine/FcuRows.lean ====
section
/-! DEFINITION. Commands of the Fault Collection Unit: reports, block resets, windows, the safe state, the record and injection (R296
to R310). -/

namespace Sys2Proof.Machine

/-- Sources that exist (R295). -/
def sources : Nat := 316

/-! ### What a report says of the block itself (R203, R227; log 45) -/

/-- The event records of the pool's cells, four to a cell: queue by queue, the keys with the index of a cell's first record. -/
def eventCells (s : State) : List (Nat × Nat) :=
  s.chs.evqs.flatMap (fun (e : Nat × Evq) => (List.range ((e.2.recs.length + 3) / 4)).map (fun i => (e.1, 4 * i)))

/-- A poisoned event record is discarded and counted (R99, R227). -/
def eventPoison (s : State) (cell i : Nat) : State :=
  let used := usedCells s
  match (eventCells s)[cell - (used.filter (· < cell)).length]? with
  | some (k, o) =>
    let q := mget s.chs.evqs k Evq.empty
    if q.recs.length ≤ o + i then s
    else evqUpdateUsed { s with chs := { s.chs with
      evqs := mput s.chs.evqs k { recs := q.recs.eraseIdx (o + i), lost := q.lost + 1 } Evq.empty } } (k % 128)
  | none => s

/-- A bad word of the pool: under SECDED a single bit is corrected and counted; else the word of the cell in INFO[17:0] that INFO[20:18]
names is poisoned (R227). -/
def poolInput (s : State) (r : Report) : State :=
  let cell := bits r.info.toNat 0 18
  if r.sev = .CE then (if s.flag CHS_CFG.POOLPROT then s.bump CHS_POOLERR.CECOUNT 1 else s)
  else if r.sev ≠ .DE then s
  else if (usedCells s).contains cell then
    { s with chs := { s.chs with
      poisonCells := if s.chs.poisonCells.contains cell then s.chs.poisonCells else s.chs.poisonCells ++ [cell] } }
  else eventPoison s cell (bits r.info.toNat 18 3 / 2)

/-- INFO of the CE report that tells of a failed handover from the fabric to port p (log 45). -/
def handoverInfo (p : Nat) : Nat := 2 ^ 63 + p

/-- What a report tells of data in its block: a bad word of the pool, or the failed handover from the fabric to the port that INFO
names, which its quad reports as CE, the one class below UC that R305 gives it (log 45). -/
def blockInput (s : State) (r : Report) : State :=
  if r.src = src.pool then poolInput s r
  else if dom.quad 0 ≤ r.src ∧ r.src ≤ dom.quad 11 ∧ r.sev = .CE then
    match (List.range 4).find? (fun i => r.info.toNat == handoverInfo (4 * (r.src - dom.quad 0) + i)) with
    | some i => s.modPort (4 * (r.src - dom.quad 0) + i) (fun x => { x with badOut := true })
    | none => s
  else s

/-- Shuttles that a reaction has turned off give up their operations (R233). -/
def reportsWith (s : State) (rs : List Report) : State :=
  let rs := rs.filter (fun r => r.src < sources)
  (List.range Config.shuttles).foldl shutLost (reports (rs.foldl blockInput s) false rs)

/-- FAULT_REPORT (R300): the reports of one fclk. -/
def execFaultReport (rs : List Report) (s : State) : Host.Outcome State Fault Refusal := .next (reportsWith s rs)

/-! ### Block resets (R306) -/

/-- The rclk at which the latest block reset of a domain was asserted. -/
def lastReset (s : State) (d : Nat) : Nat := (mget s.fcu.resets d []).foldl max 0

/-- The work of a channel-port quad: Weft links retrain; PCIe operations complete DEVICE_LOST. -/
def quadReset (s : State) (q : Nat) : State :=
  (List.range 4).foldl (fun s i =>
    let p := 4 * q + i
    let s := if weftMode s p then s
      else (opsWith s (fun j => opPort s j == p && opOpen j)).foldl (fun s c => endIfOpen s c cst.DEVICE_LOST) s
    if s.get (CHP_STAT.LINK p) = lnk.DOWN then s else retrain s p) s

/-- The work in hand of a block at its reset; it is treated when the block is released (DEDUCED, log 40). -/
def resetWork (s : State) (d : Nat) : State :=
  if 196 ≤ d ∧ d < 204 then
    (List.range 4).foldl (fun s i =>
      let n := 4 * (d - 196) + i
      if s.get (CHS_SHUT.STATE n) = shutst.RUNNING then shutRestart s n else s) s
  else if 204 ≤ d ∧ d < 212 then parityEnd s (d - 204) none
  else if 244 ≤ d ∧ d < 256 then quadReset s (d - 244)
  else if 256 ≤ d ∧ d < 260 then { s with spl := { s.spl with upLinks := s.spl.upLinks.filter (fun l => l / 4 ≠ d - 256) } }
  else s

/-- BLOCK_RESET_RELEASE (R306): 100 rclk after the reset was asserted. -/
def doBlockResetRelease (d : Nat) (s : State) : State :=
  if d ∉ s.fcu.held ∨ s.time.now < lastReset s d + 100 then s
  else resetWork { s with fcu := { s.fcu with held := s.fcu.held.erase d } } d

/-- BLOCK_RESET_RELEASE (R306). -/
def execBlockResetRelease (dom : Nat) (s : State) : Host.Outcome State Fault Refusal := .next (orWait (doBlockResetRelease dom) s)

/-! ### Windows (R307) -/

/-- A window's end condition holds. -/
def windowOver (s : State) : Scope → Bool
  | .triad t =>
    (s.triad t).mig.isNone && s.places.all (fun k => retriesNow s t k == 0 || s.flag (TRI_STAT.halt t k))
  | .domain d => !s.fcu.held.contains d && decide (lastReset s d + 2100 ≤ s.time.now)
  | .all => false

/-- CONSEQ_WINDOW_CLOSE (R307). -/
def doConseqWindowClose (i : Nat) (s : State) : State :=
  match s.fcu.windows[i]? with
  | some w => if windowOver s w then { s with fcu := { s.fcu with windows := s.fcu.windows.erase w } } else s
  | none => s

/-- CONSEQ_WINDOW_CLOSE (R307). -/
def execConseqWindowClose (i : Nat) (s : State) : Host.Outcome State Fault Refusal := .next (doConseqWindowClose i s)

/-! ### The safe state (R308) -/

/-- Links are idle; store buffers and caches are lost. -/
def safeEnd (s : State) : State :=
  let s := s.spl.upLinks.foldl (fun s l => s.send (.fenceSet l)) { s with net := [] }
  let s := (List.range Config.ports).foldl (fun s p => linkLeaves s p lnk.DOWN) s
  let s := (List.range Config.cords).foldl (fun s c =>
    if (s.cord c).sbuf.isEmpty then s else s.modCord c (fun k => { k with sbuf := [] })) s
  let s := (List.range Config.homes).foldl (fun s h =>
    if (s.ctl h).merge.isEmpty then s else s.modCtl h (fun c => { c with merge := [] })) s
  { s with
    l2 := [], ev := [], snoops := [], warp := [], dir := [], txns := [], evPend := []
    chs := { s.chs with dc := [], grants := [] }
    spl := { s.spl with upLinks := [] }, fcu := { s.fcu with safeDone := true } }

/-- SAFE_STATE_COMPLETE (R308). -/
def doSafeStateComplete (s : State) : State :=
  if s.fcu.safe.isNone ∨ s.fcu.safeDone then s else safeEnd s

/-- SAFE_STATE_COMPLETE (R308). -/
def execSafeStateComplete (s : State) : Host.Outcome State Fault Refusal := .next (doSafeStateComplete s)

/-! ### The record, wire faults, counters (R297, R302, R303) -/

/-- A write of FCU_REC: clearing VALID also clears MERGED and CONSEQ. -/
def fcuRecWrite (s : State) (v : Word) : State :=
  let go := bitAt (taken s FCU_REC.VALID.off v) 63
  let s := hostWrite s FCU_REC.VALID.off v
  if go then (s.put FCU_REC.MERGED 0).put FCU_REC.CONSEQ 0 else s

/-- FCU_RECORD_CLEAR (R302): a report in the same fclk wins. -/
def execFcuRecordClear (v : Word) (same : List Report) (s : State) : Host.Outcome State Fault Refusal :=
  .next (reportsWith (fcuRecWrite s v) same)

/-- FCU_WIRE_CLEAR (R297). -/
def execFcuWireClear (k : Nat) (v : Word) (s : State) : Host.Outcome State Fault Refusal :=
  .next (if k < 1024 then hostWrite s (FCU_SRC.off k) v else s)

/-- FCU_CNT_READ (R303). -/
def execFcuCntRead (k : Nat) (s : State) : Host.Outcome State Fault Refusal :=
  .next (if k < 1024 then hostRead s (FCU_CNT.off k) else s)

/-! ### Injection (R310) -/

/-- The severity class of a code. -/
def sevOf (n : Nat) : Severity :=
  if n = 0 then .CE else if n = 1 then .DE else if n = 2 then .UC else .UF

/-- The rails that a pattern drives. -/
def railsOf (n : Nat) : Rails := if n = 1 then .bothLow else if n = 2 then .bothHigh else .fault

/-- A write of FCU_INJ: GO injects the pattern once. -/
def injWrite (s : State) (v : Word) : State :=
  let go := bitAt (taken s FCU_INJ.GO.off v) 63
  let s := hostWrite s FCU_INJ.GO.off v
  if go then
    reports s true [{ src := s.get FCU_INJ.SRC, sev := sevOf (s.get FCU_INJ.SEV), rails := railsOf (s.get FCU_INJ.PATTERN)
                      far := s.get FCU_INJ.FAR, info := 0, cord := none, line := none }]
  else s

/-- FAULT_INJECT (R310). -/
def execFaultInject (v : Word) (s : State) : Host.Outcome State Fault Refusal := .next (injWrite s v)

end Sys2Proof.Machine
end

