-- ==== Sys2Proof/Machine/Splice.lean ====
section
/-! DEFINITION. Shared operations of bolts and splice pairs: presented candidates, lost modules, fences, the checkpoint region and the
capture (R311 to R336). -/

namespace Sys2Proof.Machine

/-- STATE of SPL_STAT. -/
def spst.NONE : Nat := 0
def spst.ACTIVE : Nat := 1
def spst.STANDBY : Nat := 2
def spst.TAKEOVER : Nat := 3
def spst.FENCED : Nat := 4

/-- A bit of one of the masks of SPL_BOLT. -/
def State.boltBit (s : State) (f : Fld) (m : Nat) : Bool := bitAt (s.get f) m

def State.setBolt (s : State) (f : Fld) (m : Nat) (b : Bool) : State := s.put f (setBit (s.get f) m b)

/-- The members other than this module. -/
def otherMembers (s : State) : List Nat := (List.range 16).filter (fun m => s.boltBit SPL_BOLT.MEMBERS m && m != s.mid)

/-- A number put in its place in an ascending list. -/
def insertNat (n : Nat) : List Nat → List Nat
  | [] => [n]
  | x :: t => if n = x then x :: t else if n < x then n :: x :: t else x :: insertNat n t

/-! ### Candidates (R315, R316) -/

/-- The oldest announcement is shown in SPL_ADMIT and SPL_IDENT, or none. -/
def present (s : State) : State :=
  let s := (s.putFlag SPL_ADMIT.SIGV false).putFlag SPL_ADMIT.PENDING (!s.spl.announces.isEmpty)
  let s := { s with spl := { s.spl with nonceSent := false } }
  match s.spl.announces with
  | [] => s
  | a :: _ =>
    (List.range 20).foldl (fun s j => s.wr (SPL_IDENT.off j) (a.ident.getD j 0).toNat) (s.put SPL_ADMIT.LINK a.link)

/-- The links on which the candidate shown has announced itself. -/
def candidateLinks (s : State) : List Nat :=
  match s.spl.announces with
  | [] => []
  | a :: t => a.link :: (t.filter (fun b => b.ident == a.ident)).map Announcement.link

/-- The candidate shown is answered; the next one is shown. -/
def answerCandidate (s : State) : State :=
  match s.spl.announces with
  | [] => s
  | a :: t => present { s with spl := { s.spl with announces := t.filter (fun b => b.ident != a.ident) } }

/-- An announcement reaches the manager: kept until answered, unless its candidate was rejected. -/
def announced (s : State) (a : Announcement) : State :=
  if a.link ∈ s.spl.rejected ∨ s.spl.announces.any (fun b => b.link == a.link && b.ident == a.ident) then s
  else
    let first := s.spl.announces.isEmpty
    let s := { s with spl := { s.spl with announces := s.spl.announces.filter (fun b => b.link != a.link) ++ [a] } }
    if first then present s else s

/-- RESULT of an ADMIT: 0 when the module may be admitted under the MID written. -/
def admitResult (s : State) : Nat :=
  let m := s.get SPL_ADMIT.MID
  if !s.flag SPL_ADMIT.PENDING then 2
  else if m = 0 ∨ (s.boltBit SPL_BOLT.MEMBERS m ∧ !s.boltBit SPL_BOLT.DEAD m) ∨ s.boltBit SPL_BOLT.STANDBYS m then 1
  else if !(candidateLinks s).any (fun l => s.spl.upLinks.contains l) then 3
  else 0

/-- A MID is a member's from now on, in STANDBY or not (R316). -/
def memberJoins (s : State) (m : Nat) (standby : Bool) : State :=
  let s := (s.setBolt SPL_BOLT.MEMBERS m true).setBolt SPL_BOLT.DEAD m false
  if standby then s.setBolt SPL_BOLT.STANDBYS m true else s

/-- ADMIT and ADMIT_STANDBY: the candidate is sent its MID, the member mask and the pick. -/
def admitCandidate (s : State) (standby : Bool) : State :=
  let r := admitResult s
  let s := s.put SPL_ADMIT.RESULT r
  if r ≠ 0 then s
  else
    let m := s.get SPL_ADMIT.MID
    let ls := (candidateLinks s).filter (fun l => s.spl.upLinks.contains l)
    let s := memberJoins s m standby
    let s := match ls with
      | l :: _ => s.send (.admission l m (s.get SPL_BOLT.MEMBERS) s.pick standby)
      | [] => s
    let s := { s with spl := { s.spl with peers := ls.foldl (fun p l => mset p l m) s.spl.peers } }
    answerCandidate s

/-- REJECT: the candidate is not shown again before its links retrain. -/
def rejectCandidate (s : State) : State :=
  if !s.flag SPL_ADMIT.PENDING then s.put SPL_ADMIT.RESULT 2
  else
    let ls := candidateLinks s
    let s := match ls with
      | l :: _ => s.send (.reject l)
      | [] => s
    answerCandidate { s.put SPL_ADMIT.RESULT 0 with spl := { s.spl with rejected := ls ++ s.spl.rejected } }

/-- A write of SPL_ADMIT. -/
def admitWrite (s : State) (v : Word) : State :=
  if s.role ≠ 1 then hostWrite s SPL_ADMIT.off v
  else
    let op := bits (taken s SPL_ADMIT.off v) 12 2
    let s := hostWrite s SPL_ADMIT.off v
    if op = 1 then admitCandidate s false
    else if op = 2 then admitCandidate s true
    else if op = 3 then rejectCandidate s
    else s

/-- The manager's nonce. -/
def nonceWords (s : State) : List Word := (List.range 4).map (fun j => BitVec.ofNat 64 (s.rd (SPL_NONCE.off j)))

/-- A write of SPL_NONCE_3 sends the nonce to the candidate shown (R315). -/
def nonceWrite (s : State) (v : Word) : State :=
  let s := hostWrite s (SPL_NONCE.off 3) v
  if s.role = 1 ∧ s.flag SPL_ADMIT.PENDING then
    { s.send (.nonce (s.get SPL_ADMIT.LINK) (nonceWords s)) with spl := { s.spl with nonceSent := true } }
  else s

/-! ### Lost modules (R336) -/

/-- Once every member has acknowledged REJOIN or is lost, the twin serves the alias and its cords go at the next
boundary (R331). -/
def rejoinCheck (s : State) : State :=
  if s.spl.rejoining ∧ s.spl.awaiting = [] then
    { (s.putFlag SPL_BOLT.ALIASV true).put SPL_BOLT.ALIAS (s.get SPL_CFG.TWINMID) with
      spl := { s.spl with rejoining := false, release := true } }
  else s

/-- The module that serves a line. -/
def lineServer (s : State) (line : Nat) : Nat := servedBy s (line / 2 ^ 40 % 16)

/-- Cached lines homed at a module are poisoned in place, their dirty data discarded; fills of such lines that wait end. -/
def poisonLines (s : State) (m : Nat) : State :=
  { s with
    l2 := (s.l2.filter (fun e => !(lineServer s (e.1 % 2 ^ 44) == m && e.2.st == .I))).map (fun (e : Nat × CLine) =>
      if lineServer s (e.1 % 2 ^ 44) = m then (e.1, { e.2 with poison := e.2.valid, dirty := 0 }) else e)
    ev := s.ev.filter (fun (e : Nat × EvEnt) => lineServer s e.2.line != m)
    chs := { s.chs with dc := s.chs.dc.map (fun (e : Nat × DcLine) => if lineServer s e.1 = m then (e.1, { e.2 with poison := 15 }) else e) } }

/-- The four sectors of a line of this module written poisoned. -/
def poisonHome (s : State) (line : Nat) : State :=
  match homeOfLine s line with
  | some h => homeSectors s h line 15 (lineNow s h (lowLine line)).1 15 (ownerOf s h (line * 256 % 2 ^ 48)) .none
  | none => s

/-- An agent gone from the directory entry of a line, what it owned written poisoned. -/
def agentGone (s : State) (a : Nat) (e : Nat × DirEnt) : State :=
  let d := e.2
  let rest := d.sharers.filter (· ≠ a)
  if (d.st = .X ∨ d.st = .O) ∧ d.owner = a then
    (poisonHome s e.1).setDir e.1 (if d.st = .O then sharersOnly rest else DirEnt.none)
  else if a ∈ d.sharers then s.setDir e.1 (if d.st = .S then sharersOnly rest else { d with sharers := rest })
  else s

/-- Requests out to a lost module get no answer: loads trap, stores bounce (R137). -/
def owedLost (s : State) (m : Nat) : State :=
  (s.owed.filter (fun o => (homeOfLine s o.line).isNone && lineServer s o.line == m)).foldl (fun s o =>
    owedCmp s o (if o.kind.noted then .silent else .hole)) s

/-- Requests of a lost module that wait behind other transactions go. -/
def queuedLost (s : State) (m : Nat) : State :=
  { s with txns := s.txns.map (fun (e : Nat × Txn) => (e.1, { e.2 with queue := e.2.queue.filter (fun q => q.2.src ≠ 64 + m) })) }

/-- A module is lost: a dead target, its lines poisoned, its snoops answered, reported on its last link (R336). -/
def lostMember (s : State) (m link : Nat) : State :=
  let s := owedLost (queuedLost (poisonLines (s.setBolt SPL_BOLT.DEAD m true) m) m) m
  let asked := (s.txns.filter (fun e => (64 + m) ∈ e.2.waits)).map (·.1)
  let s := asked.foldl (fun s l => homeAnswer s (64 + m) l .I) s
  let s := s.dir.foldl (fun s e => agentGone s (64 + m) e) s
  let s := report s { Report.of (dom.link link) .UC with info := BitVec.ofNat 64 m }
  rejoinCheck { s with spl := { s.spl with awaiting := s.spl.awaiting.filter (· ≠ m) } }

/-- The last link known to lead to a module: the highest-numbered one. -/
def lastLink (s : State) (m : Nat) : Nat := (s.spl.peers.filter (fun e => e.2 == m)).foldl (fun _ e => e.1) 0

/-! ### Fence and decision (R328, R329) -/

/-- The active module is fenced: UF, and the reaction FENCE. -/
def fenceSelf (s : State) : State :=
  safeEntry (raise (s.put SPL_STAT.STATE spst.FENCED) src.splice .UF) .fence

/-- The MID whose heartbeats the arbitrator watches. -/
def watched (s : State) : Nat := s.spl.lastFrom.getD (s.get SPL_CFG.ARBA)

/-- The arbitrator decides on a takeover. -/
def decideTakeover (s : State) : State :=
  let m := watched s
  let s := { s with pins := { s.pins with fenceOut := false }, spl := { s.spl with fenceOutAt := s.time.now } }
  let s := ((s.send (.fenceCmd m)).send (.fenced m)).putFlag SPL_ARB.DECIDED true
  lostMember s m (lastLink s m)

/-- A write of SPL_CTL. -/
def splCtlWrite (s : State) (v : Word) : State :=
  let w := taken s SPL_CTL.off v
  let s := hostWrite s SPL_CTL.off v
  let s := if bitAt w 0 ∧ s.get SPL_STAT.STATE = spst.ACTIVE ∧ !s.spl.refusing then
      { s with spl := { s.spl with refusing := true, final := none } }
    else s
  if bitAt w 1 ∧ s.flag SPL_CFG.ARBEN then decideTakeover s else s

/-! ### The checkpoint region (R324) -/

/-- Sixty-four bytes of the region written past every cache; an older write of them that waits at the controller is superseded. -/
def ckptWrite (s : State) (o : Nat) (ws : List Word) : State :=
  let low := ckptLow s + o
  match memHome s low with
  | some h =>
    let s := supersede { s with warp := mdel s.warp (low / 256) } (low / 256) (spanMask (low % 256) 64)
    writeSector s h (low / 64) (ofBytes (bytesOfWords ws)) false false
  | none => s

/-- n free words. -/
def freeWords (s : State) (n : Nat) : State × List Word :=
  ({ s with free := s.free + n }, (List.range n).map (fun i => Config.freeWord (s.free + i)))

/-- Words with a CRC-32C over all that precedes it in the last four bytes, or in the low half of the last word. -/
def crcLow (ws : List Word) : List Word := ws ++ [BitVec.ofNat 64 (crc32c (bytesOfWords ws))]

/-- The claim word with this module's serial (R324). Bytes 24 to 59 are open. -/
def writeClaim (s : State) : State :=
  let (s, fs) := freeWords s 5
  let head := [Config.serial 0, Config.serial 1, BitVec.ofNat 64 s.pick] ++ fs.take 4
  let last := (fs.getD 4 0).toNat % 2 ^ 32
  let crc := crc32c (bytesOfWords head ++ bytesOf last 4)
  ckptWrite s 0x1080 (head ++ [BitVec.ofNat 64 (last + crc * 2 ^ 32)])

/-- The commit word of a capture (R324). The increment's length, CRC and words 4 to 6 are open, its area goes by the epoch. -/
def writeCommit (s : State) (e : Nat) : State :=
  let (s, fs) := freeWords s 6
  let area := e % 2
  let len := (fs.getD 0 0).toNat % 2 ^ 32
  let ws := [BitVec.ofNat 64 (e % 2 ^ 48 + 2 ^ 48), BitVec.ofNat 64 s.pick, BitVec.ofNat 64 (len + area * 2 ^ 32)] ++ (fs.drop 1).take 4
  ckptWrite s (0x1000 + 0x40 * area) (crcLow ws)

/-! ### The capture (R323 to R327) -/

/-- Registers of a capture: the Loom's, the set-up of the channel subsystem, the doorbell pages and SPL_PROT (R323). -/
def captured (o : Nat) : Bool :=
  o == LOOM_LEDSTAT.off || (0x105000 ≤ o && o < 0x108400) || (0x109400 ≤ o && o < 0x109700) || o == CHS_CFG.off
    || (0x4000200 ≤ o && o < 0x4000500) || (0x4002000 ≤ o && o < 0x4004000) || (0x4010000 ≤ o && o < 0x4030000)
    || (0x8000000 ≤ o && o < 0x9000000) || (0x600200 ≤ o && o < 0x600280)

/-- The state in which a cord is captured: one in an open knot as a slip of cause CAPACITY would leave it, itself unchanged. -/
def captureCore (s : State) (c : Nat) : Core := (s.cord c).slip (s.tenantOf c) slip.CAPACITY 0

/-- Each running cord's checkpoint copy is read; one that cannot be read halts its cord (R48). -/
def copiesRead (s : State) : State :=
  (List.range s.cordCount).foldl (fun s c =>
    if s.assigned c ∧ !s.flag (TRI_STAT.halt (s.triadOf c) (s.shareOf c)) then (ckptRead s (s.triadOf c) (s.shareOf c)).1 else s) s

/-- The SHARED lines of a cord's store buffer, with their bytes. -/
def captureStores (s : State) (c : Nat) : List (Nat × LineMask × LineData) :=
  ((captureCore s c).sbuf.filter (fun e => match homeOfLine s (normLine s e.pa) with
    | some h => isShared s h (e.pa / 256 * 256 % 2 ^ 48)
    | none => false)).map (fun e => (normLine s e.pa, e.mask, e.bytes))

/-- Writes to SHARED lines that wait at their devices. -/
def sharedWrites (s : State) : List Nat :=
  (s.loom.waiting.filter (fun w => match w.what with
    | .write h _ _ _ _ _ => isShared s h (w.line * 256)
    | _ => false)).map Waiting.line

/-- What a capture taken now holds. -/
def imageNow (s : State) : Image :=
  let cs := (List.range s.cordCount).filter (fun c => s.assigned c)
  { cords := cs.map (fun c => (c, ctxImage (captureCore s c)))
    halted := cs.filter (fun c => s.flag (TRI_STAT.halt (s.triadOf c) (s.shareOf c)))
    stores := cs.flatMap (captureStores s)
    regs := s.regs.filter (fun e => captured e.1 || e.1 == LOOM_PICK.off)
    scbs := s.chs.scbs.map (fun e => (e.1, scbWords s e.2))
    laps := s.chs.laps, ledger := s.loom.live, doors := s.chs.doorbells, writes := sharedWrites s }

/-- Journal records that a capture's journal part holds. -/
def mirrorBatch : Nat := 2048

/-- The mirror's entry of a cell is not the record that the cell holds. -/
def mirrorStale (s : State) (cell : Nat) (j : JRec) : Bool :=
  match mget? s.spl.mirror cell with
  | some x => x.2 != j
  | none => true

/-- The record of a cell mirrored under an epoch. An acceptance is thereby mirrored. -/
def mirrorCell (e : Nat) (s : State) (cell : Nat) : State :=
  match s.op? cell with
  | none => s
  | some j =>
    let j : JRec := if j.mirrored then j else { j with mirrored := true, epoch := e }
    let s := s.setOp cell j
    { s with spl := { s.spl with mirror := mset s.spl.mirror cell (e, j) } }

/-- Mirrored records whose cells have been freed are mirrored as RETIRED. -/
def mirrorRetired (s : State) (e : Nat) : State :=
  { s with spl := { s.spl with mirror := s.spl.mirror.map (fun (x : Nat × Nat × JRec) =>
    if (s.op? x.1).isNone ∧ x.2.2.state ≠ .retired then (x.1, (e, { x.2.2 with state := .retired })) else x) } }

/-- The next capture: an epoch begins, the image is taken, and journal records that have changed are mirrored, oldest first, at most
2,048 of them (R35, R209, R323). -/
def takeCapture (s : State) : State :=
  let s := copiesRead s
  let e := s.spl.epochNow + 1
  let new := ((opsWith s (fun _ => true)).filter (fun c => match s.op? c with
    | some j => mirrorStale s c j
    | none => false)).take mirrorBatch
  let s := { s with spl := { s.spl with
    epochNow := e, capture := some e, image := some (imageNow s)
    final := if s.spl.refusing && s.spl.final.isNone then some e else s.spl.final } }
  new.foldl (mirrorCell e) (mirrorRetired s e)

/-- A heartbeat to the arbitrator (R327). -/
def sendHeartbeat (s : State) (yields : Bool) : State :=
  s.send (.heartbeat { mid := s.mid, pick := s.pick, epoch := s.get SPL_STAT.EPOCH, yields := yields })

/-- The splice work of a house beat at rclk 12,600: the claim word, the capture, the heartbeat (R323, R326, R327). -/
def houseSplice (s : State) (h : HouseInputs) : State :=
  if s.stopped ∨ s.get SPL_STAT.STATE ≠ spst.ACTIVE then s
  else if h.claim.isSome then fenceSelf s
  else
    let s :=
      if h.ckFail then
        raise { s.bump SPL_STAT.CKFAIL 1 with spl := { s.spl with ckFail := true } } src.splice .UC
      else
        let s := { s with spl := { s.spl with ckFail := false } }
        if s.spl.capture.isSome then s.bump SPL_STAT.SKIPS 1 else takeCapture s
    sendHeartbeat s false

end Sys2Proof.Machine
end

