-- ==== Sys2Proof/Machine/Takeover.lean ====
section
/-! DEFINITION. The checkpoint load of a takeover (R332). -/

namespace Sys2Proof.Machine

/-- The tenant is marked in SPL_PROT (R319). -/
def protectedTenant (s : State) (t : Nat) : Bool := bitAt (s.rd (SPL_PROT.off (t / 64))) (t % 64)

/-- The epoch of the commit that the twin loads: the higher of the valid ones. -/
def loadEpoch (ck : Checkpoint) : Option Nat :=
  (([ck.wordA, ck.wordB].filter (fun w => w.valid && w.crcOk)).map CommitWord.epoch).max?

/-- An undo record put back on the device. -/
def applyUndo (s : State) (u : UndoRec) : State :=
  let low := lowLine u.line
  match memHome s (low * 256) with
  | some h => (List.range 4).foldl (fun s i =>
      writeSector s h (low * 4 + i) (lineSector u.bytes i) (bitAt u.poison.toNat i) false) s
  | none => s

/-- A captured store-buffer entry written at its home. -/
def applyStore (s : State) (e : Nat × LineMask × LineData) : State :=
  match memHome s (lowLine e.1 * 256) with
  | some h => homePartial s h e.1 (ownerOf s h (lowLine e.1 * 256)) e.2.1 e.2.2 0 false
  | none => s

/-- The registers and tables loaded. The pick count goes on from the captured one: a worker's at its next PICKSYNC edge. -/
def loadTables (s : State) (ck : Checkpoint) : State :=
  let pick := match ck.regs.find? (fun e => e.1 == LOOM_PICK.off) with
    | some e => bits e.2.toNat 0 48
    | none => 0
  let s := ck.regs.foldl (fun s e => if captured e.1 then s.wr e.1 e.2.toNat else s) s
  let s := { s with
    loom := { s.loom with live := ck.ledger.foldl (fun m e => mput m e.1 (e.2 % 2 ^ 64) 0) [], acc := [], deferred := [], flushes := [] }
    chs := { s.chs with
      laps := ck.laps.foldl (fun m e => mput m e.1 e.2 1) [], evqs := [], cells := [], posted := [], retired := []
      doorbells := ck.doors.foldl (fun m e => mset m e.1 e.2) [] } }
  let s := (List.range Config.cords).foldl evqUpdateUsed s
  if s.role = 2 then { s with loom := { s.loom with admitPick := some pick } }
  else
    { (s.put LOOM_PICK.PICK pick).put LOOM_PICK.BEAT 0 with
      time := { s.time with pickStart := s.time.now, loom := true } }

/-- A cord of a protected tenant loaded and left stopped, or halted as it was captured; any other cord is unassigned. -/
def takeCord (s : State) (ck : Checkpoint) (c : Nat) : State :=
  if !s.assigned c then s
  else if !protectedTenant s (s.tenantOf c) then (s.put (LOOM_CORDA.STATE c) 0).setCord c Core.zero
  else
    match ck.cords.find? (fun e => e.1 == c) with
    | none => s
    | some e =>
      let k := ctxCore e.2
      let t := s.triadOf c
      let p := s.shareOf c
      if !ctxOk e.2 then raiseAt s (src.triad t) .UC (s.ctxOf c)
      else if ck.halted.contains c then
        ((s.putFlag (TRI_STAT.halt t p) true).putFlag (TRI_STAT.ctxv t p) true).setCord c { k with run := .halted }
      else s.setCord c { k with run := .stopped }

/-- What the twin makes of a mirrored record before it acts on it; none for an acceptance made after the capture and for
an operation retired before it (R332). A record that is sent again keeps its state (R216); an ENDING one, whose final status is known no
more, goes on as ACTIVE (DESIGN CHOICE, log 40). -/
def mirrorTake (c : Nat) (e : MirrorEntry) : Option (Nat × JRec) :=
  let late : Bool := decide (c < e.epoch)
  let j : JRec := { e.jrec with mirrored := true, epoch := e.epoch, shut := none, door := none }
  let unsent : JRec := { j with
    ccw := j.first, ccwCount := 0, ccwno := 0, afterJump := false, cmd := 0, md := 0, run := [], more := false
    spans := [], got := 0, skip := 0, cmds := 0, stale := false, sense := [], past := [], dev := .none, mark := 0, goal := none, endCcw := 0, resid := 0, moved := 0, status := 0
    lenx := false, dstat := 0, faddr := 0, slot := none, half := false, wrote := false }
  if !e.crcOk then none
  else
    match j.state with
    | .accepted => if late then none else some (e.cell, j)
    | .dispatched => some (e.cell, unsent)
    | .active => some (e.cell, unsent)
    | .ending => some (e.cell, { unsent with state := .active })
    | .posted => some (e.cell, { j with half := false, wrote := false, slot := if late then none else j.slot })
    | .retired => if late then some (e.cell, { j with state := .posted, half := false, wrote := false, slot := none }) else none

/-- The journaled slot of a mirrored record, counted from the captured head of its ring; a record without one comes last. -/
def slotRank (s : State) (e : MirrorEntry) : Nat :=
  let v := e.jrec.vi
  let n := ringSize s v
  match e.jrec.slot with
  | some k => (k + n - s.get (VI_CQHEAD.HEAD v) % n) % n
  | none => n + e.jrec.age

/-- A mirror entry put in its place by slot. -/
def bySlot (s : State) (e : MirrorEntry) : List MirrorEntry → List MirrorEntry
  | [] => [e]
  | x :: t => if slotRank s e ≤ slotRank s x then e :: x :: t else x :: bySlot s e t

/-- The journal loaded: posted records in the order of their slots. -/
def loadJournal (s : State) (c : Nat) (es : List MirrorEntry) : State :=
  (es.foldr (bySlot s) []).foldl (fun s e =>
    match mirrorTake c e with
    | none => s
    | some (cell, j) =>
      let s := (s.setOp cell j).setScb j.subch { s.scb j.subch with opened := (s.scb j.subch).opened + 1 }
      let s := s.put (CHS_VI_CFG.QUEUED j.vi) (s.get (CHS_VI_CFG.QUEUED j.vi) + 1)
      let s := { s with chs := { s.chs with order := max s.chs.order (j.age + 1) } }
      if j.state = .posted then s.setPosted j.vi (s.postedOf j.vi ++ [cell]) else s) s

/-- An open operation that does not go on: on a PCIe port, or of an unprotected tenant. -/
def failOpen (s : State) (cell : Nat) : State :=
  match s.op? cell with
  | none => s
  | some j =>
    if !protectedTenant s (s.viTenant j.vi) ∨ !weftMode s (opPort s j) then endIfOpen s cell cst.DEVICE_LOST else s

/-- The VIs that are enabled. -/
def enabledVis (s : State) : List Nat :=
  (s.regs.filter (fun e => 0x4010000 ≤ e.1 && e.1 < 0x4030000 && e.1 % 0x20 == 0 && bitAt e.2.toNat 0)).map (fun e => (e.1 - 0x4010000) / 0x20)

/-- The SCBs and the journal, and what becomes of each operation. -/
def loadChannel (s : State) (c : Nat) (ck : Checkpoint) : State :=
  let s := ck.scbs.foldl (fun s e => s.setScb e.1 { (scbOf e.2) with opened := 0, mdts := (s.scb e.1).mdts }) s
  let s := (enabledVis s).foldl (fun s v => s.put (CHS_VI_CFG.QUEUED v) 0) s
  let s := loadJournal s c ck.journal
  let s := (opsWith s opOpen).foldl failOpen s
  let s := (enabledVis s).foldl (fun s v =>
    if protectedTenant s (s.viTenant v) then s else s.putFlag (CHS_VI_CFG.EN v) false) s
  (List.range Config.ports).foldl (fun s p =>
    if linkUp s p then
      (portSessions s p).foldl (fun s n => if (mget? (s.port p).sessions n).isSome then s else openSession s p n) s
    else s) (poolUpdate s)

/-- The load of a checkpoint in the order of R332. -/
def loadCheckpoint (s : State) (c : Nat) (ck : Checkpoint) : State :=
  let s := ((ck.undo.filter (fun u => c ≤ u.epoch)).reverse).foldl applyUndo s
  let s := ck.stores.foldl applyStore s
  let s := loadTables s ck
  let s := (List.range s.cordCount).foldl (fun s k => takeCord s ck k) s
  let s := loadChannel s c ck
  { s.put SPL_STAT.EPOCH c with spl := { s.spl with loaded := some c, epochNow := c } }

end Sys2Proof.Machine
end

