-- ==== Sys2Proof/Machine/Rpl.lean ====
section
/-! DEFINITION. Record and replay: the journal ring, recording, the checks of a replay and the inputs it applies (R380 to R395). -/

namespace Sys2Proof.Machine

/-! ### States and reasons -/

def rst.IDLE : Nat := 0
def rst.HELD : Nat := 1
def rst.RECORDING : Nat := 2
def rst.REPLAYING : Nat := 3
def rst.DIVERGED : Nat := 4
def rst.DONE : Nat := 5

def rwhy.CONFIG : Nat := 1
def rwhy.NOT_QUIET : Nat := 2
def rwhy.RING : Nat := 3
def rwhy.NO_START : Nat := 4

/-! ### The journal ring (R383, R384) -/

def rplSize (s : State) : Nat := 2 ^ s.get RPL_RING.SIZELOG2
def rplBase (s : State) : Nat := s.get RPL_RING.BASE * 4096
def rplHead (s : State) : Nat := s.get RPL_HEAD.HEAD % rplSize s / 32 * 32
def rplTail (s : State) : Nat := s.get RPL_TAIL.TAIL % rplSize s / 32 * 32

/-- Bytes of the ring in use. -/
def rplUsed (s : State) : Nat := (rplHead s + rplSize s - rplTail s) % rplSize s

/-- n units read from an offset of the ring, going round its end; whether all could be read. With `now` the read belongs to the drain,
whose beat R383 gives. -/
def rplRead (s : State) (off : Nat) (now : Bool) : Nat → State × List Word × Bool
  | 0 => (s, [], true)
  | n + 1 =>
    let (s, b) := readRun s rplSrc 0 (rplBase s + off % rplSize s) 32 now 2
    let (s, ws, ok) := rplRead s (off + 32) now n
    (s, wordsOf (bytesOf b.val 32) 4 ++ ws, ok && b.reach == .ok && !b.poison)

/-- A unit written at RPL_HEAD; false when the write meets a hole, a selvedge failure or poison. -/
def rplUnit (s : State) (ws : List Word) : State × Bool :=
  let pa := rplBase s + rplHead s
  let (s, b) := readRun s rplSrc 0 pa 32 true 2
  if b.reach ≠ .ok ∨ b.poison then (s, false)
  else
    let (s, r, _) := writeBytes s rplSrc 0 pa 32 (ofBytes (bytesOfWords ws)) false
    if r = .ok then (s.put RPL_HEAD.HEAD ((rplHead s + 32) % rplSize s), true) else (s, false)

/-- A record written at RPL_HEAD, unit by unit. -/
def rplPut (s : State) (ws : List Word) : Nat → State × Bool
  | 0 => (s, true)
  | n + 1 =>
    if ws.isEmpty then (s, true)
    else
      match rplUnit s (ws.take 4) with
      | (s, false) => (s, false)
      | (s, true) => rplPut s (ws.drop 4) n

/-- The oldest records given up until n bytes fit (FULLPOL WRAP). -/
def rplMakeRoom (s : State) (n : Nat) : Nat → State
  | 0 => s
  | f + 1 =>
    if rplUsed s + n < rplSize s ∨ rplUsed s = 0 then s
    else
      let (s, ws, _) := rplRead s (rplTail s) true 1
      rplMakeRoom (s.put RPL_TAIL.TAIL ((rplTail s + 32 * (1 + jr.units ws)) % rplSize s)) n f

/-- A GAP record in place of another, with a count. -/
def gapOf (r : List Word) (n : Nat) : List Word := rplWords rplType.GAP 0x7F 0 (jr.rclk r) 0 (jr.pick r) 0 n []

/-- The ring cannot be written: UC, and the recording ends with REASON RING. -/
def rplRingFail (s : State) : State :=
  let s := raise (s.put RPL_STAT.REASON rwhy.RING) src.record .UC
  let s := if s.recording then s.put RPL_STAT.STATE rst.IDLE else s
  { s with rpl := { s.rpl with staged := [], cords := if s.get RPL_STAT.STATE = rst.IDLE then [] else s.rpl.cords } }

/-- Records written in turn; each GAP is counted and raises CE (R384). -/
def rplPutAll (s : State) : List (List Word) → State × Bool
  | [] => (s, true)
  | r :: t =>
    match rplPut s r (r.length / 4) with
    | (s, false) => (s, false)
    | (s, true) => rplPutAll (if jr.typ r = rplType.GAP then raise (s.bump RPL_STAT.GAPCNT 1) src.record .CE else s) t

/-- The oldest staged record written to the ring, or discarded and counted when the ring is full. -/
def rplDrainOne (s : State) (r : List Word) : State :=
  let lost := s.rpl.ringLost
  let gap : Bool := jr.typ r == rplType.GAP
  let add := if lost = 0 then [r] else if gap then [gapOf r (lost + jr.value r)] else [gapOf r lost, r]
  let n := (add.map (fun x => x.length * 8)).sum
  let s := if s.flag RPL_CFG.FULLPOL then rplMakeRoom s n (n / 32 + 1) else s
  if rplSize s ≤ rplUsed s + n then
    { s with rpl := { s.rpl with ringLost := lost + (if gap then jr.value r else 1) } }
  else
    match rplPutAll { s with rpl := { s.rpl with ringLost := 0 } } add with
    | (s, true) => s
    | (s, false) => rplRingFail s

/-- The staged records leave for the ring; one whose line is in use stays until the next beat that the ring may have. -/
def rplDrain (s : State) : Nat → State
  | 0 => s
  | n + 1 =>
    match s.rpl.staged with
    | [] => s
    | r :: t =>
      let s' := rplDrainOne { s with rpl := { s.rpl with staged := t } } r
      if wanting s s' then turnBack s s' else rplDrain s' n

/-- The ring may be written in this beat: a house beat, or an unowned one of its memory's table (R383). -/
def rplBeat (s : State) : Bool :=
  match placeOf s (rplBase s) with
  | .mem h => s.houseOrUnowned (table.mem h)
  | _ => s.beat == Config.houseBeat

/-! ### The recorded set (R380, R387, R388) -/

/-- The cords in scope now. -/
def scopeCords (s : State) : List Nat :=
  (List.range s.cordCount).filter (fun c => s.assigned c && s.scopeTenant (s.tenantOf c))

/-- Ring r of engine e is a recorded tenant's and enabled. -/
def scopeRing (s : State) (e r : Nat) : Bool :=
  let w := s.rd (engBase e + 0x1000 + r * 0x10)
  bitAt w 0 && s.scopeTenant (s.viTenant (bits w 16 12))

/-- A VI of a recorded tenant is not QUIET, or an engine still works for one (R387). -/
def notQuiet (s : State) : Bool :=
  (enabledVis s).any (fun v => s.scopeTenant (s.viTenant v)
      && !(s.flag (CHS_VI_CFG.SUSPEND v) && s.get (CHS_VI_CFG.QUEUED v) == 0))
    || (List.range 8).any (fun e => (List.range 64).any (scopeRing s e)
      || (s.engAt e).susp.any (fun x => s.scopeTenant x.2.tenant)
      || (match (s.engAt e).job with
        | some j => s.scopeTenant j.tenant
        | none => false))

/-- The tenants of some cords, each once, ascending. -/
def tenantsOf (s : State) (cs : List Nat) : List Nat := cs.foldl (fun l c => insertNat (s.tenantOf c) l) []

/-- Words of the configuration digest (R388). -/
def configWords (s : State) (cs : List Nat) : List Word :=
  let rd (o : Nat) : Word := BitVec.ofNat 64 (s.rd o)
  let ts := tenantsOf s cs
  s.boot.prof
    ++ (List.range 52).flatMap (fun t => (List.range 16).map (fun k => rd (LOOM_HEDA.off t k)))
    ++ cs.map (fun c => rd (LOOM_CORDA.off c))
    ++ (List.range 32).flatMap (fun h => (List.range 64).flatMap (fun r => [rd (MEM_RGN_LO.off h r), rd (MEM_RGN_HI.off h r)]))
    ++ ts.flatMap (fun n => (List.range 4).map (fun k => rd (COH_WCWAYS.off (4 * k) n)))
    ++ (List.range 32).flatMap (fun h => (List.range 16).flatMap (fun r => [rd (COH_DREG_LO.off h r), rd (COH_DREG_HI.off h r)]))
    ++ ts.map (fun n => rd (CHS_DCWAYS.off n))

/-- The configuration digest (R388). -/
def configDigest (s : State) (cs : List Nat) : Nat := crc64 0 (bytesOfWords (configWords s cs))

/-- The mask of some cords in two words. -/
def cordMask (cs : List Nat) : Nat := cs.foldl (fun m c => m ||| 2 ^ c) 0

/-- The START record (R385). -/
def startRecord (s : State) : List Word :=
  let cs := s.rpl.cords
  let m := cordMask cs
  rplWords rplType.START 0x7F (1 + 128 * cs.length) s.since 0 s.pick 0 (configDigest s cs)
    ([BitVec.ofNat 64 (m % 2 ^ 64), BitVec.ofNat 64 (m / 2 ^ 64), BitVec.ofNat 64 (s.rd RPL_CFG.off), 0]
      ++ cs.flatMap (fun c => ctxImage (s.cord c)))

/-- Recorded cords stop, save their contexts and are held (R387, R392). -/
def rplHold (s : State) : State :=
  s.rpl.cords.foldl (fun s c =>
    if (s.cord c).run.live then
      let (s, _) := saveContext (slipCord s c slip.PICK 0 0) c
      s.modCord c (fun k => { k with run := .held })
    else s) s

/-- Held cords go on. -/
def rplRelease (s : State) : State :=
  s.rpl.cords.foldl (fun s c => if (s.cord c).run = .held then releaseCord s c else s) s

/-- The digests of recorded cords start from zero. -/
def digestsStart (s : State) : State := s.rpl.cords.foldl (fun s c => s.modCord c (fun k => { k with digest := 0 })) s

/-! ### Commands (R387, R389) -/

/-- A command waits for its pick boundary. -/
def rplWaits (s : State) (w : RplWait) : State :=
  { s.putFlag RPL_CMD.BUSY true with rpl := { s.rpl with wait := w, waitAt := s.time.now } }

/-- Whole records from an offset of the ring, up to some units. -/
def rplRecords (s : State) (off : Nat) : Nat → Nat → State × List (List Word)
  | 0, _ => (s, [])
  | _, 0 => (s, [])
  | f + 1, left + 1 =>
    let (s, hd, ok) := rplRead s off false 1
    let n := 1 + jr.units hd
    if !ok ∨ left + 1 < n then (s, [])
    else
      let (s, r, ok) := rplRead s off false n
      if !ok then (s, [])
      else
        let (s, t) := rplRecords s (off + 32 * n) f (left + 1 - n)
        (s, r :: t)

/-- The cords of START's mask. -/
def startCords (r : List Word) : List Nat :=
  (List.range Config.cords).filter (fun c => bitAt (jr.body r (c / 64)) (c % 64))

/-- REPLAY: the journal is read; it must begin with START and its configuration must be this module's. RPL_CFG is START's. -/
def replayRequest (s : State) : State :=
  let n := rplUsed s / 32
  let (s, rs) := rplRecords s (rplTail s) n n
  match rs with
  | [] => s.put RPL_STAT.REASON rwhy.NO_START
  | r :: t =>
    if jr.typ r ≠ rplType.START then s.put RPL_STAT.REASON rwhy.NO_START
    else
      let cs := startCords r
      if configDigest s cs ≠ jr.value r then s.put RPL_STAT.REASON rwhy.CONFIG
      else
        rplWaits { (s.wr RPL_CFG.off (bits (jr.body r 2) 0 13)) with rpl := { s.rpl with cords := cs, journal := r :: t } } .replay

/-- A write of RPL_CMD. -/
def rplCmdWrite (s : State) (v : Word) : State :=
  let op := bits (taken s RPL_CMD.off v) 0 3
  let busy := s.flag RPL_CMD.BUSY
  let st := s.get RPL_STAT.STATE
  let s := hostWrite s RPL_CMD.off v
  if busy then s
  else if op = 1 ∧ st = rst.IDLE then
    (if notQuiet s then s.put RPL_STAT.REASON rwhy.NOT_QUIET else rplWaits s .record)
  else if op = 2 ∧ st = rst.HELD then rplWaits s .release
  else if op = 3 ∧ 2 ≤ st then rplWaits s .stop
  else if op = 4 ∧ st = rst.IDLE then replayRequest s
  else s

/-- RELEASE at its boundary: START is written, the cords go. -/
def rplStart (s : State) : State :=
  let s := { s with rpl := { s.rpl with staged := s.rpl.staged ++ [startRecord s], lend := [] } }
  rplRelease (digestsStart ((s.put RPL_STAT.STATE rst.RECORDING).put RPL_STAT.REASON 0))

/-- STOP at its boundary: a recording ends with a STOP record, a replay is left with its cords unassigned. -/
def rplStop (s : State) : State :=
  let s :=
    if s.recording then stageRaw s rplType.STOP 0x7F 0 0 s.pick 0 0 []
    else
      (s.rpl.cords.foldl (fun s c => (s.put (LOOM_CORDA.STATE c) 0).setCord c Core.zero) s).put PWR_MODSTAT.LIFE life.RUN
  { s.put RPL_STAT.STATE rst.IDLE with rpl := { s.rpl with
    cords := [], journal := [], held := [], paused := [], owned := [], unrec := [], divCord := none, divNow := false, gap := false } }

/-- The image of the i-th recorded cord in START. -/
def startImage (r : List Word) (i : Nat) : List Word := (r.drop (8 + 512 * i)).take 512

/-- REPLAY at its boundary: the recorded cords are loaded from START and released. -/
def replayStart (s : State) : State :=
  match s.rpl.journal with
  | [] => s
  | r :: t =>
    let cs := s.rpl.cords
    let s := (List.range cs.length).foldl (fun s i =>
      let c := cs.getD i 0
      releaseCord (s.setCord c { (ctxCore (startImage r i)) with run := .stopped }) c) s
    let s := ((s.put RPL_STAT.STATE rst.REPLAYING).put RPL_STAT.REASON 0).put PWR_MODSTAT.LIFE life.REPLAY
    let s := digestsStart { s with rpl := { s.rpl with
      journal := t, base := jr.pick r, startPick := s.pick, divCord := none, divNow := false, unrec := [], held := []
      paused := [], owned := [], gap := false } }
    cs.foldl (fun s c => openDigest s c t.length) s

/-- The waiting command acts at a boundary, RECORD at the first one at least 16 rclk after its write. -/
def rplCommand (s : State) : State :=
  let w := s.rpl.wait
  if w = .none ∨ (w = .record ∧ s.time.now < s.rpl.waitAt + 16) then s
  else
    let s := { s.putFlag RPL_CMD.BUSY false with rpl := { s.rpl with wait := .none } }
    match w with
    | .record => rplHold { s.put RPL_STAT.STATE rst.HELD with rpl := { s.rpl with cords := scopeCords s } }
    | .release => rplStart s
    | .stop => rplStop s
    | .replay => replayStart s
    | .none => s

/-! ### The end of a pick (R382, R391 to R393) -/

/-- DIGEST records of the pick that ends, in ascending order of cords. -/
def stageDigests (s : State) : State :=
  digestsStart (s.rpl.cords.foldl (fun s c =>
    let k := s.cord c
    stageRaw s rplType.DIGEST c (s.tenantOf c) 0 (s.pick + 1) k.retire.toNat k.digestEnd []) s)

/-- What a cord's work in a pick differs in from its DIGEST record, with what was expected and observed. -/
def digestBad (k : Core) (r : List Word) : Option (Nat × Nat × Nat) :=
  if jr.retire r ≠ k.retire.toNat then some (dvk.RETIRE, jr.retire r, k.retire.toNat)
  else if jr.value r ≠ k.digestEnd then some (dvk.DIGEST, jr.value r, k.digestEnd)
  else none

/-- A cord's work in the pick that ends against its DIGEST record, in closed weave, then whether it took an input that the journal
does not hold: the first check that fails names the kind (R391). -/
def closedDigest (s : State) (c : Nat) (unrecorded : Bool) : State :=
  let at_ := s.rpl.base + s.replayPick + 1
  let found := s.rpl.journal.find? (fun r => jr.typ r == rplType.DIGEST && jr.cord r == c && jr.pick r == at_)
  let s := match found with
    | some r => { s with rpl := { s.rpl with journal := s.rpl.journal.erase r } }
    | none => s
  match found.bind (digestBad (s.cord c)) with
  | some (kind, exp, obs) => diverge s kind c exp obs
  | none => if unrecorded then diverge s dvk.UNRECORDED c 0 0 else s

/-- The replay has reached STOP: its boundary is the one that ends this pick. -/
def stopNext (s : State) : Bool :=
  s.rpl.journal.any (fun r => jr.typ r == rplType.STOP && decide (jr.pick r ≤ s.rpl.base + s.replayPick + 1))

/-- The checks of a replayed pick, and what they lead to. -/
def replayEnd (s : State) : State :=
  let cs := s.rpl.cords
  let un := s.rpl.unrec
  let s := { s with rpl := { s.rpl with unrec := [] } }
  let s := if s.closedWeave then digestsStart (cs.foldl (fun s c => closedDigest s c (un.contains c)) s)
    else
      cs.foldl (fun s c =>
        let s := openDigest s c s.rpl.journal.length
        if un.contains c then diverge s dvk.UNRECORDED c 0 0 else s) s
  let now := s.rpl.base + s.replayPick
  let s := if s.closedWeave then { s with rpl := { s.rpl with journal := s.rpl.journal.filter (fun r =>
      !(jr.typ r == rplType.VALUE && decide (jr.pick r ≤ now))) } } else s
  if (s.closedWeave ∧ s.rpl.divNow) ∨ s.rpl.gap then rplHold (s.put RPL_STAT.STATE rst.DIVERGED)
  else if (s.flag RPL_STOPAT.EN ∧ s.get RPL_STOPAT.PICK = s.replayPick) ∨ stopNext s then rplHold (s.put RPL_STAT.STATE rst.DONE)
  else { s with rpl := { s.rpl with divNow := false } }

/-- What a pick boundary does before PICK counts on. -/
def rplEnd (s : State) : State :=
  if s.recording then stageDigests s else if s.replaying then replayEnd s else s

/-! ### The beginning of a pick (R381, R390, R394) -/

/-- The records of a type for the pick that begins, taken from the journal. -/
def takePick (s : State) (typ : Nat) : State × List (List Word) :=
  let at_ := s.rpl.base + s.replayPick
  let mine (r : List Word) : Bool := jr.typ r == typ && jr.pick r == at_
  ({ s with rpl := { s.rpl with journal := s.rpl.journal.filter (fun r => !mine r) } }, s.rpl.journal.filter mine)

/-- TABLE, ASSIGN and LENDING of the pick that begins. -/
def replayBegin (s : State) : State :=
  let (s, ts) := takePick s rplType.TABLE
  let s := ts.foldl (fun s r => (List.range 16).foldl (fun s k => s.wr (LOOM_HEDA.off (jr.value r) k) (jr.body r k)) s) s
  let (s, as) := takePick s rplType.ASSIGN
  let s := as.foldl (fun s r =>
    let c := jr.cord r
    let s := flushStart s c (jr.value r)
    let rest := s.rpl.cords.filter (· ≠ c)
    let mine : Bool := s.assigned c && s.scopeTenant (s.tenantOf c)
    { s with rpl := { s.rpl with cords := if mine then insertNat c rest else rest } }) s
  let (s, ls) := takePick s rplType.LENDING
  { s with rpl := { s.rpl with
    owned := if s.closedWeave then [] else ls.map (fun r => (bits (jr.value r) 0 6, jr.tenant r, jr.body r 0, jr.body r 1)) } }

/-- What a pick boundary does once PICK has counted on and commits have been applied. -/
def rplBegin (s : State) : State :=
  let s := rplCommand s
  if s.replaying then replayBegin s else s

/-! ### Inputs of a replay (R390) -/

/-- Types that a replay applies on their own. -/
def forcedTypes : List Nat :=
  [rplType.EVENT, rplType.SLIP, rplType.FAULT, rplType.RECOVERY, rplType.INDATA, rplType.COMPLETION]

/-- The recorded time of a record has come. -/
def timeDue (s : State) (r : List Word) : Bool :=
  let o := jr.pick r - s.rpl.base
  decide (o < s.replayPick) || (o == s.replayPick && decide (jr.rclk r ≤ s.since))

/-- The channel-DMA beats of the tenant of an INDATA. -/
def indataBeat (s : State) (r : List Word) : Bool :=
  s.mayIssue (table.dma (s.scb (bits (jr.body r 3) 0 16)).port) (s.viTenant (bits (jr.body r 3) 16 12))

/-- A record may be applied now. -/
def recordDue (s : State) (r : List Word) : Bool :=
  let t := jr.typ r
  let reached := decide (jr.retire r ≤ (s.cord (jr.cord r)).retire.toNat)
  if !forcedTypes.contains t then false
  else if t = rplType.RECOVERY then reached
  else if t = rplType.INDATA then timeDue s r && (!s.flag RPL_CFG.DATA || indataBeat s r)
  else if t = rplType.COMPLETION then timeDue s r
  else if s.closedWeave then timeDue s r
  else reached

/-- ORDER: the receiving cord stands at the recorded retire count. -/
def orderCheck (s : State) (r : List Word) : State :=
  let n := (s.cord (jr.cord r)).retire.toNat
  if jr.retire r = n then s else diverge s dvk.ORDER (jr.cord r) (jr.retire r) n

/-- Bytes written at a tenant-physical address of a VI, page by page. -/
def viPut (s : State) (src v : Nat) (poison : Bool) : List (Nat × Nat) → List Byte → State
  | [], _ => s
  | (tpa, n) :: t, bs =>
    let s := match viSpan s src v tpa n .store with
      | (s, some x) => (viWrite s src v tpa x.pa n (ofBytes (bs.take n)) poison).1
      | (s, none) => s
    viPut s src v poison t (bs.drop n)

/-- The CRC-64 of k sectors of a VI's memory. -/
def viCrc (s : State) (src v tpa k : Nat) : State × Nat :=
  match viSpans s src v .load (pagesOf tpa (64 * k) 3) with
  | (s, .error _) => (s, 0)
  | (s, .ok xs) =>
    let (s, g) := spansRead s src (s.viTenant v) xs
    (s, crc64 0 (bytesOf g.val (64 * k)))

/-- An INDATA: the recorded data, or a held burst, is written to its destination. -/
def applyIndata (s : State) (r : List Word) : State :=
  let k := bits (jr.body r 0) 0 7
  let v := bits (jr.body r 3) 16 12
  let tpa := jr.value r
  let src := dmaSrc ((s.scb (bits (jr.body r 3) 0 16)).port / 4)
  if s.flag RPL_CFG.DATA then
    viPut s src v false (pagesOf tpa (64 * k) 3) ((bytesOfWords (r.drop 8)).take (64 * k))
  else
    match s.rpl.held.find? (fun x => x.vi == v && x.tpa / 64 * 64 == tpa && (x.tpa % 64 + x.len + 63) / 64 == k) with
    | none => diverge s dvk.LATE 0x7F (jr.body r 1) 0
    | some x =>
      let (s, g) := readBytes s rplSrc 0 (holdBase s + x.off) x.len
      let s := viPut { s with rpl := { s.rpl with held := s.rpl.held.erase x } } src v g.poison (pagesOf x.tpa x.len 3)
        (bytesOf g.val x.len)
      let (s, c) := viCrc s src v tpa k
      if c = jr.body r 1 then s else diverge s dvk.INPUT 0x7F (jr.body r 1) c

/-- A COMPLETION: the operation it names becomes POSTED with the recorded end. -/
def applyCompletion (s : State) (r : List Word) : State :=
  let w (i : Nat) : Nat := jr.body r i
  match s.chs.cells.find? (fun e => e.2.seq == bits (w 1) 0 48 && e.2.orb == w 2 && e.2.subch == bits (w 0) 16 16) with
  | none => diverge s dvk.INPUT 0x7F (bits (w 1) 0 48) 0
  | some (cell, j) =>
    if j.state = .posted then s
    else
      post (shutDrop s cell) cell { j with
        status := bits (w 0) 0 8, lenx := bitAt (w 0) 8, endCcw := w 3, resid := bits (w 4) 0 32, moved := bits (w 4) 32 32
        dstat := BitVec.ofNat 16 (w 5), faddr := w 6, run := [], spans := [], goal := none }

/-- A record applied. -/
def applyRecord (s : State) (r : List Word) : State :=
  let c := jr.cord r
  let t := jr.typ r
  let gone : State := { s with rpl := { s.rpl with journal := s.rpl.journal.erase r } }
  if t = rplType.EVENT then evqQueue (orderCheck gone r) (jr.tenant r) c (BitVec.ofNat 64 (jr.value r)) (BitVec.ofNat 64 (jr.body r 0))
  else if t = rplType.SLIP then (orderCheck gone r).modCord c (fun k => k.slip (s.tenantOf c) slip.CONFLICT 0)
  else if t = rplType.FAULT then
    let s := orderCheck gone r
    let now := r.set 2 (s.cord c).retire
    trapNow { s with rpl := { s.rpl with journal := now :: s.rpl.journal } } (.cord c)
      { cause := bits (jr.body r 0) 0 8, eval := BitVec.ofNat 64 (jr.value r) }
  else if t = rplType.RECOVERY then
    let s := orderCheck gone r
    { s with rpl := { s.rpl with paused := mset s.rpl.paused c (s.time.now + bits (jr.value r) 0 32) } }
  else if t = rplType.INDATA then applyIndata gone r
  else applyCompletion gone r

/-- REPLAY_APPLY_INPUT: the first record whose time or retire count has come; a GAP at the head ends the replay (R391). -/
def doReplayApplyInput (s : State) : State :=
  if s.stopped ∨ !s.replaying then s
  else
    match s.rpl.journal with
    | [] => s
    | g :: t =>
      if jr.typ g = rplType.GAP then
        let s := diverge s dvk.GAP 0x7F 0 (jr.value g)
        { s with rpl := { s.rpl with journal := t, gap := true } }
      else
        match s.rpl.journal.find? (recordDue s) with
        | some r => applyRecord s r
        | none => s

/-- REPLAY_APPLY_INPUT (R390). -/
def execReplayApplyInput (s : State) : Host.Outcome State Fault Refusal := .next (orWait doReplayApplyInput s)

/-- A write of RPL_CMD whose OP is the one of its row. -/
def rplRow (s : State) (v : Word) (op : Nat) : State := if bits v.toNat 0 3 = op then rplCmdWrite s v else s

/-- RECORD (R387). -/
def execRecord (v : Word) (s : State) : Host.Outcome State Fault Refusal := .next (orWait (fun s => rplRow s v 1) s)

/-- RELEASE (R387). -/
def execRelease (v : Word) (s : State) : Host.Outcome State Fault Refusal := .next (orWait (fun s => rplRow s v 2) s)

/-- STOP (R387). -/
def execStop (v : Word) (s : State) : Host.Outcome State Fault Refusal := .next (orWait (fun s => rplRow s v 3) s)

/-- REPLAY (R389). -/
def execReplay (v : Word) (s : State) : Host.Outcome State Fault Refusal := .next (orWait (fun s => rplRow s v 4) s)

end Sys2Proof.Machine
end

