-- ==== Sys2Proof/Machine/Control.lean ====
section
/-! DEFINITION. Control transfer, knots, barriers, traps and gates, majors 0x18 to 0x1E (R90, R96, R138, R141, R145 to R149),
and the traps taken between instructions (R95, R97, R113, R137). -/

namespace Sys2Proof.Machine

/-! ### Branches (R90) -/

/-- A target with bits [1:0] non-zero traps ALIGN. -/
def jumpTo (v : Word) (push : List Word) : Got Out :=
  if v.toNat % 4 ≠ 0 then .trap { cause := trap.ALIGN, eval := v }
  else .ok { vals := push, upd := id, next := some v }

/-! ### Barriers (R129, R138) -/

/-- Stores of the cord outside the knot that are still to be performed. -/
def Core.storesOut (k : Core) : Bool := k.sbuf.any (fun e => !e.knot)

/-- The oldest bounced store that no barrier has reported. -/
def Core.oldestBounce (k : Core) : Option (Nat × Word) :=
  k.bounced.foldl (fun b x => match b with
    | none => some x
    | some y => if x.1 < y.1 then some x else b) none

/-- A barrier's end: the oldest bounced store traps, else it may retire. -/
def barrierEnd (s : State) (a : Agent) : State × Got Unit :=
  match (s.core a).oldestBounce with
  | none => (s, .ok ())
  | some b =>
    (s.modCore a (fun k => { k with bounced := k.bounced.erase b }), .trap { cause := trap.STORE_BOUNCED, eval := b.2 })

/-- A barrier waits for the earlier stores, which later stores no longer join (R130). -/
def barrierWait (s : State) (a : Agent) (kind : BarKind) (handler : Word) : State × Got Unit :=
  let s := s.modCore a Core.closeEntries
  if (s.core a).storesOut then (s, .park (.waitBarrier kind handler)) else barrierEnd s a

/-- SBAR and FBAR; inside a knot they retire with no effect (R146). -/
def barrierBody (a : Agent) (kind : BarKind) (w : InsnWord) : State → State × Got Done :=
  fun s => plainOp a (fun s =>
    if (s.core a).inKnot then doneWith s id else andThen (barrierWait s a kind 0) fun s _ => doneWith s id) w s

/-! ### Knots (R141, R145) -/

/-- A knot opens: handler, the home of the slip word, and the copies. -/
def openKnot (a : Agent) (handler : Word) (home : Home) (s : State) : State :=
  let now := s.time.now
  s.modCore a (fun k => { k with
    resv := none
    knot := some { handler := handler, home := home, sp := (k.stkOf k.lvl).sp, cache := k.cache, opened := now, reads := [], writes := []
                   bytes := [] } })

/-- KNOT: room for the slip word, its home, the order of FBAR, then the knot opens (R141). -/
def knotBody (a : Agent) (handler : Word) (w : InsnWord) (s : State) : State × Got Done :=
  let k := s.core a
  if !k.stackOk k.lvl 0 1 then trapAt s trap.STACK_LIMIT k.sp
  else
    andThen (homeAt s a w k.lvl (k.sp - 8)) fun s h =>
    andThen (barrierWait s a .knot handler) fun s _ => doneWith s (openKnot a handler h)

/-- The bytes of the write set put into the lines of the L2 (R145). -/
def knotLines (s : State) (c : Nat) (kn : Knot) : State :=
  kn.writes.foldl (fun s line =>
    let bs := kn.bytes.filter (fun e => e.1 / 256 == line)
    let mask := bs.foldl (fun (m : LineMask) e => m ||| spanMask (e.1 % 256) 1) 0
    let bytes := bs.foldl (fun (b : LineData) e => b ||| spanBytes (e.1 % 256) e.2.toNat) 0
    writeL2 s (s.triadOf c) (normLine s (line * 256)) mask bytes) s

/-- CINCH_COMMIT (R145): every knot store has left the buffer; the write set becomes visible and the knot closes. -/
def doCinchCommit (c : Nat) (s : State) : State :=
  let k := s.cord c
  match k.run, k.knot with
  | .waitCinch, some kn =>
    if k.paused ∨ k.sbuf.any SbEnt.knot then s
    else
      let s := knotLines s c kn
      wake (s.modCord c (fun k => { k with knot := none })) c
  | _, _ => s

/-- KNOT_AGE_EXPIRY (R148): two picks after KNOT retired. -/
def doKnotAgeExpiry (c : Nat) (s : State) : State :=
  match (s.cord c).knot with
  | some kn => if kn.opened + Config.knotAge ≤ s.time.now then slipCord s c slip.AGE 0 0 else s
  | none => s

/-- KNOT_AGE_EXPIRY (R148). -/
def execKnotAgeExpiry (c : Nat) (s : State) : Host.Outcome State Fault Refusal := .next (doKnotAgeExpiry c s)

/-- The end of a waiting barrier: it traps for a bounced store or retires. A KNOT whose slip word finds no home any more is tried again,
and traps at itself. -/
def barrierRetires (c : Nat) (kind : BarKind) (handler : Word) (s : State) : State :=
  let a : Agent := .cord c
  let k := s.cord c
  let s := s.modCord c (fun k => { k with run := k.goes })
  match barrierEnd s a with
  | (s, .trap t) => trapNow s a t
  | (s, _) =>
    if kind = .knot then
      (match homeAt s a 0 k.lvl (k.sp - 8) with
        | (t, .ok h) => openKnot a handler h (retire t a none 0)
        | (t, _) => if wanting s t then t else s)
    else retire s a none 0

/-- BARRIER_RETIRE (R138): the accesses of a waiting barrier are performed. -/
def doBarrierRetire (c : Nat) (s : State) : State :=
  let k := s.cord c
  match k.run with
  | .waitBarrier kind handler => if k.paused ∨ k.storesOut then s else orWait (barrierRetires c kind handler) s
  | _ => s

/-! ### FSYNC (R114) -/

def fsyncBody (a : Agent) (w : InsnWord) (s : State) : State × Got Done :=
  let p := fcsrPend (s.core a).fcsr
  if p ≠ 0 then trapAt s trap.FP_IMPRECISE p else plainOp a (fun s => doneWith s id) w s

/-! ### Gates (R96) -/

/-- One word of a gate entry, read at the target level; a fault is routed as from that level. -/
def gateWord (s : State) (a : Agent) (w : InsnWord) (dst : Level) (va : Word) : State × Got Word :=
  match andThen (loadAt s a w dst va 8) fun s v => numberOf s a v with
  | (s, .ok x) => (s, .ok (BitVec.ofNat 64 x))
  | (s, .trap t) => (s, .trap { t with via := some dst })
  | (s, .slip c) => (s, .slip c)
  | (s, .wait) => (s, .wait)
  | (s, .park r) => (s, .park r)

/-- Entering the target level: the arguments, the return address and the old PSTATE on its stack. -/
def gateEnter (a : Agent) (dst : Level) (n : Nat) (pc : Word) (args : List Word) (homes : List Home) (s : State) : State :=
  s.modCore a (fun k =>
    let t := s.agentTenant a
    let ret := k.pc + 4
    let ps := k.pstate
    let k := (k.popN n).spillAll t
    ({ k with lvl := dst, pc := pc }).replace t 0 ((ret :: ps :: args).zip homes))

def gateBody (a : Agent) (f : FO) (w : InsnWord) (s : State) : State × Got Done :=
  let k := s.core a
  let gate := f.opnd.toNat / 256
  let n := f.opnd.toNat % 8
  if k.lvl = .H then trapAt s trap.PRIV w.toNat
  else
    let dst : Level := if k.lvl = .U then .S else .H
    let g := (k.trOf dst).gate.toNat
    if bits g 0 8 ≤ gate then trapAt s trap.PRIV w.toNat
    else
      let at_ : Word := BitVec.ofNat 64 (bits g 12 36 * 4096 + 16 * gate)
      andThen (gateWord s a w dst at_) fun s pc =>
      andThen (gateWord s a w dst (at_ + 8)) fun s who =>
        if !bitAt who.toNat (lvlCode k.lvl) then trapAt s trap.PRIV w.toNat
        else if pc.toNat % 4 ≠ 0 then (s, .trap { cause := trap.ALIGN, eval := pc })
        else if k.depth < n then trapAt s trap.STACK_LIMIT k.sp
        else if !k.stackOk dst 0 (n + 2) then trapAt s trap.STACK_LIMIT (k.stkOf dst).sp.toNat
        else
          andThen (fillTo s a w n n) fun s _ =>
          andThen (homesBelow s a w dst (k.stkOf dst).sp.toNat (n + 2)) fun s hs =>
            let args := (((s.core a).cache.take n).map SEnt.val).reverse
            (s, .ok { next := some pc, result := args.getLastD k.pstate, after := id, apply := gateEnter a dst n pc args hs })

/-! ### The instructions -/

/-- B (R90): PC ← PC + 4 × sext(OFF22). -/
def doB (a : Agent) (f : FB) : State → State :=
  runInsn a (.b a f) f.cond .U .runs <|
    stackOp a 0 0 0 fun k _ => .ok { vals := [], upd := id, next := some (branchTo k.pc f.off) }

/-- B (R90). -/
def execB (a : Agent) (f : FB) (s : State) : Host.Outcome State Fault Refusal := .next (doB a f s)

/-- CALL (R90): PC + 4 is pushed, then as B. -/
def doCall (a : Agent) (f : FB) : State → State :=
  runInsn a (.call a f) f.cond .U .runs <|
    stackOp a 0 0 1 fun k _ => .ok { vals := [k.pc + 4], upd := id, next := some (branchTo k.pc f.off) }

/-- CALL (R90). -/
def execCall (a : Agent) (f : FB) (s : State) : Host.Outcome State Fault Refusal := .next (doCall a f s)

/-- JMP (R90): PC ← t. -/
def doJmp (a : Agent) (f : FO) : State → State :=
  runInsn a (.jmp a f) f.cond .U .runs <|
    stackOp a 1 1 0 fun _ ins => jumpTo (inp ins 0) []

/-- JMP (R90). -/
def execJmp (a : Agent) (f : FO) (s : State) : Host.Outcome State Fault Refusal := .next (doJmp a f s)

/-- CALLI (R90): PC + 4 is pushed, PC ← t. -/
def doCalli (a : Agent) (f : FO) : State → State :=
  runInsn a (.calli a f) f.cond .U .runs <|
    stackOp a 1 1 1 fun k ins => jumpTo (inp ins 0) [k.pc + 4]

/-- CALLI (R90). -/
def execCalli (a : Agent) (f : FO) (s : State) : Host.Outcome State Fault Refusal := .next (doCalli a f s)

/-- RET (R90): as JMP. -/
def doRet (a : Agent) (f : FO) : State → State :=
  runInsn a (.ret a f) f.cond .U .runs <|
    stackOp a 1 1 0 fun _ ins => jumpTo (inp ins 0) []

/-- RET (R90). -/
def execRet (a : Agent) (f : FO) (s : State) : Host.Outcome State Fault Refusal := .next (doRet a f s)

/-- KNOT (R141): a knot opens with its handler. -/
def doKnot (a : Agent) (f : FO) : State → State :=
  runInsn a (.knot a f) f.cond .U .unsupported <|
    fun w s => knotBody a (knotHandler (s.core a).pc f.opnd) w s

/-- KNOT (R141). -/
def execKnot (a : Agent) (f : FO) (s : State) : Host.Outcome State Fault Refusal := .next (doKnot a f s)

/-- CINCH (R145): waits for the knot stores; a NOP outside a knot. -/
def doCinch (a : Agent) (f : FO) : State → State :=
  runInsn a (.cinch a f) f.cond .U .runs <|
    plainOp a fun s => if (s.core a).inKnot then (s, .park .waitCinch) else doneWith s id

/-- CINCH (R145). -/
def execCinch (a : Agent) (f : FO) (s : State) : Host.Outcome State Fault Refusal := .next (doCinch a f s)

/-- SLIP (R147): retires, then slips with cause EXPLICIT; a NOP outside a knot. -/
def doSlip (a : Agent) (f : FO) : State → State :=
  runInsn a (.slip a f) f.cond .U .runs <|
    plainOp a fun s => (s, .ok { next := none, result := 0, apply := id, after := fun s => slipAgent s a slip.EXPLICIT 0 })

/-- SLIP (R147). -/
def execSlip (a : Agent) (f : FO) (s : State) : Host.Outcome State Fault Refusal := .next (doSlip a f s)

/-- KTEST (R90): 1 inside a knot, else 0. -/
def doKtest (a : Agent) (f : FO) : State → State :=
  runInsn a (.ktest a f) f.cond .U .runs <|
    stackOp a 0 0 1 fun k _ => .ok (Out.push [if k.inKnot then 1 else 0])

/-- KTEST (R90). -/
def execKtest (a : Agent) (f : FO) (s : State) : Host.Outcome State Fault Refusal := .next (doKtest a f s)

/-- LBAR (R129): earlier loads are performed before later ones: this cord performs loads in order (log 11). -/
def doLbar (a : Agent) (f : FO) : State → State :=
  runInsn a (.lbar a f) f.cond .U .runs <|
    plainOp a fun s => doneWith s id

/-- LBAR (R129). -/
def execLbar (a : Agent) (f : FO) (s : State) : Host.Outcome State Fault Refusal := .next (doLbar a f s)

/-- SBAR (R138): waits for the earlier stores. -/
def doSbar (a : Agent) (f : FO) : State → State :=
  runInsn a (.sbar a f) f.cond .U .runs <|
    barrierBody a .sbar

/-- SBAR (R138). -/
def execSbar (a : Agent) (f : FO) (s : State) : Host.Outcome State Fault Refusal := .next (doSbar a f s)

/-- FBAR (R138): waits for the earlier accesses. -/
def doFbar (a : Agent) (f : FO) : State → State :=
  runInsn a (.fbar a f) f.cond .U .runs <|
    barrierBody a .fbar

/-- FBAR (R138). -/
def execFbar (a : Agent) (f : FO) (s : State) : Host.Outcome State Fault Refusal := .next (doFbar a f s)

/-- FSYNC (R114): traps FP_IMPRECISE while PEND is set. -/
def doFsync (a : Agent) (f : FO) : State → State :=
  runInsn a (.fsync a f) f.cond .U .runs <|
    fsyncBody a

/-- FSYNC (R114). -/
def execFsync (a : Agent) (f : FO) (s : State) : Host.Outcome State Fault Refusal := .next (doFsync a f s)

/-- SYSCALL (R93): traps SYSCALL with EVAL = OPND. -/
def doSyscall (a : Agent) (f : FO) : State → State :=
  runInsn a (.syscall a f) f.cond .U .unsupported <|
    plainOp a fun s => (s, .trap { cause := trap.SYSCALL, eval := f.opnd.zeroExtend 64, next := true })

/-- SYSCALL (R93). -/
def execSyscall (a : Agent) (f : FO) (s : State) : Host.Outcome State Fault Refusal := .next (doSyscall a f s)

/-- GATE inside a knot: at H its privilege check comes first (R79, R96, R146). -/
def gateKnot (l : Level) : KnotRule := if l = .H then .runs else .unsupported

/-- GATE (R96): enters the higher level. -/
def doGate (a : Agent) (f : FO) (s : State) : State :=
  runInsn a (.gate a f) f.cond .U (gateKnot (s.core a).lvl) (gateBody a f) s

/-- GATE (R96). -/
def execGate (a : Agent) (f : FO) (s : State) : Host.Outcome State Fault Refusal := .next (doGate a f s)

/-- BREAK (R90): traps DEBUG with EVAL = OPND. -/
def doBreak (a : Agent) (f : FO) : State → State :=
  runInsn a (.break a f) f.cond .U .debug <|
    plainOp a fun s => (s, .trap { cause := trap.DEBUG, eval := f.opnd.zeroExtend 64 })

/-- BREAK (R90). -/
def execBreak (a : Agent) (f : FO) (s : State) : Host.Outcome State Fault Refusal := .next (doBreak a f s)

/-! ### Traps between instructions -/

/-- The event level of a tenant's cords (R93). -/
def eventLevel (tenant : Nat) : Level := if tenant = 0 then .H else .S

/-- EVENT may be taken (R95, R97, R146). An instruction for which a device has been read is over first (R127). -/
def eventDue (s : State) (c : Nat) : Bool :=
  let k := s.cord c
  canRun s (.cord c) && k.answers.isEmpty && k.ee && !k.inKnot && eventReady s (.cord c) && !lvlBelow (eventLevel (s.tenantOf c)) k.lvl

/-- EVENT taken: EVAL holds the records queued (R93). -/
def takeEvent (c : Nat) (s : State) : State :=
  trapNow s (.cord c) { cause := trap.EVENT, eval := BitVec.ofNat 64 (s.evq (s.tenantOf c) c).recs.length }

/-- The word is an FSYNC that the cord will execute. -/
def isFsync (s : State) (c : Nat) (w : InsnWord) : Bool :=
  match insnOf (.cord c) w with
  | some (.fsync _ f) => condHolds (s.cord c).fl f.cond
  | _ => false

/-- EVENT with PEND set: before an FSYNC, FP_IMPRECISE comes first (R95, R113). -/
def eventUnlessFsync (c : Nat) (s : State) : State :=
  match fetchWord s c with
  | (t, .ok w) => if isFsync s c w then t else takeEvent c t
  | (t, .wait) => t
  | (t, _) => if wanting s t then t else takeEvent c s

/-- EVENT_TRAP (R97). -/
def doEventTrap (c : Nat) (s : State) : State :=
  if !eventDue s c then s
  else if fcsrPend (s.cord c).fcsr = 0 then takeEvent c s
  else orWait (eventUnlessFsync c) s

/-- EVENT_TRAP (R97). -/
def execEventTrap (c : Nat) (s : State) : Host.Outcome State Fault Refusal := .next (doEventTrap c s)

/-- FP_IMPRECISE_DELIVERY (R113): at its boundary, with PEND in EVAL. -/
def doFpImpreciseDelivery (c : Nat) (s : State) : State :=
  let k := s.cord c
  if k.run = .running ∧ !k.paused ∧ k.fpDue ∧ !s.stopped then
    trapNow s (.cord c) { cause := trap.FP_IMPRECISE, eval := BitVec.ofNat 64 (fcsrPend k.fcsr) }
  else s

/-- FP_IMPRECISE_DELIVERY (R113). -/
def execFpImpreciseDelivery (c : Nat) (s : State) : Host.Outcome State Fault Refusal := .next (orWait (doFpImpreciseDelivery c) s)

/-- The reads of an agent that wait for another module are given up: the instruction that awaits one traps when it is tried again. -/
def silentReads (s : State) (a : Agent) : State :=
  { s with owed := s.owed.map (fun o =>
      if o.agent = agentSrc s a ∧ (o.who = requester a ∨ o.kind.allocs) ∧ o.kind.noted ∧ o.cmp = none ∧ (homeOfLine s o.line).isNone then
        { o with cmp := some .silent }
      else o) }

/-- SILENT_TARGET_LOAD (R137): the fabric times out a load that waits for its answer. -/
def doSilentTargetLoad (a : Agent) (s : State) : State :=
  match (s.core a).run with
  | .waitLoad w =>
    if (s.core a).paused then s
    else trapNow (s.modCore a (fun k => { k with run := k.goes })) a { cause := trap.MACHINE_CHECK, eval := BitVec.ofNat 64 w.pa }
  | _ => silentReads s a

/-- SILENT_TARGET_LOAD (R137). -/
def execSilentTargetLoad (a : Agent) (s : State) : Host.Outcome State Fault Refusal := .next (orWait (doSilentTargetLoad a) s)

/-- The step of an undefined word: it is fetched, and traps ILLEGAL at decode (R79, R81). -/
def illegalWord (a : Agent) (w : InsnWord) (s : State) : State :=
  if !canRun s a then s
  else
    orWait (fun s =>
      match frontEnd s a false w 0 with
      | (s1, .trap t) => settle (trapNow s1 a t) a
      | (s1, .slip c) => slipInsn s1 a c
      | (s1, _) => s1) s

/-- UNDEFINED_ENCODING (R81). A word that spells an instruction is refused: it is that instruction's own row. -/
def execUndefinedEncoding (a : Agent) (w : InsnWord) (s : State) : Host.Outcome State Fault Refusal :=
  if (insnOf a w).isSome then .refused .definedWord else .next (illegalWord a w s)

end Sys2Proof.Machine
end

