-- ==== Sys2Proof/Machine/Stores.lean ====
section
/-! DEFINITION. Stores leaving the store buffer (R127, R130, R137, R139, R142, R207, R245, R345), and what becomes of those
moved into a flush claim (R419). A store to the control window is carried out by `rw`, the register write that
Machine/RegWrite.lean gives. -/

namespace Sys2Proof.Machine

/-- A register write as a store makes it: who writes, the offset, the value. -/
abbrev RegWriter : Type := State → Who → Nat → Word → State

/-! ### One entry -/

/-- A store to a port's window (R245): a REG_WR frame that awaits its answer, or a write TLP, which awaits the link while that trains. -/
def performMmio (s : State) (p off : Nat) (e : SbEnt) : State × Fate :=
  if weftMode s p then
    let (s, q) := regSend s p e.tenant ft.REG_WR off 8 e.value
    (s, .sent p q)
  else if linkUp s p then (s.send (.tlpWrite p off e.size e.value), .done)
  else (s, .sent p 0)

/-- A store of cord c tries to be performed. A device store of a replayed cord is not performed (R390). -/
def performEntry (rw : RegWriter) (s : State) (c : Nat) (e : SbEnt) (bad : Bool) : State × Fate :=
  if e.attr = .device ∧ s.replayed c then (s, .done)
  else
    match leadOf s e.tenant e.lvl e.pa with
    | .hole => (countRefusal s e.pa e.tenant, .bounce)
    | .dead => (s, .bounce)
    | .priv => (s, .bounce)
    | .dark d => (darkStore s d, .done)
    | .window off => (rw s { level := e.lvl, tenant := e.tenant } off (BitVec.ofNat 64 e.value), .done)
    | .mmio p off => performMmio s p off e
    | .far _ => performHome s (s.triadOf c) c e bad false
    | .mem _ => if e.knot then performKnot s c e else performMem s c e bad
    | .remote _ => if e.knot then performKnot s c e else performMem s c e bad

/-! ### The buffer -/

/-- Every entry that can leave the buffer does, oldest first; `bad` names the tags of entries that fail their ECC (R53). -/
def drainList (rw : RegWriter) (c : Nat) (bad : List Nat) : List SbEnt → State → State
  | [], s => s
  | e :: t, s =>
    let earlier := (s.cord c).sbuf.takeWhile (fun x => x.tag ≠ e.tag)
    if e.sent ∨ !(s.cord c).sbuf.any (fun x => x.tag == e.tag) ∨ e.after earlier then drainList rw c bad t s
    else
      let (s, f) := performEntry rw s c e (bad.contains e.tag)
      drainList rw c bad t (settleEntry s c e f)

/-- A cord's store buffer drains as far as it can. -/
def drainCord (rw : RegWriter) (s : State) (c : Nat) : State := drainList rw c [] (s.cord c).sbuf s

/-- A store that no target has acknowledged is given up: what still waits of it goes. -/
def unsent (s : State) (agent who : Nat) (e : SbEnt) : State :=
  if e.port = farPort then
    { s with owed := s.owed.filter (fun o => !(o.agent == agent && o.who == who && o.line == normLine s e.pa && !o.kind.noted)) }
  else
    s.modPort e.port (fun p => { p with tx := p.tx.filter (fun f => !(f.2.typ == ft.REG_WR && f.2.seq == e.seq)) })

/-- STORE_BOUNCE_TIMEOUT (R137): the oldest store that awaits its acknowledgement, in the buffer or in the cord's claims. -/
def bounceTimeout (s : State) (c : Nat) : State :=
  match (s.cord c).sbuf.find? SbEnt.sent with
  | some e => bounced (unsent (dropEntry s c e.tag) (s.triadOf c) c e) c e
  | none =>
    let tile := tileOf s c
    match ((s.claimsOf tile).filter (fun x => x.cord == c)).findSome? (fun x => (x.stores.find? SbEnt.sent).map (fun e => (x, e))) with
    | none => s
    | some (x, e) =>
      let s := s.setClaims tile ((s.claimsOf tile).map (fun (y : Claim) =>
        if y.way = x.way then { y with stores := y.stores.filter (fun z => z.tag ≠ e.tag) } else y))
      let s := unsent s (s.triadOf c) (claimWho tile x.way) e
      claimsReturn (e.stores.foldl (fun s z => uncovered s c e.tenant z.2) s) tile

/-! ### Migration (R53) -/

/-- MIGRATION_STORES_DRAINED: the failing strand's stores are in the L2; the entries listed in `bad`, by place in the buffer,
have failed their ECC. -/
def migDrained (rw : RegWriter) (s : State) (t : Nat) (bad : List Nat) : State :=
  match (s.triad t).mig with
  | none => s
  | some m =>
    if m.phase ≠ .drain then s
    else
      let c := s.cordOf t m.cord
      let es := (s.cord c).sbuf
      let tags := bad.filterMap (fun i => (es[i]?).map SbEnt.tag)
      let s := drainList rw c tags es s
      let left := (s.cord c).sbuf.map SbEnt.tag
      let s := (tags.filter (fun x => !left.contains x)).foldl (fun s _ => raise s (dom.strand t m.strand) .DE) s
      if (s.cord c).sbuf.all SbEnt.sent then
        s.modTriad t (fun x => { x with mig := some { m with phase := .power } })
      else s

/-! ### Stores of a flush claim (R419) -/

/-- The line of a claim with a moved store's bytes in it. -/
def ClaimLine.merge (x : ClaimLine) (e : SbEnt) : ClaimLine :=
  { x with sel := x.sel ||| touched e.mask, bytes := mergeLine x.bytes e.bytes e.mask, poison := x.poison &&& ~~~covered e.mask }

/-- A moved store merged into the reserve's copy of its line, in whichever claim of the cord holds it; a local line stands in the warp
cache. -/
def mergeClaim (s : State) (tile c line : Nat) (e : SbEnt) : State :=
  let s := s.setClaims tile ((s.claimsOf tile).map (fun (x : Claim) =>
    if x.cord = c then { x with lines := x.lines.map (fun y => if y.line = line ∧ !y.sent then y.merge e else y) } else x))
  if (homeOfLine s line).isNone then s
  else
    match mget? s.warp (lowLine line) with
    | none => s
    | some w =>
      { s with warp := mset s.warp (lowLine line) { w with
          bytes := mergeLine w.bytes e.bytes e.mask, dirty := w.dirty ||| touched e.mask
          poison := w.poison &&& ~~~covered e.mask } }

/-- A moved store that the cord's claims hold no line for goes to its target: memory in a house or unowned beat, any other at once; a
bounce is uncovered. -/
def sendMoved (rw : RegWriter) (s : State) (tile i : Nat) (cl : Claim) (e : SbEnt) (rest : List SbEnt) : State :=
  let line := normLine s e.pa
  let who := claimWho tile cl.way
  let t := s.triadOf cl.cord
  let out : Bool := s.owed.any (fun o => o.agent == t && o.who == who && o.line == line)
  if e.toMem s ∧ (out ∨ !reserveBeat s line) then s
  else
    let (s, f) := if e.toMem s then performHome s t who e false true else performEntry rw s cl.cord e false
    let put (s : State) (es : List SbEnt) : State :=
      claimsReturn (s.setClaims tile ((s.claimsOf tile).set i { cl with stores := es })) tile
    match f with
    | .done => put s rest
    | .sent p q => put s (rest ++ [{ e with sent := true, port := p, seq := q }])
    | .bounce => put (e.stores.foldl (fun s x => uncovered s cl.cord e.tenant x.2) s) rest
    | .wait => s

/-- RESERVE_STORE_PERFORM (R419): the next moved store of a claim in program order. Those that await an acknowledgement are left; one
whose line is on its way from a claim to another module waits for it. -/
def reserveStore (rw : RegWriter) (s : State) (tile i : Nat) : State :=
  match (s.claimsOf tile)[i]? with
  | none => s
  | some cl =>
    match cl.stores.find? (fun e => !e.sent) with
    | none => claimsReturn s tile
    | some e =>
      let rest := cl.stores.filter (fun x => x.tag ≠ e.tag)
      let line := normLine s e.pa
      let held := ((s.claimsOf tile).filter (fun x => x.cord == cl.cord)).flatMap Claim.lines
      if e.attr ≠ .device ∧ held.any (fun x => x.line == line && !x.sent) then
        let s := mergeClaim s tile cl.cord line e
        claimsReturn (s.setClaims tile ((s.claimsOf tile).map (fun (x : Claim) => if x.way = cl.way then { x with stores := rest } else x))) tile
      else if e.attr ≠ .device ∧ held.any (fun x => x.line == line) then s
      else sendMoved rw s tile i cl e rest

end Sys2Proof.Machine
end

