-- ==== Sys2Proof/Machine/Loom.lean ====
section
/-! DEFINITION. The Loom: the counts of a beat and their fold (R33 to R35), the commit (R21, R22, R31), minutes (R14, R33),
PICKSYNC (R15, R17). -/

namespace Sys2Proof.Machine

/-! ### The counts of a beat (R29, R33, R34, R55) -/

/-- The counter of a table's owned beats. -/
def beatCounter (t : Nat) : Nat :=
  if t < 16 then led.MEM_BEATS
  else if t < 32 then led.WARP_BEATS
  else if t < 44 then led.DMA_BEATS
  else if t < 48 then led.CIP_BEATS
  else led.CMP_BEATS

/-- A count of the pick in progress. -/
def State.counts (s : State) (tenant i n : Nat) : State :=
  { s with loom := { s.loom with acc := addCount s.loom.acc tenant i n } }

/-- A beat of the pick marked as borrowed or lent by a tenant in the recording's scope (R381). -/
def noteLend (s : State) (t tenant b : Nat) (lent : Bool) : State :=
  if s.recording ∧ s.scopeTenant tenant then
    { s with rpl := { s.rpl with lend := mupd s.rpl.lend (t * 1024 + tenant) (0, 0) (fun x =>
        if lent then (x.1, x.2 ||| 2 ^ b) else (x.1 ||| 2 ^ b, x.2)) } }
  else s

/-- LENT_BEATS and BORROWED_BEATS of a table in the beat that ends (R34). -/
def countLending (s : State) (t b : Nat) (owner : Option Nat) : State :=
  let who := mget s.loom.issued t []
  let s := match owner with
    | some o =>
      if who.contains o ∨ who.isEmpty then s else noteLend (s.counts o led.LENT_BEATS 1) t o b true
    | none => s
  (who.filter (fun n => owner != some n)).foldl (fun s n => noteLend (s.counts n led.BORROWED_BEATS 1) t n b false) s

/-- A table's count of a beat: for its owner, the house beat for tenant 0x000. -/
def countTable (s : State) (b t : Nat) : State :=
  if b = Config.houseBeat then s.counts 0 (beatCounter t) 1
  else
    let owner := if s.hedKind t b = 0 then some (s.hedTenant t b) else none
    let s := match owner with
      | some o => s.counts o (beatCounter t) 1
      | none => s
    if s.closedWeave then s else countLending s t b owner

/-- CORD_BEATS of a beat: cords that run count for their tenant; in the house beat, and while they change hands or recover,
for tenant 0x000. -/
def countCord (s : State) (b c : Nat) : State :=
  if c ∈ s.loom.recover then s.counts 0 led.CORD_BEATS 1
  else if s.assigned c ∧ (s.cord c).run.live then
    s.counts (if b = Config.houseBeat then 0 else s.tenantOf c) led.CORD_BEATS 1
  else s

/-- The counts of one beat. -/
def countBeat (s : State) (b : Nat) : State :=
  let s := (List.range Config.heddleTables).foldl (fun s t => countTable s b t) s
  (List.range s.cordCount).foldl (fun s c => countCord s b c) s

/-- The cord's beats go to the house: its flush runs its 4,000 rclk, or it resynchronises or migrates (R29, R55). -/
def inRecovery (s : State) (c : Nat) : Bool :=
  ((s.flushOf c).isSome && decide (s.since < 4000)) || (s.cord c).paused

/-- A beat begins: nobody has issued in it. -/
def beatStart (s : State) : State :=
  { s with loom := { s.loom with issued := [], recover := (List.range s.cordCount).filter (inRecovery s) } }

/-- The pick's counts go into the live bank (R33). -/
def fold (s : State) : State :=
  { s with loom := { s.loom with
    live := s.loom.acc.foldl (fun m e => addCount m (e.1 / 16) (e.1 % 16) e.2) s.loom.live, acc := [] } }

/-- LENDING records of the pick (R381, R385). -/
def stageLending (s : State) : State :=
  let s := s.rpl.lend.foldl (fun s e =>
    stage s rplType.LENDING 0x7F (e.1 % 1024) 0 (e.1 / 1024) [BitVec.ofNat 64 e.2.1, BitVec.ofNat 64 e.2.2]) s
  { s with rpl := { s.rpl with lend := [] } }

/-! ### The commit (R21, R22) -/

/-- LOOM_COMMIT: marks, and the boundary when no commit is pending. -/
def loomCommit (s : State) (v : Word) : State :=
  let w := taken s LOOM_COMMIT.off v
  let pending := s.flag LOOM_STAT.PENDING
  let s := hostWrite s LOOM_COMMIT.off v
  if w = 0 then s
  else
    let s := { s with loom := { s.loom with
      marks := s.loom.marks ||| bits w 0 52, markCords := s.loom.markCords || bitAt w 52 } }
    if pending then s
    else
      let left := s.time.pickStart + Config.rclkPerPick - s.time.now
      let d := (s.get LOOM_COMMITAT.PICK + 2 ^ 32 - s.pick % 2 ^ 32) % 2 ^ 32
      let ahead : Bool := decide (1 ≤ d) && decide (d < 2 ^ 31) && (decide (d ≠ 1) || !s.time.loom || decide (16 ≤ left))
      let en := s.flag LOOM_COMMITAT.EN
      let s := s.putFlag LOOM_STAT.PENDING true
      { s with loom := { s.loom with
        commitPick := if en && ahead then some (s.get LOOM_COMMITAT.PICK) else none
        commitFrom := if en && ahead then s.time.now else s.time.now + 16
        lateAtApply := en && !ahead } }

/-- The pending commit applies at this boundary. -/
def commitDue (s : State) : Bool :=
  s.flag LOOM_STAT.PENDING && decide (s.loom.commitFrom ≤ s.time.now)
    && (match s.loom.commitPick with
      | some p => s.pick % 2 ^ 32 == p
      | none => true)

/-- A recorded tenant owns an entry of the active table (R381). -/
def tableInScope (s : State) (t : Nat) : Bool :=
  (List.range 63).any (fun b => s.hedKind t b == 0 && s.scopeTenant (s.hedTenant t b))

/-- A shadow table becomes the active one; a change that concerns a recorded tenant is journaled. -/
def commitTable (s : State) (t : Nat) : State :=
  let before := tableInScope s t
  let same := (List.range 16).all (fun k => s.rd (LOOM_HEDA.off t k) == s.rd (LOOM_HEDS.off t k))
  let s := (List.range 16).foldl (fun s k => s.wr (LOOM_HEDA.off t k) (s.rd (LOOM_HEDS.off t k))) s
  if !same ∧ (before ∨ tableInScope s t) then
    stage s rplType.TABLE 0x7F 0 0 t ((List.range 16).map (fun k => BitVec.ofNat 64 (s.rd (LOOM_HEDA.off t k))))
  else s

/-- The change of a cord's assignment word is a reassignment (R26). -/
def isReassign (old new : Nat) : Bool :=
  asg.state old != asg.state new || (asg.state old == 1 && asg.tenant old != asg.tenant new)

/-- The cord is migrating (R54). -/
def migratingCord (s : State) (c : Nat) : Bool :=
  match (s.triad (s.triadOf c)).mig with
  | some m => s.cordOf (s.triadOf c) m.cord == c
  | none => false

/-- A cord of a tenant in the scope of the recording, by its assignment word. -/
def asgInScope (s : State) (w : Nat) : Bool := asg.state w == 1 && s.scopeTenant (asg.tenant w)

/-- One value of the cord assignment table applied or deferred (R26, R31, R54). -/
def commitCord (s : State) (c new : Nat) : State :=
  let old := s.rd (LOOM_CORDA.off c)
  let s := { s with loom := { s.loom with deferred := mdel s.loom.deferred c } }
  if !isReassign old new then s.wr (LOOM_CORDA.off c) new
  else if s.get (LOOM_FLUSHRES.free (tileOf s c)) < claimsNeeded s ∨ migratingCord s c ∨ (s.flushOf c).isSome then
    { s.putFlag LOOM_STAT.DEFERRED true with
      loom := { s.loom with deferred := mset s.loom.deferred c (BitVec.ofNat 64 new) } }
  else
    let s := if asgInScope s old || asgInScope s new then
        stage s rplType.ASSIGN c (asg.tenant new) (s.cord c).retire.toNat new []
      else s
    flushStart s c new

/-- The cord assignments of a boundary: the shadow's when the commit loads it, else what an earlier one deferred. -/
def commitCords (s : State) (load : Bool) : State :=
  (List.range s.cordCount).foldl (fun s c =>
    if load then commitCord s c (s.rd (LOOM_CORDS.off c))
    else
      match mget? s.loom.deferred c with
      | some w => commitCord s c w.toNat
      | none => s) s

/-- The commit's work at a boundary (R21, R31). -/
def commitApply (s : State) : State :=
  let due := commitDue s
  let marks := s.loom.marks
  let load := due && s.loom.markCords
  let s := if due then
      let s := s.putFlag LOOM_STAT.PENDING false
      let s := if s.loom.lateAtApply then s.putFlag LOOM_STAT.LATE true else s
      let s := { s with loom := { s.loom with marks := 0, markCords := false, commitPick := none, lateAtApply := false } }
      (List.range Config.heddleTables).foldl (fun s t => if bitAt marks t then commitTable s t else s) s
    else s
  let s := commitCords s load
  if s.recording then { s with rpl := { s.rpl with cords := scopeCords s } } else s

/-! ### Minutes (R33, R49, R416) -/

/-- The slowest delay monitor of a tile measured; a module warns once per cold boot. -/
def ageTile (s : State) (k d : Nat) : State :=
  let s := s.put (PWR_AGE.DEGRADE k) (min d 65535)
  let beyond : Bool := decide (s.get (PWR_AGE.LIMIT k) < min d 65535)
  let s := s.putFlag (PWR_AGE.AGEWARN k) beyond
  if beyond ∧ !s.pwr.ageDone then raise { s with pwr := { s.pwr with ageDone := true } } src.thermal .CE else s

/-- The delay monitors measured. -/
def ageCheck (s : State) (age : List Nat) : State :=
  (List.range Config.tiles).foldl (fun s k => ageTile s k (age.getD k 0)) s

/-- The banks swap, the new live bank is cleared, and the counts of the minute start again. -/
def minuteSwap (s : State) : State :=
  let s := s.put LOOM_LEDSTAT.MINUTE ((s.get LOOM_LEDSTAT.MINUTE + 1) % 2 ^ 32)
  let s := s.put LOOM_LEDSTAT.BANK (1 - s.get LOOM_LEDSTAT.BANK)
  let s := { s with loom := { s.loom with frozen := s.loom.live, live := [], minuteDue := false } }
  (List.range Config.triads).foldl (fun s t => s.modTriad t (fun x => { x with counts := [] })) s

/-! ### PICKSYNC (R15, R17) -/

/-- PICK counts on, modulo its 48 bits. -/
def pickNext (s : State) : State := s.put LOOM_PICK.PICK ((s.pick + 1) % 2 ^ 48)

/-- The count as it stood before it reached a multiple. -/
def pickBack (s : State) : State := s.put LOOM_PICK.PICK ((s.pick + 2 ^ 48 - 1) % 2 ^ 48)

/-- The count stands before a minute boundary. -/
def minuteNext (s : State) : Bool := (s.pick + 1) % Config.picksPerMinute == 0

/-- The next multiple of 468,750 above the count. -/
def minuteAbove (s : State) : Nat := (s.pick / Config.picksPerMinute + 1) * Config.picksPerMinute % 2 ^ 48

/-- An edge that is not used; after the third in a row the worker runs from its own count. A pick counts one: an early edge that is not
used is no missing edge as well, and a late one whose pick has begun from the own count has been counted as missing (DESIGN CHOICE,
log 40). -/
def edgeUnused (s : State) : State :=
  if s.loom.edge then s
  else
    let n := s.loom.unused + 1
    let s := { s with loom := { s.loom with unused := n, accepted := 0, edge := true } }
    if n = 3 ∧ s.flag LOOM_SYNC.SOURCE then
      raise ((s.putFlag LOOM_SYNC.SYNCLOST true).putFlag LOOM_SYNC.SOURCE false) src.loomSync .UC
    else s

/-- An accepted edge; the fourth in a row ends the loss of synchronisation, and a loss for one pick ends with that pick. -/
def edgeAccepted (s : State) : State :=
  let n := s.loom.accepted + 1
  let s := if s.loom.lostPick then s.putFlag LOOM_SYNC.SYNCLOST false else s
  let s := { s with loom := { s.loom with unused := 0, accepted := min n 4, edge := false, missed := false, lostPick := false } }
  if 4 ≤ n ∧ !s.flag LOOM_SYNC.SOURCE then (s.putFlag LOOM_SYNC.SYNCLOST false).putFlag LOOM_SYNC.SOURCE true else s

/-- SYNCLOST for one pick; SOURCE stays 1 in it, as the manager's pulses still place the worker's picks (DESIGN CHOICE, log 40). -/
def lostOnePick (s : State) : State :=
  { s.putFlag LOOM_SYNC.SYNCLOST true with loom := { s.loom with lostPick := true } }

end Sys2Proof.Machine
end

