-- ==== Sys2Proof/Machine/SplRows.lean ====
section
/-! DEFINITION. Commands of bolts, splice pairs and hot plug (R312 to R336). -/

namespace Sys2Proof.Machine

/-! ### Warp links (R312, R313) -/

/-- WARP_LINK_UP (R312): a link of a domain that is ON joins the list. A peer of 16 or more has not been admitted. -/
def doWarpLinkUp (link peer : Nat) (s : State) : State :=
  if s.stopped ∨ 16 ≤ link ∨ s.role = 0 ∨ !s.domOn (dom.link link) then s
  else
    { s with spl := { s.spl with
      upLinks := insertNat link s.spl.upLinks
      peers := if peer < 16 then mset s.spl.peers link peer else mdel s.spl.peers link
      rejected := s.spl.rejected.filter (· ≠ link) } }

/-- WARP_LINK_UP (R312). -/
def execWarpLinkUp (link peer : Nat) (s : State) : Host.Outcome State Fault Refusal := .next (doWarpLinkUp link peer s)

/-- Messages that wait for a beat of a link that is DOWN wait at another link to the same peer, or go when there is none (R313). -/
def linkMoved (s : State) (link m : Nat) : State :=
  { s with loom := { s.loom with waiting := s.loom.waiting.filterMap (fun (w : Waiting) =>
    if w.table = table.link link then (linkFor s m w.line).map (fun l => { w with table := table.link l }) else some w) } }

/-- A link that is DOWN: reported, and the peer lost when no other link leads to it. -/
def linkDown (s : State) (link : Nat) : State :=
  let s := { s with spl := { s.spl with upLinks := s.spl.upLinks.filter (· ≠ link) } }
  match mget? s.spl.peers link with
  | none => s
  | some m =>
    let s := linkMoved (report s { Report.of (dom.link link) .UC with info := BitVec.ofNat 64 m }) link m
    let other := s.spl.upLinks.any (fun l => mget? s.spl.peers l == some m)
    if !other ∧ s.boltBit SPL_BOLT.MEMBERS m ∧ !s.boltBit SPL_BOLT.DEAD m then lostMember s m link else s

/-- WARP_LINK_DOWN (R313). -/
def doWarpLinkDown (link : Nat) (s : State) : State :=
  if s.stopped ∨ 16 ≤ link ∨ s.role = 0 then s else linkDown s link

/-- WARP_LINK_DOWN (R313). -/
def execWarpLinkDown (link : Nat) (s : State) : Host.Outcome State Fault Refusal := .next (doWarpLinkDown link s)

/-! ### Admission (R314 to R316) -/

/-- Bytes 0 to 159 of this module's identity record (R314): part number and serial, public key, hash of the image in use. -/
def identityWords (s : State) : List Word :=
  let bodies : List Word := match s.boot.copy with
    | some c => c.records.flatMap ImgRecord.body
    | none => []
  (List.range 2).map Config.serial ++ (List.range 12).map Config.identityKey ++ (List.range 6).map (Config.imageHash bodies)

/-- ADMISSION_ANNOUNCE (R314): this module announces itself, or an announcement reaches the manager. -/
def doAdmissionAnnounce (src : Option Announcement) (s : State) : State :=
  if s.stopped then s
  else
    match src with
    | none =>
      if awaitsAdmission s ∧ s.boot.stage = .ready then s.spl.upLinks.foldl (fun s l => s.send (.announce l (identityWords s))) s else s
    | some a => if s.role = 1 ∧ !awaitsAdmission s then announced s a else s

/-- ADMISSION_ANNOUNCE (R314). -/
def execAdmissionAnnounce (src : Option Announcement) (s : State) : Host.Outcome State Fault Refusal :=
  .next (doAdmissionAnnounce src s)

/-- NONCE_SEND (R315). -/
def execNonceSend (v : Word) (s : State) : Host.Outcome State Fault Refusal := .next (nonceWrite s v)

/-- SIGNATURE_RECEIVED (R315): bytes 160 to 255 of the identity record of the candidate shown. -/
def doSignatureReceived (link : Nat) (sig : List Word) (s : State) : State :=
  if s.flag SPL_ADMIT.PENDING ∧ s.spl.nonceSent ∧ s.get SPL_ADMIT.LINK = link then
    (List.range 12).foldl (fun s j => s.wr (SPL_IDENT.off (20 + j)) (sig.getD j 0).toNat) (s.putFlag SPL_ADMIT.SIGV true)
  else s

/-- SIGNATURE_RECEIVED (R315). -/
def execSignatureReceived (link : Nat) (sig : List Word) (s : State) : Host.Outcome State Fault Refusal :=
  .next (doSignatureReceived link sig s)

/-- A write of SPL_ADMIT whose OP is the one of its row. -/
def admitRow (s : State) (v : Word) (op : Nat) : State := if bits v.toNat 12 2 = op then admitWrite s v else s

/-- ADMIT (R316). -/
def execAdmitModule (v : Word) (s : State) : Host.Outcome State Fault Refusal := .next (admitRow s v 1)

/-- ADMIT_STANDBY (R316). -/
def execAdmitStandby (v : Word) (s : State) : Host.Outcome State Fault Refusal := .next (admitRow s v 2)

/-- REJECT (R316). -/
def execReject (v : Word) (s : State) : Host.Outcome State Fault Refusal := .next (admitRow s v 3)

/-- A standby twin turns every domain off and waits, the standing regulator in low-power mode (R318, R355). -/
def enterStandby (s : State) : State :=
  let s := (List.range Config.domains).foldl (fun s d =>
    let s := if s.get (PWR_DOM.CUR d) = pst.ON then leaveOn s d else s
    (setDom (latchPads s d pst.OFF) d pst.OFF).setTrans d none) s
  ((lowPower s true).put SPL_STAT.STATE spst.STANDBY).put PWR_MODSTAT.LIFE life.STANDBY

/-- ADMISSION_RECEIVED (R316): the admission of this module, or of another member. -/
def doAdmissionReceived (mid : Nat) (members : BitVec 16) (pick : Nat) (standby : Bool) (s : State) : State :=
  if s.stopped ∨ s.role = 0 ∨ 16 ≤ mid then s
  else if awaitsAdmission s then
    if s.boot.stage ≠ .ready then s
    else
      let s := (s.put SPL_BOLT.MID mid).putFlag SPL_BOLT.ADMITTED true
      let s := memberJoins (s.put SPL_BOLT.MEMBERS members.toNat) mid standby
      if standby then enterStandby s else { s with loom := { s.loom with admitPick := some pick } }
  else if mid = s.mid then s
  else memberJoins s mid standby

/-- ADMISSION_RECEIVED (R316). -/
def execAdmissionReceived (mid : Nat) (members : BitVec 16) (pick : Nat) (standby : Bool) (s : State) :
    Host.Outcome State Fault Refusal := .next (doAdmissionReceived mid members pick standby s)

/-! ### The checkpoint (R324, R334) -/

/-- A write-through issued before the capture has not been made: the commit word is not written yet (R324). -/
def captureWaits (s : State) : Bool :=
  match s.spl.image with
  | some x => x.writes.any (fun l => (sharedWrites s).contains l)
  | none => false

/-- CHECKPOINT_COMMIT (R324): the commit that ends a switchover is followed by YIELD and the fence (R334). -/
def doCheckpointCommit (s : State) : State :=
  match s.spl.capture with
  | none => s
  | some e =>
    if s.stopped ∨ s.get SPL_STAT.STATE ≠ spst.ACTIVE ∨ captureWaits s then s
    else
      let s := (writeCommit s e).put SPL_STAT.EPOCH e
      let last := decide (s.spl.final = some e)
      let s := { s.put SPL_STAT.CKFAIL 0 with
        spl := { s.spl with capture := none, image := none, saved := s.spl.image, ckFail := false, undo := s.spl.undo.filter (fun u => e ≤ u.epoch) }
        chs := { s.chs with retired := s.chs.retired.filter (fun r => e ≤ r.2.2) } }
      if last then fenceSelf (sendHeartbeat s true) else s

/-- CHECKPOINT_COMMIT (R324). -/
def execCheckpointCommit (s : State) : Host.Outcome State Fault Refusal := .next (doCheckpointCommit s)

/-! ### Heartbeats and the decision (R327, R328) -/

/-- HEARTBEAT (R327): one of the arbitrated pair's. -/
def doHeartbeat (b : Beat) (s : State) : State :=
  if s.stopped ∨ !s.flag SPL_CFG.ARBEN ∨ !(b.mid == s.get SPL_CFG.ARBA || b.mid == s.get SPL_CFG.ARBB) then s
  else
    let s := (s.put SPL_ARB.MISSED 0).put SPL_ARB.LASTPICK b.pick
    let s := { s with spl := { s.spl with heard := true, lastFrom := some b.mid } }
    if b.yields ∧ !s.boltBit SPL_BOLT.DEAD b.mid then decideTakeover s else s

/-- HEARTBEAT (R327). -/
def execHeartbeat (b : Beat) (s : State) : Host.Outcome State Fault Refusal := .next (doHeartbeat b s)

/-- HEARTBEAT_CHECK (R327, R328): at rclk 12,750 of a pick, once; the third missed pick decides. Before the first heartbeat of the pair
the arbitrator watches neither module and counts no pick (DEDUCED, log 40). -/
def doHeartbeatCheck (s : State) : State :=
  if s.stopped ∨ !s.flag SPL_CFG.ARBEN ∨ !s.time.loom ∨ s.since < 12750 ∨ s.spl.checked ∨ s.spl.lastFrom.isNone then s
  else
    let s := { s with spl := { s.spl with checked := true } }
    if s.spl.heard then s
    else
      let n := s.get SPL_ARB.MISSED
      let s := raise (s.put SPL_ARB.MISSED (min 3 (n + 1))) src.splice .UC
      if n = 2 ∧ !s.boltBit SPL_BOLT.DEAD (watched s) then decideTakeover s else s

/-- HEARTBEAT_CHECK (R327). -/
def execHeartbeatCheck (s : State) : Host.Outcome State Fault Refusal := .next (doHeartbeatCheck s)

/-- SPL_DECIDE (R328). -/
def execSplDecide (v : Word) (s : State) : Host.Outcome State Fault Refusal :=
  .next (if bitAt v.toNat 1 then splCtlWrite s v else s)

/-- FENCE_OUT_RELEASE (R328): 100 rclk after FENCE_OUT_n fell. -/
def doFenceOutRelease (s : State) : State :=
  if s.pins.fenceOut ∨ s.time.now < s.spl.fenceOutAt + 100 then s else { s with pins := { s.pins with fenceOut := true } }

/-- FENCE_OUT_RELEASE (R328). -/
def execFenceOutRelease (s : State) : Host.Outcome State Fault Refusal := .next (doFenceOutRelease s)

/-- FENCE_IN (R329): FENCE_IN_n has been low for some rclk. After the wake it is ignored until it has been high for 1 ms. -/
def doFenceIn (low : Nat) (s : State) : State :=
  if low = 0 ∨ s.stopped then s
  else
    let ignored : Bool := match s.spl.fenceLow with
      | some t => decide (s.time.now - low < t + 100000)
      | none => false
    if ignored then { s with spl := { s.spl with fenceLow := some s.time.now } }
    else if s.get SPL_STAT.STATE = spst.ACTIVE then fenceSelf s
    else if s.get SPL_STAT.STATE = spst.STANDBY ∧ 50 ≤ low then
      { ((lowPower s false).put SPL_STAT.STATE spst.TAKEOVER).put PWR_MODSTAT.LIFE life.TAKEOVER with
        spl := { s.spl with fenceLow := some s.time.now } }
    else s

/-- FENCE_IN (R329). -/
def execFenceIn (low : Nat) (s : State) : Host.Outcome State Fault Refusal := .next (doFenceIn low s)

/-- WARP_FENCE (R329). -/
def execWarpFence (s : State) : Host.Outcome State Fault Refusal :=
  .next (if s.get SPL_STAT.STATE = spst.ACTIVE ∧ !s.stopped then fenceSelf s else s)

/-- FENCED (R329, R336): a member that is not already dead is lost. -/
def doFenced (mid : Nat) (s : State) : State :=
  if s.stopped ∨ s.role = 0 ∨ 16 ≤ mid ∨ mid = s.mid ∨ s.boltBit SPL_BOLT.DEAD mid then s else lostMember s mid (lastLink s mid)

/-- FENCED (R336). -/
def execFenced (mid : Nat) (s : State) : Host.Outcome State Fault Refusal := .next (doFenced mid s)

/-! ### Takeover (R330 to R333) -/

/-- TAKEOVER_WAKE_DONE (R330): every domain is ON and the claim word is written. -/
def doTakeoverWakeDone (s : State) : State :=
  if s.stopped ∨ s.get SPL_STAT.STATE ≠ spst.TAKEOVER ∨ s.spl.claimAt.isSome then s
  else
    let s := (List.range Config.domains).foldl (fun s d =>
      let s := s.putFlag (PWR_DOM.PADLATCH d) false
      if s.get (PWR_DOM.CUR d) = pst.ON then s else (returnOn s d pst.OFF true).setTrans d none) s
    let s := writeClaim s
    { s with spl := { s.spl with claimAt := some s.time.now } }

/-- TAKEOVER_WAKE_DONE (R330). -/
def execTakeoverWakeDone (s : State) : Host.Outcome State Fault Refusal := .next (doTakeoverWakeDone s)

/-- CLAIM_WAIT_EXPIRY (R332, R333): two picks after the claim. -/
def doClaimWaitExpiry (ck : Checkpoint) (s : State) : State :=
  match s.spl.claimAt, loadEpoch ck with
  | some t, some c =>
    if s.stopped ∨ s.get SPL_STAT.STATE ≠ spst.TAKEOVER ∨ s.spl.loaded.isSome ∨ s.time.now < t + 25600 then s
    else loadCheckpoint s c ck
  | _, _ => s

/-- CLAIM_WAIT_EXPIRY (R333). -/
def execClaimWaitExpiry (ck : Checkpoint) (s : State) : Host.Outcome State Fault Refusal := .next (doClaimWaitExpiry ck s)

/-- CHECKPOINT_LOAD_DONE (R331): REJOIN goes to every other member that lives. -/
def doCheckpointLoadDone (s : State) : State :=
  match s.spl.loaded with
  | none => s
  | some c =>
    if s.stopped ∨ s.get SPL_STAT.STATE ≠ spst.TAKEOVER ∨ s.spl.rejoining ∨ s.flag SPL_BOLT.ALIASV then s
    else
      let twin := s.get SPL_CFG.TWINMID
      let dests := (otherMembers s).filter (fun m => m != twin && !s.boltBit SPL_BOLT.DEAD m && !s.boltBit SPL_BOLT.STANDBYS m)
      let s := s.send (.rejoin s.mid twin c)
      rejoinCheck { s with spl := { s.spl with rejoining := true, awaiting := dests } }

/-- CHECKPOINT_LOAD_DONE (R331). -/
def execCheckpointLoadDone (s : State) : Host.Outcome State Fault Refusal := .next (doCheckpointLoadDone s)

/-- REJOIN (R331). -/
def doRejoin (twin served _epoch : Nat) (s : State) : State :=
  if s.stopped ∨ s.role = 0 ∨ 16 ≤ twin ∨ 16 ≤ served then s
  else if !(s.boltBit SPL_BOLT.STANDBYS twin && s.boltBit SPL_BOLT.DEAD served) then raise s src.splice .UC
  else
    let s := ((s.setBolt SPL_BOLT.DEAD served false).setBolt SPL_BOLT.STANDBYS twin false).send (.rejoinAck s.mid)
    { s with spl := { s.spl with routes := mset s.spl.routes served twin } }

/-- REJOIN (R331). -/
def execRejoin (twin served epoch : Nat) (s : State) : Host.Outcome State Fault Refusal := .next (doRejoin twin served epoch s)

/-- REJOIN_ACK (R331). -/
def doRejoinAck (mid : Nat) (s : State) : State :=
  if s.stopped ∨ !s.spl.rejoining then s
  else rejoinCheck { s with spl := { s.spl with awaiting := s.spl.awaiting.filter (· ≠ mid) } }

/-- REJOIN_ACK (R331). -/
def execRejoinAck (mid : Nat) (s : State) : Host.Outcome State Fault Refusal := .next (doRejoinAck mid s)

/-! ### Switchover and removal (R334, R335) -/

/-- PLANNED_SWITCHOVER (R334). -/
def execPlannedSwitchover (v : Word) (s : State) : Host.Outcome State Fault Refusal :=
  .next (if bitAt v.toNat 0 then splCtlWrite s v else s)

/-- The conditions under which a module may not leave (R335). -/
def leaveRefused (s : State) : Bool :=
  s.role != 2 || (List.range s.cordCount).any (fun c => s.assigned c) || !(enabledVis s).isEmpty
    || (List.range 8).any (ringsEnabled s)

/-- A write of SPL_LEAVE. -/
def leaveWrite (s : State) (v : Word) : State :=
  let go := bitAt (taken s SPL_LEAVE.off v) 0
  let s := hostWrite s SPL_LEAVE.off v
  if !go then s
  else if leaveRefused s then s.putFlag SPL_LEAVE.REFUSED true
  else s.putFlag SPL_LEAVE.BUSY true

/-- LEAVE (R335). -/
def execLeave (v : Word) (s : State) : Host.Outcome State Fault Refusal := .next (leaveWrite s v)

/-- Every line homed elsewhere written back and dropped. -/
def returnRemote (s : State) : State :=
  let far (s : State) (line : Nat) : Bool := (homeOfLine s line).isNone
  let s := s.l2.foldl (fun s e =>
    let line := e.1 % 2 ^ 44
    if far s line then (sectorsHome s line (agentOwner s (e.1 / 2 ^ 44) line) e.2.copy .none).setL2 (e.1 / 2 ^ 44) line CLine.none else s) s
  s.ev.foldl (fun s e =>
    if far s e.2.line then { (sectorsHome s e.2.line (agentOwner s (e.1 / 16) e.2.line) e.2.copy .none) with ev := mdel s.ev e.1 } else s) s

/-- Every copy that another module holds of a line homed here is invalidated: SNP_I goes to its proxy, and a transaction stays open on
the line until it has answered. -/
def recallRemote (s : State) : State :=
  s.dir.foldl (fun s e =>
    let far := e.2.holders.filter (fun a => 64 ≤ a)
    if far.isEmpty ∨ (mget? s.txns e.1).isSome then s
    else
      let q : Req := { Req.of selfReq e.1 (lineOwner s e.1) with bad := 0 }
      let d : DirEnt := { e.2 with sharers := e.2.sharers.filter (fun a => decide (a < 64)) }
      let owned : Bool := d.st == .X || d.st == .O
      let s := s.setDir e.1 (if owned ∧ 64 ≤ d.owner then d.ownerGone else if owned then d else sharersOnly d.sharers)
      far.foldl (fun s a => s.sendTo a e.1 q.tenant (.snp .I { agent := a, line := e.1, req := selfReq }))
        { s with txns := mset s.txns e.1 { kind := .cmo .icinv, req := q, waits := far, told := Told.none, queue := [] } }) s

/-- No other module holds a copy of a line homed here. -/
def recalled (s : State) : Bool :=
  s.dir.all (fun e => e.2.holders.all (fun a => decide (a < 64))) && s.txns.all (fun e => e.2.waits.all (fun a => decide (a < 64)))

/-- No dirty line or store of another module waits in the flush reserve or for a beat of a warp link (R335). -/
def returned (s : State) : Bool :=
  s.loom.claims.all (fun e => e.2.all (fun (c : Claim) => c.lines.all (fun x => (homeOfLine s x.line).isSome) && c.stores.isEmpty))
    && s.loom.waiting.all (fun w => match w.what with
      | .link _ => false
      | _ => true)

/-- LEAVE_DRAIN_DONE (R335): the module goes once every copy elsewhere has been given up; until then the drain goes on. -/
def doLeaveDrainDone (s : State) : State :=
  if s.stopped ∨ !s.flag SPL_LEAVE.BUSY then s
  else
    let s := recallRemote (returnRemote s)
    if !recalled s ∨ !returned s then s
    else
      let s := s.send (.leave s.mid)
      let s := ((s.putFlag SPL_LEAVE.BUSY false).putFlag SPL_LEAVE.DONE true).put PWR_MODSTAT.LIFE life.QUIESCE
      { s with spl := { s.spl with upLinks := [] } }

/-- LEAVE_DRAIN_DONE (R335). -/
def execLeaveDrainDone (s : State) : Host.Outcome State Fault Refusal := .next (doLeaveDrainDone s)

/-- LEAVE_MESSAGE (R335): the member's addresses are holes from now on. A module lost before stays lost (R338). -/
def execLeaveMessage (mid : Nat) (s : State) : Host.Outcome State Fault Refusal :=
  .next (if s.stopped ∨ 16 ≤ mid ∨ mid = s.mid ∨ s.boltBit SPL_BOLT.DEAD mid then s else s.setBolt SPL_BOLT.MEMBERS mid false)

end Sys2Proof.Machine
end

