-- ==== Sys2Proof/Machine/Boot.lean ====
section
/-! DEFINITION. Resets and the boot (R35, R56, R140, R162, R239, R338, R360 to R366, R369, R372, R409). -/

namespace Sys2Proof.Machine

/-! ### Kinds of reset (BOOT_CAUSE.KIND) -/

def kind.POWER_ON : Nat := 0
def kind.STANDING : Nat := 1
def kind.PWRGOOD : Nat := 2
def kind.RAIL : Nat := 3
def kind.COLD : Nat := 4
def kind.WARM_PIN : Nat := 5
def kind.WARM : Nat := 6
def kind.PROMOTED : Nat := 7

/-- The reset clears the standing domain: power-on, a standing reset, or a reset by VSTBY (R353, R356, R360). -/
def clearsStanding (k rail : Nat) : Bool := k ≤ 1 || (k == kind.RAIL && rail == 9)

/-! ### Cold resets (R360) -/

/-- What a cold reset leaves, before the boot begins: everything at reset but fuses, memory devices, what lies outside the module
and, unless it clears the standing domain, PROF_SEL and BOOT_CAUSE. -/
def coldState (s : State) (standing : Bool) : State :=
  let r := State.reset
  let keep (o : Nat) : Bool := !standing && (o == PROF_SEL.off || o == BOOT_CAUSE.off)
  { r with
    free := s.free, seq := s.seq, regs := s.regs.filter (fun (e : Nat × Word) => keep e.1)
    time := { now := s.time.now, pickStart := s.time.now, resetAt := s.time.now, loom := false }
    mem := s.mem, keyNext := s.keyNext, eng := { r.eng with nextVer := s.eng.nextVer }
    ports := s.ports.map (fun (e : Nat × Port) => (e.1, { Port.zero with
      present := e.2.present, powered := e.2.powered, attention := e.2.attention }))
    sec := { r.sec with gen := s.sec.gen, salt := s.sec.salt, hash := s.sec.hash }
    i3c := s.i3c, resp := s.resp, pending := s.pending
    pins := { s.pins with fault := true, safe := true, fenceOut := true, picksync := 0 } }

/-- A cold reset of a kind, with the profile that was in use and whether it ended a safe state. FAULT_n falls at a rail reset
(R353) and rises as the boot begins (R403). -/
def coldReset (s : State) (k rail prev : Nat) (safe : Bool) : State :=
  let gone := clearsStanding k rail
  let warms := if gone then 0 else s.get BOOT_CAUSE.WARMCNT
  let s := coldState s gone
  let s := s.wr BOOT_CAUSE.off (k + rail * 2 ^ 4 + boolNat safe * 2 ^ 8 + boolNat gone * 2 ^ 9 + prev * 2 ^ 10 + warms * 2 ^ 16)
  if k = kind.RAIL then { s with pins := { s.pins with fault := false } } else s

/-- A cold reset of the module as it runs. -/
def coldNow (s : State) (k rail : Nat) : State :=
  match s.boot.warm with
  | some w => coldReset s k rail (if s.boot.stage = .profile then w.prof else s.get MOD_MODE.PROFILE) s.stopped
  | none => coldReset s k rail (s.get MOD_MODE.PROFILE) s.stopped

/-- POWER_ON (R360): VSTBY applied from absent. -/
def doPowerOn (s : State) : State :=
  let s := coldReset s kind.POWER_ON 0 0 false
  { s with pins := { s.pins with pwrgood := false } }

/-- POWER_ON (R360). -/
def execPowerOn (s : State) : Host.Outcome State Fault Refusal := .next (doPowerOn s)

/-- PWRGOOD_FALL (R360). -/
def doPwrgoodFall (s : State) : State :=
  let s := coldNow s kind.PWRGOOD 0
  { s with pins := { s.pins with pwrgood := false } }

/-- PWRGOOD_FALL (R360). -/
def execPwrgoodFall (s : State) : Host.Outcome State Fault Refusal := .next (doPwrgoodFall s)

/-- RAIL_RESET (R353): an armed monitor has seen its rail below reset for more than 100 rclk. -/
def execRailReset (rail : Nat) (s : State) : Host.Outcome State Fault Refusal :=
  .next (if 10 ≤ rail ∨ !s.flag (PWR_RAIL.ARMED rail) then s else coldNow s kind.RAIL rail)

/-- STANDING_BROWNOUT (R356). -/
def execStandingBrownout (s : State) : Host.Outcome State Fault Refusal := .next (coldNow s kind.STANDING 0)

/-! ### The cold boot (R363, R409) -/

def setStage (s : State) (x : Stage) : State := { s with boot := { s.boot with stage := x } }

/-- The boot sequence begins: the pins are sampled and the profile chosen (R372). -/
def bootBegin (s : State) (b : BootInputs) : State := setStage (takeProfile s b.prof) .image

/-- COLD_BOOT (R363): PWRGOOD rises, or a cold reset with PWRGOOD high has been made. With a rail below its warning the
module waits (R409). -/
def doColdBoot (b : BootInputs) (s : State) : State :=
  if s.boot.stage ≠ .off then s
  else
    let s := { s with
      pins := { s.pins with pwrgood := true, prof := b.prof, fault := true, safe := true }
      boot := { s.boot with inputs := some b }, time := { s.time with resetAt := s.time.now } }
    if b.railLow then setStage s .railWait else bootBegin s b

/-- COLD_BOOT (R363). -/
def execColdBoot (b : BootInputs) (s : State) : Host.Outcome State Fault Refusal := .next (doColdBoot b s)

/-- RAIL_WAIT_DONE (R409): every rail has been above its warning for 1 ms; the times of the boot run from here. -/
def doRailWaitDone (s : State) : State :=
  match s.boot.stage, s.boot.inputs with
  | .railWait, some b => bootBegin s b
  | _, _ => s

/-- RAIL_WAIT_DONE (R409). -/
def execRailWaitDone (s : State) : Host.Outcome State Fault Refusal := .next (doRailWaitDone s)

/-- The copy that the boot ROM accepts; with none the module stays in BOOT, FAULT_n low (R369). -/
def bootImage (s : State) (b : BootInputs) : State :=
  let p := s.get BOOT_CAUSE.PROF
  let ra := copyReason b.copyA p
  let rb := copyReason b.copyB p
  let take (s : State) (c : FlashCopy) (n : Nat) : State :=
    let s := s.put MOD_BOOTSTAT.COPY n
    { s with boot := { s.boot with copy := some c, stage := .profile } }
  if ra = 0 then take s b.copyA 1
  else
    let s := s.put MOD_BOOTSTAT.AFAIL ra
    if rb = 0 then take s b.copyB 2
    else
      let s := setStage (s.put MOD_BOOTSTAT.BFAIL rb) .stuck
      { s with pins := { s.pins with fault := false } }

/-- The links of the channel ports train where their quads are ON. -/
def trainAll (s : State) : State := (List.range 12).foldl trainQuad s

/-- The voters test themselves; after a cold reset TSTATE takes the state of the mode (R56, R59). -/
def selfTests (s : State) (cold : Bool) : State :=
  (List.range Config.triads).foldl (fun s t =>
    let s := if cold then s.put (TRI_STAT.TSTATE t) (if s.voted then tst.VOTED3 else tst.SPLIT) else s
    s.modTriad t (fun x => { x with selfTest := true })) s

/-- Domains that were not ON before a warm reset and that the profile has ON wake with their seals checked (R359). -/
def warmWakes (s : State) (w : WarmBoot) : State :=
  w.doms.foldl (fun s e =>
    if s.get (PWR_DOM.CUR e.1) = pst.ON then returnOn s e.1 e.2 (!w.inp.badSeals.contains e.1) else s) s

/-- Operations on ports whose mode has changed complete DEVICE_LOST, with their subchannels LOST (R362). -/
def modeChanges (s : State) (w : WarmBoot) : State :=
  (List.range Config.ports).foldl (fun s p =>
    if w.weft.contains p == weftMode s p then s
    else
      let s := (opsWith s (fun j => opPort s j == p && (opOpen j || j.state == .ending))).foldl (fun s c =>
        match s.op? c with
        | some j => endOp s c j cst.DEVICE_LOST 0 false
        | none => s) s
      losePort s p cst.DEVICE_LOST) s

/-- The Shuttles take up the journal again (R233, R239): each operation goes back as from a Shuttle that has gone. -/
def resumeOps (s : State) : State := (opsWith s opTaken).foldl orphan s

/-- The profile is applied (R362, R363, R366). -/
def bootProfile (s : State) : State :=
  let p := s.get BOOT_CAUSE.PROF
  match s.boot.copy with
  | none => s
  | some c =>
    let s := match s.boot.warm with
      | none => selfTests (applyProfile s c p true) true
      | some w => selfTests (resumeOps (modeChanges (warmWakes (applyProfile s c p (p != w.prof)) w) w)) false
    setStage (trainAll s) .selfTest

/-- A controller has memory to fill. -/
def inUse (s : State) (h : Nat) : Bool := ctlLines s h != 0 && !s.flag (MEM_FILLSTAT.UNUSED h) && (h < 16 || s.cxlMode (h - 16))

/-- Every controller with memory has filled it since the cold reset (R192). -/
def filled (s : State) : Bool := (List.range Config.homes).all (fun h => !inUse s h || s.flag (MEM_FILLSTAT.DONE h))

/-- The self-tests that have not ended have passed. A warm boot goes past Fill, but not past one that a reset has cut short
(R192; DEDUCED, log 41). -/
def bootTested (s : State) : State :=
  let s := (List.range Config.triads).foldl (fun s t => selfTestDone s t []) s
  setStage s (if s.boot.warm.isSome ∧ filled s then .invalidate else .training)

/-- A channel left unused, with UC (R179). -/
def channelUnused (s : State) (h far : Nat) : State :=
  if s.flag (MEM_FILLSTAT.UNUSED h) then s
  else report (s.putFlag (MEM_FILLSTAT.UNUSED h) true) { Report.of (memSrc h) .UC with far := far }

/-- Training of the memory: failing channels and their partners, and ports whose device is not enumerated (R179, R267). -/
def trainMemory (s : State) (r : StageResult) : State :=
  let bad := (List.range 16).filter (fun h => r.badChannels.contains h)
  let s := bad.foldl (fun s h => channelUnused s h noFar) s
  let s := bad.foldl (fun s h => channelUnused s (groupMate h) (dom.mem h)) s
  ((List.range 16).filter (fun p => r.notEnumerated.contains p && s.cxlMode p)).foldl (fun s p => channelUnused s (16 + p) noFar) s

/-- The wrap key of the engines drawn (R280). -/
def drawWrap (s : State) : State := { s with eng := { s.eng with wrapVer := 2 * s.eng.nextVer, nextVer := s.eng.nextVer + 1 } }

/-- After training: the delay monitors are measured, the keys drawn, and Fill begins (R186, R280, R416). -/
def bootTrained (s : State) (r : StageResult) : State :=
  let s := ageCheck (trainMemory s r) r.age
  let s := drawWrap (keyGen s 0)
  setStage (s.put PWR_MODSTAT.LIFE life.FILL) .fill

/-- Fill ends once every controller has set DONE; its time is a free value (R192). A controller without memory has nothing to
write. -/
def bootFilled (s : State) : State :=
  if !filled s then s
  else
    let s := (List.range Config.homes).foldl (fun s h => if inUse s h then s else s.putFlag (MEM_FILLSTAT.DONE h) true) s
    setStage (s.drew.put MOD_BOOTSTAT.FILLMS (s.freeVal.toNat % 90001)) .invalidate

/-- The boot cord: BOOTCORD, or the next cord whose triad runs (R364). -/
def bootCord (s : State) : Option Nat :=
  let n := s.cordCount
  ((List.range n).map (fun i => (bits (s.prof 0) 4 7 + i) % n)).find? (fun c => triadRuns s (s.triadOf c))

/-- HOSTCODE copied to its load address (R363, R366). -/
def copyHostcode (s : State) (c : FlashCopy) : State :=
  match recOf c recType.HOSTCODE 0 with
  | none => s
  | some r =>
    (writeBytes s rplSrc 0 (s.mid * 2 ^ 48 + recWord r 0) (r.bytes - 64) (ofBytes (recBytes r 64 (r.bytes - 64))) false).1

/-- HOSTCODE is in memory, the initial heddle tables and the cord table are active (R363, R365). -/
def bootHostcode (s : State) : State :=
  let s := match s.boot.copy with
    | some c => copyHostcode s c
    | none => s
  let s := (List.range Config.heddleTables).foldl (fun s t =>
    (List.range 16).foldl (fun s k => s.wr (LOOM_HEDA.off t k) (s.rd (LOOM_HEDS.off t k))) s) s
  let s := match bootCord s with
    | some c => (s.wr (LOOM_CORDS.off c) 0x400).wr (LOOM_CORDA.off c) 0x400
    | none => s
  setStage s .ready

/-- BOOT_STAGE_DONE (R363): the stage in progress ends. -/
def doBootStageDone (r : StageResult) (s : State) : State :=
  let held : Bool := match s.boot.warm with
    | some w => w.held
    | none => false
  if held ∨ s.stopped then s
  else
    match s.boot.stage with
    | .image => match s.boot.inputs with
      | some b => bootImage s b
      | none => s
    | .profile => bootProfile s
    | .selfTest => bootTested s
    | .training => bootTrained s r
    | .fill => bootFilled s
    | .invalidate => setStage s .hostcode
    | .hostcode => bootHostcode s
    | .off => s
    | .railWait => s
    | .ready => s
    | .released => s
    | .stuck => s

/-- BOOT_STAGE_DONE (R363). -/
def execBootStageDone (r : StageResult) (s : State) : Host.Outcome State Fault Refusal := .next (doBootStageDone r s)

/-! ### The boot cord's release (R14, R364, R365) -/

/-- The state in which the boot cord starts. Without a HOSTCODE record, which a worker may lack, its values are free. -/
def bootCore (s : State) : State × Core :=
  let make (pc sb sl tvec : Word) : Core :=
    { Core.zero with lvl := .H, run := .running, pc := pc, stkH := { sp := sb, sb := sb, sl := sl }
                     trH := { TrapRegs.zero with tvec := tvec } }
  match s.boot.copy.bind (fun c => recOf c recType.HOSTCODE 0) with
  | some r => (s, make (r.body.getD 1 0) (r.body.getD 2 0) (r.body.getD 3 0) (r.body.getD 4 0))
  | none =>
    let f (i : Nat) : Word := Config.freeWord (s.free + i)
    ({ s with free := s.free + 4 }, make (f 0) (f 1) (f 2) (f 3))

/-- The Loom counts picks from here. -/
def loomStart (s : State) (pick : Nat) : State :=
  let s := (s.put LOOM_PICK.PICK pick).put LOOM_PICK.BEAT 0
  beatStart { s with time := { s.time with pickStart := s.time.now, loom := true } }

/-- The boot cord is released and the module enters RUN, as the active member of its pair if it is one. -/
def releaseBoot (s : State) : State :=
  let s := match bootCord s with
    | some c =>
      let (s, k) := bootCore s
      let s := (s.put MOD_BOOTSTAT.CORD c).putFlag MOD_BOOTSTAT.CORDMOVED (c != bits (s.prof 0) 4 7)
      s.setCord c k
    | none => s
  let s := s.put PWR_MODSTAT.LIFE (if s.get SEC_STAT.ACCESS = 2 then life.FACTORY else life.RUN)
  let s := if s.flag SPL_CFG.SPLICED ∧ !s.flag SPL_CFG.START then (writeClaim s).put SPL_STAT.STATE spst.ACTIVE else s
  dozeCheck (applyPins (setStage s .released))

/-- The claim word is another module's: no cord is released (R338). -/
def claimTaken (s : State) : Bool :=
  match s.boot.warm with
  | some w => w.inp.claim
  | none => false

/-- BOOT_CORD_RELEASE (R363): the first pick begins. A worker or a standby twin waits for its admission. -/
def doBootCordRelease (s : State) : State :=
  if s.boot.stage ≠ .ready ∨ s.stopped ∨ awaitsAdmission s ∨ s.time.loom then s
  else if claimTaken s then setStage (raise (s.put SPL_STAT.STATE spst.FENCED) src.splice .UC) .released
  else
    let s := loomStart s 0
    releaseBoot (if s.role = 1 then { s with pins := { s.pins with picksync := 4 } } else s)

/-- BOOT_CORD_RELEASE (R363). -/
def execBootCordRelease (s : State) : Host.Outcome State Fault Refusal := .next (doBootCordRelease s)

/-! ### The warm reset (R35, R56, R140, R162, R239, R361) -/

/-- The current beat is counted with the pick in progress (R35). -/
def countPart (s : State) : State :=
  if !s.time.loom ∨ s.beat = Config.houseBeat then s else countBeat s s.beat

/-- The store buffer of a cord at a warm reset: what is performed in 2 µs is, the rest is counted as lost (R140). A store to
MOD_RST meets the reset in progress. -/
def warmDrain (rw : RegWriter) (s : State) (c : Nat) : State × Nat :=
  let es := (s.cord c).sbuf.filter (fun e => !e.knot)
  let quiet (k : Core) : Core := { k with sbuf := es, bounced := [], knot := none, run := .waitBarrier .sbar 0 }
  let rw' : RegWriter := fun s who off v => if off = MOD_RST.off then s else rw s who off v
  let s := if s.stopped then s.modCord c quiet else drainCord rw' (s.modCord c quiet) c
  let k := s.cord c
  (s, (es.filter (fun e => k.sbuf.any (fun x => x.tag == e.tag) || k.bounced.any (fun b => b.1 == e.tag))).length)

/-- TRI_SBLOST and DE for the entries of a triad that are lost. -/
def warmStores (rw : RegWriter) (s : State) (t : Nat) : State :=
  let (s, a) := warmDrain rw s (s.cordOf t 0)
  let (s, b) := if s.voted then (s, 0) else warmDrain rw s (s.cordOf t 1)
  let s := (s.put (TRI_SBLOST.LOST0 t) (min a 16)).put (TRI_SBLOST.LOST1 t) (min b 16)
  if a + b = 0 then s else raise (s.bump (TRI_SBLOST.TOTAL t) (a + b)) (src.triad t) .DE

/-- A migration in progress is completed in the triad's state (R56). -/
def warmMigration (s : State) (t : Nat) : State :=
  match (s.triad t).mig with
  | none => s
  | some m => ((fenceStrand s t m.strand).put (TRI_STAT.SPARE t) (m.cord + 1)).put (TRI_STAT.TSTATE t) tst.SPARED

/-- Transitions that have begun are completed (R359). -/
def warmTransitions (s : State) : State :=
  s.pwr.trans.foldl (fun s e =>
    if !e.2.begun then s
    else
      let s := if e.2.src = pst.ON ∧ e.2.dst ≠ pst.ON ∧ !s.stopped then leaveOn s e.1 else s
      setDom s e.1 e.2.dst) s

/-- Doorbells at a warm reset: one that has taken its cells reads ACCEPTED, another NOT_ACCEPTED with SUSPENDED (R239). -/
def warmDoors (s : State) : State :=
  let s := s.chs.doorbells.foldl (fun s e => setStat (setDoor s (e.1 / 64) (e.1 % 64) none) (e.1 / 64) (e.1 % 64)
    vst.NOT_ACCEPTED cst.SUSPENDED 0) s
  s.chs.cells.foldl (fun s e =>
    match e.2.door with
    | some slot => setStat (s.setOp e.1 { e.2 with door := none }) e.2.vi slot vst.ACCEPTED 0 e.2.seq
    | none => s) s

/-- What a warm reset makes of the engines: running and suspended jobs of operations are asked for again, jobs of rings are
still in their rings (R294). -/
def warmEng (g : Eng) : Eng :=
  let js := g.job.toList ++ g.susp.map (·.2)
  { Eng.zero with xforms := js.filterMap (fun (j : Job) => j.cell) ++ g.xforms }

/-- The blocks are reset (R162, R239, R360): caches, directories, links, cords and the FCU's windows lose what they hold; memory, keys,
the channel subsystem's journal, the ledger and the splice epoch are kept. -/
def warmBlocks (s : State) : State :=
  { s with
    regs := warmRegs s, cords := [], triads := [], tlb := [], tlbi := [], l2 := [], ev := [], snoops := [], warp := []
    dir := [], txns := [], evPend := [], net := [], owed := [], wants := []
    ctls := s.ctls.map (fun (e : Nat × Ctl) => (e.1, { e.2 with merge := [], parts := [] }))
    loom := { Loom.zero with live := s.loom.live, frozen := s.loom.frozen }
    chs := { s.chs with shuts := [], dc := [], grants := [], inj := [], writes := [] }
    ports := s.ports.map (fun (e : Nat × Port) => (e.1, { Port.zero with
      regSeq := e.2.regSeq, present := e.2.present, powered := e.2.powered, attention := e.2.attention }))
    eng := { s.eng with engs := s.eng.engs.map (fun (e : Nat × Eng) => (e.1, warmEng e.2)) }
    fcu := { windows := [], resets := [], held := [], safe := none, safeDone := false }
    spl := { Spl.zero with epochNow := s.spl.epochNow, undo := s.spl.undo }
    pwr := { Power.zero with sensors := s.pwr.sensors, ageDone := s.pwr.ageDone }
    sec := { s.sec with chal := [] }
    rpl := Rpl.zero
    time := { s.time with loom := false, resetAt := s.time.now }
    pins := { s.pins with fault := true, safe := true, fenceOut := true, picksync := 0 } }

/-- What a warm boot keeps from before the reset. A reset that meets a warm boot before its profile is applied keeps that
boot's own record. -/
def warmRecord (s : State) (k : Nat) (r : ResetInputs) (held : Bool) : WarmBoot :=
  match s.boot.stage, s.boot.warm with
  | .profile, some w => { w with inp := r, kind := k, held := held }
  | _, _ =>
    { inp := r, kind := k, mode := s.get MOD_MODE.MODE, prof := s.get MOD_MODE.PROFILE, safe := s.stopped
      weft := (List.range Config.ports).filter (weftMode s), doms := [], held := held }

/-- The domains that the warm boot must wake. -/
def warmDoms (s : State) : SMap Nat :=
  match s.boot.stage, s.boot.warm with
  | .profile, some w => w.doms
  | _, _ => ((List.range Config.domains).filter (fun d => s.get (PWR_DOM.CUR d) ≠ pst.ON)).map (fun d => (d, s.get (PWR_DOM.CUR d)))

/-- The warm reset takes effect; `held` says that RESET_n still holds the module. Stores performed at its start are counted in the
pick that it ends, whose counts go into the live bank last (R35, R140). -/
def warmStart (rw : RegWriter) (s : State) (k : Nat) (r : ResetInputs) (held : Bool) : State :=
  let w := warmRecord s k r held
  let s := (List.range Config.triads).foldl (warmStores rw) (countPart s)
  let s := fold ((List.range Config.homes).foldl closeMerges s)
  let s := warmTransitions ((List.range Config.triads).foldl warmMigration s)
  let doms := warmDoms s
  let s := warmBlocks (warmDoors s)
  { s with boot := { s.boot with stage := .profile, inputs := none, warm := some { w with doms := doms } } }

/-- RESET_n is released, or the command's reset goes on: a changed mode promotes it, else the profile is selected and the warm
boot begins (R361, R366, R372). -/
def warmRelease (s : State) : State :=
  match s.boot.stage, s.boot.warm, s.boot.copy with
  | .profile, some w, some c =>
    let p := selected s w.inp.prof
    if (recOf c recType.PROFILE p).isNone ∨ modeOf c p ≠ w.mode then coldReset s kind.PROMOTED 0 w.prof w.safe
    else
      let n := min (s.get BOOT_CAUSE.WARMCNT + 1) 65535
      let s := s.wr BOOT_CAUSE.off (w.kind + boolNat w.safe * 2 ^ 8 + w.prof * 2 ^ 10 + n * 2 ^ 16)
      let s := takeProfile s w.inp.prof
      { s with
        pins := { s.pins with prof := w.inp.prof }, time := { s.time with resetAt := s.time.now }
        boot := { s.boot with warm := some { w with held := false } } }
  | _, _, _ => s

/-- The module looks for a warm reset: a module held in reset has nothing to reset, and one that found no copy waits for a cold
reset (R369). -/
def warmCan (s : State) : Bool :=
  match s.boot.stage with
  | .off => false
  | .stuck => false
  | _ => true

/-- No profile has been applied since the cold reset, so there is none in use to compare with. -/
def noProfile (s : State) : Bool :=
  decide (s.boot.stage = .railWait) || decide (s.boot.stage = .image) || (decide (s.boot.stage = .profile) && s.boot.warm.isNone)

/-- The lifecycle state or the copy promotes the reset at its start (R361; without a profile in use DEDUCED, log 41). -/
def promotes (s : State) (r : ResetInputs) : Bool :=
  !r.copyOk || s.lifecycle == life.RETAIN || s.lifecycle == life.STANDBY || noProfile s

/-- A warm reset asked for by pin or command; the safe state of FENCE ignores it (R309, R360). -/
def warmAsk (rw : RegWriter) (s : State) (k : Nat) (r : ResetInputs) (held : Bool) : State :=
  if !warmCan s ∨ s.fcu.safe = some .fence then s
  else if promotes s r then coldNow s kind.PROMOTED 0
  else
    let s := warmStart rw s k r held
    if held then s else warmRelease s

/-- WARM_RESET_RELEASE (R361): RESET_n rises. -/
def doWarmResetRelease (s : State) : State :=
  let s := { s with pins := { s.pins with resetN := true } }
  match s.boot.warm with
  | some w => if w.held then warmRelease s else s
  | none => s

/-- WARM_RESET_RELEASE (R361). -/
def execWarmResetRelease (s : State) : Host.Outcome State Fault Refusal := .next (doWarmResetRelease s)

/-- WARM_RESET (R360): RESET_n has been low for some rclk. -/
def warmPin (rw : RegWriter) (s : State) (low : Nat) (r : ResetInputs) : State :=
  if low < 100 then s
  else
    let s := { s with pins := { s.pins with resetN := false } }
    match s.boot.warm with
    | some w => if w.held then s else warmAsk rw s kind.WARM_PIN r true
    | none => warmAsk rw s kind.WARM_PIN r true

end Sys2Proof.Machine
end

