-- ==== Sys2Proof/Machine/CohRows.lean ====
section
/-! DEFINITION. Coherence messages as commands (R158, R161, R163, R165 to R176, R321): requests at a home, snoops at a cache,
answers, grants, data and writebacks, and the cache registers of a triad. -/

namespace Sys2Proof.Machine

/-- The line's home is on another module, whose messages the sender of commands delivers. -/
def remoteHome (s : State) (line : Nat) : Bool := (homeOfLine s line).isNone

/-! ### Requests (R169, R175, R176, R183, R345) -/

/-- A request reaches its home; memory that is dark answers DARK, and a write to it is dropped and counted. Before its admission a module
answers no request of another (R314). -/
def requestAt (s : State) (k : ReqKind) (q : Req) : State :=
  if 64 ≤ q.src ∧ awaitsAdmission s then s
  else match placeFor s (q.line * 256) q.tenant with
  | .mem h =>
    if s.lit (dom.mem h) then homeRequest s k { q with line := normLine s (q.line * 256) }
    else sendRefusal (if k.writes then darkStore s (dom.mem h) else s) q .dark
  | _ => homeRequest s k q

/-- RD_S (R169). -/
def execRdS (q : Req) (s : State) : Host.Outcome State Fault Refusal := .next (requestAt s .rdS q)

/-- RD_O (R169). -/
def execRdO (q : Req) (s : State) : Host.Outcome State Fault Refusal := .next (requestAt s .rdO q)

/-- RD_OZ (R169): ownership without data. -/
def execRdOz (q : Req) (s : State) : Host.Outcome State Fault Refusal := .next (requestAt s .rdOZ q)

/-- UPG (R169). -/
def execUpg (q : Req) (s : State) : Host.Outcome State Fault Refusal := .next (requestAt s .upg q)

/-- RD_ONCE (R169). -/
def execRdOnce (q : Req) (s : State) : Host.Outcome State Fault Refusal := .next (requestAt s .rdOnce q)

/-- WR_LINE (R176). -/
def execWrLine (q : Req) (bytes : LineData) (poison : BitVec 4) (s : State) : Host.Outcome State Fault Refusal :=
  .next (requestAt s (.wrLine bytes poison) q)

/-- WR_PART (R176). -/
def execWrPart (q : Req) (mask : LineMask) (bytes : WrData) (s : State) : Host.Outcome State Fault Refusal :=
  .next (requestAt s (.wrPart mask bytes.bytes bytes.poison) q)

/-- ATOM (R175). -/
def execAtom (q : Req) (addr : Nat) (wide : Bool) (aop : BitVec 4) (x y : Word) (s : State) :
    Host.Outcome State Fault Refusal :=
  .next (requestAt s (.atom addr wide aop x y) q)

/-- CMO (R158). -/
def execCmo (q : Req) (op : CmoOp) (s : State) : Host.Outcome State Fault Refusal := .next (requestAt s (.cmo op) q)

/-! ### Snoops (R168, R170) -/

/-- The answer of class RSP as a message. -/
def Rsp.msg (agent line : Nat) : Rsp → Msg
  | .I => .rspI agent line
  | .S => .rspS agent line
  | .fwd d _ => .rspFwd agent line d
  | .evicting e d => .rspEvicting agent line e d

/-- An answer of a cache of this module goes to the home of the line and to the requester, over a link when that is on another
module (R167, R170). -/
def answerSend (s : State) (line agent tenant : Nat) (m : Msg) : State :=
  if remoteHome s line || 64 ≤ agent then s.sendOn tenant m else s.send m

/-- A cache answers a snoop: the class RSP message to the home, forwarded data to the requester, data for the home
written there. -/
def answerSnoop (s : State) (k : SnpKind) (m : Snoop) : State :=
  let inval : Bool := match mget? s.txns m.line with
    | some x => x.kind == .cmo .inval
    | none => false
  let n := agentOwner s m.agent m.line
  let (s, a) := snoopAgent s k m.agent m.line inval
  let s := match a.toHome with
    | some c => sectorsHome s m.line n c .none
    | none => s
  let s := match a.toReq with
    | some c => answerSend s m.line m.req n (.data m.req m.line c.valid c.dirty c.poison c.bytes)
    | none => s
  answerSend s m.line 0 n (a.rsp.msg m.agent m.line)

/-- The place of a triad whose miss a fill answers: the one whose tenant owns the line (log 23). -/
def fillPlace (s : State) (t line : Nat) : Nat :=
  if s.voted then 0
  else
    match homeOfLine s line with
    | some h =>
      let o := ownerOf s h (line * 256 % 2 ^ 48)
      if s.tenantOf (s.cordOf t 0) ≠ o ∧ s.tenantOf (s.cordOf t 1) = o then 1 else 0
    | none => 0

/-- The place that a line of an L2, or its pending fill, belongs to. -/
def placeIn (s : State) (t line : Nat) : Nat :=
  let c := s.l2At t line
  if c.st = .I ∧ c.valid = 0 then fillPlace s t line else c.share

/-- The snoop queue of an L2 has an entry for one more snoop of a line: 16, or the 8 of the line's cord (R150, R153). -/
def snoopRoom (s : State) (t line : Nat) : Bool :=
  let here := s.snoops.filter (fun e => e.2.agent == t)
  if s.voted then decide (here.length < Config.snoopEntries)
  else decide ((here.filter (fun e => placeIn s t e.2.line == placeIn s t line)).length < Config.snoopEntries / 2)

/-- A snoop reaches a cache. While the line is held, or its fill is pending, it waits in the L2 snoop queue, and with its sender while
that is full (R166, R168). -/
def snoopRow (k : SnpKind) (m : Snoop) (s : State) : State :=
  if 49 ≤ m.agent ∨ !(s.flies (.snp k m) || remoteHome s m.line) then s
  else if holdsOff s k m.agent m.line then
    (if snoopRoom s m.agent m.line then { s.take (.snp k m) with snoops := s.snoops ++ [(k, m)] } else s)
  else answerSnoop (s.take (.snp k m)) k m

/-- SNP_S (R170). -/
def execSnpS (m : Snoop) (s : State) : Host.Outcome State Fault Refusal := .next (snoopRow .S m s)

/-- SNP_C (R170). -/
def execSnpC (m : Snoop) (s : State) : Host.Outcome State Fault Refusal := .next (snoopRow .C m s)

/-- SNP_O (R170). -/
def execSnpO (m : Snoop) (s : State) : Host.Outcome State Fault Refusal := .next (snoopRow .O m s)

/-- SNP_I (R170). -/
def execSnpI (m : Snoop) (s : State) : Host.Outcome State Fault Refusal := .next (snoopRow .I m s)

/-- SNP_IZ (R170). -/
def execSnpIz (m : Snoop) (s : State) : Host.Outcome State Fault Refusal := .next (snoopRow .IZ m s)

/-- SNP_L1I (R170). -/
def execSnpL1i (m : Snoop) (s : State) : Host.Outcome State Fault Refusal := .next (snoopRow .L1I m s)

/-- Snoops of a line that wait at an L2. -/
def snoopsWaiting (s : State) (agent line : Nat) : List (SnpKind × Snoop) :=
  s.snoops.filter (fun e => e.2.agent == agent && e.2.line == line)

/-- HITCH_TIME_EXPIRY (R168): the hold ends and the waiting snoops of the line proceed in order. -/
def doHitchTimeExpiry (agent line : Nat) (s : State) : State :=
  let c := s.l2At agent line
  if fillPending s agent line ∧ !c.held then s
  else
    let s := s.setL2 agent line { c with held := false }
    let ws := snoopsWaiting s agent line
    txnsGo (ws.foldl (fun s e => answerSnoop s e.1 e.2)
      { s with snoops := s.snoops.filter (fun e => !(e.2.agent == agent && e.2.line == line)) })

/-- HITCH_TIME_EXPIRY (R168). -/
def execHitchTimeExpiry (agent line : Nat) (s : State) : Host.Outcome State Fault Refusal :=
  .next (doHitchTimeExpiry agent line s)

/-! ### Writebacks (R169, R171, R172) -/

/-- The answer of an agent to a snoop of the line is outstanding at the home. -/
def snoopOut (s : State) (agent line : Nat) : Bool :=
  match mget? s.txns line with
  | some x => x.waits.contains agent
  | none => false

/-- A write waits in the slot of an eviction-buffer entry (R177). -/
def slotWaits (s : State) (tag : Nat) : Bool :=
  s.loom.waiting.any (fun w => match w.what with
    | .write _ _ _ _ slot _ => slot == .entry tag
    | _ => false)

/-- WB_ACK to the L2 of an eviction-buffer entry (R172). -/
def wbAcked (s : State) (agent entry : Nat) : State :=
  s.answerTo agent 0 (.wbAck agent entry)

/-- A WB taken by the home of its line: discarded when its pending-eviction bit is set, else taken into memory and the directory. It
is acknowledged once its write has been made (R169, R172, R178). -/
def wbTaken (s : State) (agent entry line : Nat) (c : Copy) : State :=
  let tag := evTag agent entry
  if tag ∈ s.evPend then wbAcked { s with evPend := s.evPend.erase tag } agent entry
  else
    let s := dirForget (sectorsHome s line (agentOwner s agent line) c (.entry tag)) line agent
    if slotWaits s tag then s else wbAcked s agent entry

/-- A WB reaches the home: held while a snoop to the writer is outstanding (R171). -/
def writeBack (s : State) (agent entry line : Nat) (msg : Msg) (c : Copy) : State :=
  if agent < 48 then
    match mget? s.ev (agent * 16 + entry) with
    | none => s
    | some x =>
      if x.line ≠ line ∨ !s.flies msg ∨ remoteHome s line
          ∨ (snoopOut s agent line && !s.evPend.contains (evTag agent entry)) then s
      else wbTaken (s.take msg) agent entry line { x.copy with dirty := x.dirty &&& c.dirty }
  else if agent < 64 ∨ 768 ≤ entry ∨ remoteHome s line ∨ (snoopOut s agent line && !s.evPend.contains (evTag agent entry)) then s
  else wbTaken s agent entry line c

/-- WB_D (R171). -/
def execWbD (agent : Nat) (entry : WbData) (s : State) : Host.Outcome State Fault Refusal :=
  .next (writeBack s agent entry.entry entry.line (.wbD agent entry.entry entry.line)
    { valid := 15, dirty := if agent < 48 then 15 else entry.dirty, poison := entry.poison, bytes := entry.bytes })

/-- WB_C (R169). -/
def execWbC (agent : Nat) (entry : WbNote) (s : State) : Host.Outcome State Fault Refusal :=
  .next (writeBack s agent entry.entry entry.line (.wbC agent entry.entry entry.line) { valid := 0, dirty := 0, poison := 0, bytes := 0 })

/-- Lines of an L2 that stand in data buffers get a way once one can be had. -/
def settleWays (s : State) (t : Nat) : State :=
  ((s.l2.filter (fun e => e.1 / 2 ^ 44 == t && e.2.way == Config.l2Ways)).map (fun e => e.1 % 2 ^ 44)).foldl (fun s line =>
    match fillRoom s t (s.l2At t line).share (agentOwner s t line) line with
    | (s, some way) => s.setL2 t line { s.l2At t line with way := way }
    | (s, none) => s) s

/-- WB_ACK (R172): the eviction-buffer entry is free. -/
def doWbAck (agent entry : Nat) (s : State) : State :=
  let tag := agent * 16 + entry
  match mget? s.ev tag with
  | none => s.take (.wbAck agent entry)
  | some x =>
    if s.flies (.wbAck agent entry) ∨ remoteHome s x.line then
      settleWays { s.take (.wbAck agent entry) with ev := mdel s.ev tag } agent
    else s

/-- WB_ACK (R172). -/
def execWbAck (agent entry : Nat) (s : State) : Host.Outcome State Fault Refusal := .next (doWbAck agent entry s)

/-! ### Answers at the home (R170, R172) -/

/-- An answer may be taken: it is in flight, or it comes from the proxy of another module. -/
def rspHere (s : State) (agent : Nat) (m : Msg) : Bool := 64 ≤ agent || s.flies m

/-- RSP_I (R170). -/
def doRspI (agent line : Nat) (s : State) : State :=
  if rspHere s agent (.rspI agent line) then homeAnswer (s.take (.rspI agent line)) agent line .I else s

/-- RSP_I (R170). -/
def execRspI (agent line : Nat) (s : State) : Host.Outcome State Fault Refusal := .next (doRspI agent line s)

/-- RSP_S (R170): the home supplies the data. -/
def doRspS (agent line : Nat) (s : State) : State :=
  if rspHere s agent (.rspS agent line) then homeAnswer (s.take (.rspS agent line)) agent line .S else s

/-- RSP_S (R170). -/
def execRspS (agent line : Nat) (s : State) : Host.Outcome State Fault Refusal := .next (doRspS agent line s)

/-- The owner that forwards keeps a copy: the request shares. -/
def ReqKind.keeps : ReqKind → Bool
  | .rdS => true
  | .rdOnce => true
  | .cmo .clean => true
  | _ => false

/-- RSP_FWD (R170). Data that another module's owner forwards is then on its way (log 23). -/
def doRspFwd (agent line : Nat) (dirty : BitVec 4) (s : State) : State :=
  match mget? s.txns line with
  | none => s
  | some x =>
    if rspHere s agent (.rspFwd agent line dirty) ∧ agent ∈ x.waits then
      let s := s.take (.rspFwd agent line dirty)
      let s := if 64 ≤ agent then s.send (.data x.req.src line 0 0 0 0) else s
      homeAnswer s agent line (.fwd dirty x.kind.keeps)
    else s

/-- RSP_FWD (R170). -/
def execRspFwd (agent line : Nat) (dirty : BitVec 4) (s : State) : Host.Outcome State Fault Refusal :=
  .next (doRspFwd agent line dirty s)

/-- RSP_EVICTING (R172): the pending-eviction bit is set and the transaction completes. -/
def doRspEvicting (agent line entry : Nat) (dirty : BitVec 4) (s : State) : State :=
  match mget? s.txns line, homeOfLine s line with
  | some x, some h =>
    let m : Msg := .rspEvicting agent line entry dirty
    if rspHere s agent m ∧ agent ∈ x.waits then
      let s := s.take m
      let s := if 64 ≤ agent then s.send (.data x.req.src line 0 0 0 0) else s
      let s := (evCross s agent entry).bump (COH_CNT.CROSS h) 1
      homeAnswer s agent line (.evicting entry dirty)
    else s
  | _, _ => s

/-- RSP_EVICTING (R172). -/
def execRspEvicting (agent line entry : Nat) (dirty : BitVec 4) (s : State) : Host.Outcome State Fault Refusal :=
  .next (doRspEvicting agent line entry dirty s)

/-! ### Grants and data (R165, R168) -/

/-- A full answer that an agent of this module owes nothing to: the record of a request that caches nothing, which its CMP completes. -/
def owedOnce (s : State) (agent line : Nat) (p : Owed → Bool) : Option Owed :=
  s.owed.find? (fun o => o.agent == agent && o.line == line && !o.kind.allocs && p o)

/-- CMP_GRANT (R165): the line takes the granted state; a line granted M or E is held for the hitch time. A grant without a state
completes a request that caches nothing, or refuses one. -/
def doCmpGrant (agent line : Nat) (st : Moesi) (e : CmpEnd) (s : State) : State :=
  let m : Msg := .cmp agent line st e
  if !(s.flies m || remoteHome s line) then s
  else
    let s := s.take m
    if 48 ≤ agent ∨ st = .I then
      (match owedOnce s agent line (fun o => o.cmp.isNone) with
        | some o => owedCmp s o e
        | none =>
          if e.refuses then
            { s with owed := s.owed.map (fun o => if o.agent = agent ∧ o.line = line then { o with cmp := some e } else o) }
          else s)
    else
      let s := { s with owed := s.owed.filter (fun o => !(o.agent == agent && o.line == line && o.kind.allocs)) }
      let c := s.l2At agent line
      let hold : Bool := (st == .M || st == .E) && c.st != st
      let way := if c.st = .I ∧ c.valid = 0 then Config.l2Ways else c.way
      s.setL2 agent line { c with st := st, share := placeIn s agent line, way := way, held := c.held || hold }

/-- CMP (R165). -/
def execCmpGrant (agent line : Nat) (st : GrantMsg) (s : State) : Host.Outcome State Fault Refusal :=
  .next (doCmpGrant agent line st.st st.fate s)

/-- Some sectors of a copy. -/
def Copy.only (c : Copy) (v : BitVec 4) : Copy :=
  { valid := c.valid &&& v, dirty := c.dirty &&& v, poison := c.poison &&& v, bytes := mergeLine 0 c.bytes (sectorMask (c.valid &&& v)) }

/-- The sectors of a DATA in flight. -/
def Msg.copy : Msg → Option Copy
  | .data _ _ v d p b => some { valid := v, dirty := d, poison := p, bytes := b }
  | _ => none

/-- A DATA in flight that carries the sectors delivered: all of its own or the first of them (R152). -/
def dataFlies (s : State) (agent line : Nat) (c : Copy) : Option Msg :=
  s.net.find? (fun m => s.flies m && m.chan == some { cls := .DAT, agent := agent, toAgent := true } && match m with
    | .data _ l v d p b => l == line && c.valid != 0
        && ({ valid := v, dirty := d, poison := p, bytes := b : Copy }).only c.valid == c.only c.valid
    | _ => false)

/-- The delivered sectors leave the message, which goes with its last ones. -/
def takeData (s : State) (m : Msg) (sel : BitVec 4) : State :=
  match m with
  | .data a l v d p b =>
    if v &&& ~~~sel = 0 then s.take m
    else { s with net := s.net.replace m (.data a l (v &&& ~~~sel) (d &&& ~~~sel) (p &&& ~~~sel) b) }
  | _ => s

/-- Sectors of an arriving DATA put into an L2's line; the first of them take a way for it, or stay in the data buffer. -/
def dataL2 (s : State) (t line : Nat) (c : Copy) : State :=
  let x := s.l2At t line
  let fresh : Bool := x.st == .I && x.valid == 0
  let s := s.setL2 t line { x with
    valid := x.valid ||| c.valid, dirty := (x.dirty &&& ~~~c.valid) ||| (c.dirty &&& c.valid)
    poison := (x.poison &&& ~~~c.valid) ||| (c.poison &&& c.valid)
    bytes := mergeLine x.bytes c.bytes (sectorMask c.valid), share := placeIn s t line
    way := if fresh then Config.l2Ways else x.way }
  settleWays s t

/-- DATA for an agent of this module: a request that caches nothing keeps it whole, the descriptor cache and an L2 take it in. -/
def dataTaken (s : State) (agent line : Nat) (c : Copy) (victim : Option Nat) : State :=
  match owedOnce s agent line (fun o => o.copy.isNone && o.kind.answers) with
  | some o => { s with owed := s.owed.map (fun x => if x = o then { o with copy := some (c.bytes, c.poison) } else x) }
  | none =>
    if agent = 48 then dcFill s line (lineOwner s line) c.bytes c.poison
    else if 48 < agent then s
    else
      let s := match victim with
        | some v => if v = line then s else evict s agent v
        | none => s
      dataL2 s agent line c

/-- DATA (R165): sectors reach the requester's buffer; a victim is evicted to make room. `agent` 64 and above names the
proxy of a module that sends dirty sectors to a home here (log 23). -/
def doData (agent line : Nat) (bytes : LineData) (valid dirty poison : BitVec 4) (victim : Option Nat) (s : State) : State :=
  let c : Copy := { valid := valid, dirty := dirty, poison := poison, bytes := bytes }
  if 64 ≤ agent then
    (if snoopOut s agent line then sectorsHome s line 0 c .none else s)
  else
    match dataFlies s agent line c with
    | some m => dataTaken (takeData s m valid) agent line c victim
    | none =>
      let promised : Msg := .data agent line 0 0 0 0
      if s.flies promised then dataTaken (s.take promised) agent line c victim
      else if remoteHome s line then dataTaken s agent line c victim
      else s

/-- DATA (R165). -/
def execData (agent line : Nat) (bytes : LineData) (valid dirty poison : BitVec 4) (victim : Option Nat) (s : State) :
    Host.Outcome State Fault Refusal :=
  .next (doData agent line bytes valid dirty poison victim s)

/-! ### Writes of SHARED lines (R321) -/

/-- SHARED_WRITE_THROUGH (R321): the dirty sectors go to the home and the line stays clean. -/
def doSharedWriteThrough (agent line : Nat) (s : State) : State :=
  match homeOfLine s line with
  | none => s
  | some h =>
    let c := s.l2At agent line
    if 48 ≤ agent ∨ c.dirty = 0 ∨ !throughShared s h (line * 256 % 2 ^ 48) then s
    else if undoBlocks s h (lowLine line) then s.putFlag SPL_STAT.UNDOWAIT true
    else (sectorsHome s line (agentOwner s agent line) c.copy .none).setL2 agent line { c with dirty := 0 }

/-- SHARED_WRITE_THROUGH (R321). -/
def execSharedWriteThrough (agent line : Nat) (s : State) : Host.Outcome State Fault Refusal :=
  .next (doSharedWriteThrough agent line s)

/-! ### Range operations, cache disable, counters (R160, R161, R163, R174) -/

/-- Lines of a triad's L2 in a range. -/
def linesIn (s : State) (t base n : Nat) : List Nat :=
  ((s.l2.filter (fun e => e.1 / 2 ^ 44 == t && base ≤ e.1 % 2 ^ 44 && e.1 % 2 ^ 44 < base + n)).map (fun e => e.1 % 2 ^ 44))

/-- A line cleaned, and under FLUSH then invalidated. -/
def rangeLine (s : State) (t : Nat) (flush : Bool) (line : Nat) : State :=
  let s := cleanCopy s t line
  if flush then dirForget (dropLine (knotsMet s t line true slip.CAPACITY none) t line false) line t else s

/-- A write of CRD_RNGCTL: with GO the range operation starts, unless one runs. -/
def rangeWrite (s : State) (t : Nat) (v : Word) : State :=
  let off := CRD_RNGCTL.off t
  if s.flag (CRD_RNGCTL.BUSY t) ∧ bitAt v.toNat 63 then s
  else
    let go : Bool := bitAt (taken s off v) 63
    let s := hostWrite s off v
    let op := s.get (CRD_RNGCTL.OP t)
    let n := s.get (CRD_RNGCTL.LINES t)
    if !go ∨ op = 0 ∨ n = 0 then s
    else
      (linesIn s t (s.get (CRD_RNGBASE.BASE t)) n).foldl (fun s l => rangeLine s t (op == 2) l)
        (s.putFlag (CRD_RNGCTL.BUSY t) true)

/-- RANGE_CLEAN (R161). -/
def execRangeClean (t : Nat) (v : Word) (s : State) : Host.Outcome State Fault Refusal :=
  .next (if t < 48 then rangeWrite s t v else s)

/-- RANGE_FLUSH (R161): invalidation by range. -/
def execRangeFlush (t : Nat) (v : Word) (s : State) : Host.Outcome State Fault Refusal :=
  .next (if t < 48 then rangeWrite s t v else s)

/-- RANGE_OP_DONE (R161): every writeback is acknowledged. -/
def execRangeOpDone (t : Nat) (s : State) : Host.Outcome State Fault Refusal :=
  .next (if t < 48 then s.putFlag (CRD_RNGCTL.BUSY t) false else s)

/-- CACHE_DISABLE (R163): the caches keep their lines, which the homes go on snooping. -/
def execCacheDisable (t : Nat) (v : Word) (s : State) : Host.Outcome State Fault Refusal :=
  .next (if t < 48 then hostWrite s (CRD_CTL.off t) v else s)

/-- CRD_LOCKINV_READ (R160). -/
def execCrdLockinvRead (t : Nat) (s : State) : Host.Outcome State Fault Refusal :=
  .next (if t < 48 then hostRead s (CRD_LOCKINV.off t) else s)

/-- COH_CNT_READ (R174). -/
def execCohCntRead (h : Nat) (s : State) : Host.Outcome State Fault Refusal :=
  .next (if h < 32 then hostRead s (COH_CNT.off h) else s)

end Sys2Proof.Machine
end

