-- ==== Sys2Proof/Machine/Compare.lean ====
section
/-! DEFINITION. Compares, major 0x07 (R85). -/

namespace Sys2Proof.Machine

/-- CMP (R85): FLAGS as SUB. -/
def doCmp (a : Agent) (f : FO) : State → State :=
  runInsn a (.cmp a f) f.cond .U .runs <|
    stackOp a 2 2 0 fun k ins =>
      .ok { vals := [], upd := fun c => c.setFl (subRes k.fl (inp ins 1) (inp ins 0) true).fl, next := none }

/-- CMP (R85). -/
def execCmp (a : Agent) (f : FO) (s : State) : Host.Outcome State Fault Refusal := .next (doCmp a f s)

/-- TST (R85): N and Z as AND. -/
def doTst (a : Agent) (f : FO) : State → State :=
  runInsn a (.tst a f) f.cond .U .runs <|
    stackOp a 2 2 0 fun k ins =>
      .ok { vals := [], upd := fun c => c.setFl (k.fl.nz (inp ins 1 &&& inp ins 0)), next := none }

/-- TST (R85). -/
def execTst (a : Agent) (f : FO) (s : State) : Host.Outcome State Fault Refusal := .next (doTst a f s)

/-- CMPI (R85): FLAGS as SUB of a and sext(OPND). -/
def doCmpi (a : Agent) (f : FO) : State → State :=
  runInsn a (.cmpi a f) f.cond .U .runs <|
    stackOp a 1 1 0 fun k ins =>
      .ok { vals := [], upd := fun c => c.setFl (subRes k.fl (inp ins 0) (sextOpnd f) true).fl, next := none }

/-- CMPI (R85). -/
def execCmpi (a : Agent) (f : FO) (s : State) : Host.Outcome State Fault Refusal := .next (doCmpi a f s)

/-- SETF (R85): 1 when the condition in OPND[2:0] holds, else 0. -/
def doSetf (a : Agent) (f : FO) : State → State :=
  runInsn a (.setf a f) f.cond .U .runs <|
    stackOp a 0 0 1 fun k _ =>
      .ok (Out.push [if condHolds k.fl (f.opnd.setWidth 3) then 1 else 0])

/-- SETF (R85). -/
def execSetf (a : Agent) (f : FO) (s : State) : Host.Outcome State Fault Refusal := .next (doSetf a f s)

end Sys2Proof.Machine
end

