-- ==== Sys2Proof/Machine/Float.lean ====
section
/-! DEFINITION. IEEE 754-2019 arithmetic of R104 to R111 on exact integers: an operand is decoded to sign, mantissa
and exponent, the exact result is formed, and one rounding narrows it. -/

namespace Sys2Proof.Machine

/-- A binary format: precision p with the hidden bit, and the exponent of the smallest subnormal's unit. -/
structure Fmt where
  p : Nat
  ebits : Nat
  deriving DecidableEq, Repr

def Fmt.b32 : Fmt := { p := 24, ebits := 8 }
def Fmt.b64 : Fmt := { p := 53, ebits := 11 }

/-- The format P selects (R89). -/
def Fmt.of (p : Bool) : Fmt := if p then .b64 else .b32

def Fmt.bias (f : Fmt) : Nat := 2 ^ (f.ebits - 1) - 1
/-- The exponent of the unit of subnormals. -/
def Fmt.qmin (f : Fmt) : Int := 2 - (f.bias : Int) - f.p
/-- The encoding of infinity without its sign. -/
def Fmt.inf (f : Fmt) : Nat := (2 ^ f.ebits - 1) * 2 ^ (f.p - 1)
def Fmt.signBit (f : Fmt) : Nat := 2 ^ (f.ebits + f.p - 1)
def Fmt.quiet (f : Fmt) : Nat := 2 ^ (f.p - 2)
/-- The default NaN (R109). -/
def Fmt.nan (f : Fmt) : Nat := f.inf + f.quiet

/-- Rounding modes (R89). -/
inductive RM where
  | RNE | RTZ | RUP | RDN | RMM
  deriving DecidableEq, Repr

/-- The mode of a code 0 to 4. -/
def RM.ofCode : Nat → RM
  | 0 => .RNE
  | 1 => .RTZ
  | 2 => .RUP
  | 3 => .RDN
  | _ => .RMM

/-- Flags in the order of FCSR [12:8]: NX 1, UF 2, OF 4, DZ 8, NV 16. -/
def fl.NX : Nat := 1
def fl.UF : Nat := 2
def fl.OF : Nat := 4
def fl.DZ : Nat := 8
def fl.NV : Nat := 16

/-- A decoded operand; `fin` is m × 2^e with a sign. -/
inductive FVal where
  | nan (bits : Nat)
  | inf (neg : Bool)
  | fin (neg : Bool) (m : Nat) (e : Int)
  deriving DecidableEq, Repr

/-- The operand of a format in the low bits of an entry (R104). -/
def Fmt.trim (f : Fmt) (x : Nat) : Nat := x % 2 ^ (f.ebits + f.p)

def Fmt.decode (f : Fmt) (x : Nat) : FVal :=
  let x := f.trim x
  let neg := f.signBit ≤ x
  let mag := x % f.signBit
  let ex := mag / 2 ^ (f.p - 1)
  let fr := mag % 2 ^ (f.p - 1)
  if mag > f.inf then .nan x
  else if mag = f.inf then .inf neg
  else if ex = 0 then .fin neg fr f.qmin
  else .fin neg (fr + 2 ^ (f.p - 1)) (f.qmin + (ex - 1 : Nat))

/-- A signalling NaN: the quiet bit is 0. -/
def Fmt.isSNaN (f : Fmt) (x : Nat) : Bool := f.trim x % f.signBit > f.inf && f.trim x / f.quiet % 2 == 0

def Fmt.isNaN (f : Fmt) (x : Nat) : Bool := f.trim x % f.signBit > f.inf

/-- A NaN with its quiet bit set (R109). -/
def Fmt.quieted (f : Fmt) (x : Nat) : Nat := if f.trim x / f.quiet % 2 = 0 then f.trim x + f.quiet else f.trim x

def Fmt.signOf (f : Fmt) (neg : Bool) : Nat := if neg then f.signBit else 0

/-- The number of bits of n. -/
def bitLen (n : Nat) : Nat := if n = 0 then 0 else Nat.log2 n + 1

/-- Whether rounding goes away from zero: `rem` of `den` is cut off, with a sticky rest. -/
def roundsUp (rm : RM) (neg odd : Bool) (rem den : Nat) (sticky : Bool) : Bool :=
  let inexact := rem ≠ 0 || sticky
  match rm with
  | .RNE => den < 2 * rem || (2 * rem == den && (sticky || odd))
  | .RTZ => false
  | .RUP => inexact && !neg
  | .RDN => inexact && neg
  | .RMM => inexact && den ≤ 2 * rem

/-- m × 2^e (plus a sticky rest below m's last bit) rounded to a multiple of 2^q; true when inexact. -/
def roundAt (rm : RM) (neg : Bool) (m : Nat) (e q : Int) (sticky : Bool) : Nat × Bool :=
  if q ≤ e then (m * 2 ^ (e - q).toNat + (if roundsUp rm neg (m % 2 == 1) 0 1 sticky then 1 else 0), sticky)
  else
    let d := (q - e).toNat
    let n := m / 2 ^ d
    let r := m % 2 ^ d
    (n + (if roundsUp rm neg (n % 2 == 1) r (2 ^ d) sticky then 1 else 0), r ≠ 0 || sticky)

/-- The overflow result without its sign (R108). -/
def Fmt.overflow (f : Fmt) (rm : RM) (neg : Bool) : Nat :=
  match rm with
  | .RNE => f.inf
  | .RMM => f.inf
  | .RTZ => f.inf - 1
  | .RUP => if neg then f.inf - 1 else f.inf
  | .RDN => if neg then f.inf else f.inf - 1

/-- One rounding of an exact result to the format, with its flags (R105, R106, R108). A sticky rest needs a mantissa
of more bits than the precision. -/
def Fmt.round (f : Fmt) (rm : RM) (neg : Bool) (m : Nat) (e : Int) (sticky : Bool) : Nat × Nat :=
  if m = 0 then (f.signOf neg, 0)
  else
    let top := e + (bitLen m : Int) - 1
    let qU := top - (f.p : Int) + 1
    let q := max qU f.qmin
    let r := roundAt rm neg m e q sticky
    let mag := (q - f.qmin).toNat * 2 ^ (f.p - 1) + r.1
    if f.inf ≤ mag then (f.signOf neg + f.overflow rm neg, fl.OF + fl.NX)
    else
      let rU := roundAt rm neg m e qU sticky
      let tiny := (bitLen rU.1 : Int) + qU ≤ f.qmin + (f.p : Int) - 1
      (f.signOf neg + mag, if r.2 then fl.NX + (if tiny then fl.UF else 0) else 0)

/-- The result of an operation with a NaN operand that has no other reason for NV: the first NaN operand, quieted; NV
when an operand signals (R108, R109; log 20). -/
def Fmt.nanResult (f : Fmt) (ops : List Nat) : Option (Nat × Nat) :=
  match ops.find? (fun x => f.isNaN x) with
  | none => none
  | some x => some (f.quieted x, if ops.any (fun y => f.isSNaN y) then fl.NV else 0)

def Fmt.invalid (f : Fmt) : Nat × Nat := (f.nan, fl.NV)

/-- A finite value as a signed integer at exponent q ≤ e. -/
def signedAt (neg : Bool) (m : Nat) (e q : Int) : Int :=
  let n : Int := (m * 2 ^ (e - q).toNat : Nat)
  if neg then -n else n

/-- The sum of two finite values, rounded once; exact zero sums under R109. -/
def Fmt.sumFin (f : Fmt) (rm : RM) (na : Bool) (ma : Nat) (ea : Int) (nb : Bool) (mb : Nat) (eb : Int) : Nat × Nat :=
  if ma = 0 ∧ mb = 0 then
    (f.signOf (if na = nb then na else rm = .RDN), 0)
  else
    let q := min ea eb
    let t := signedAt na ma ea q + signedAt nb mb eb q
    if t = 0 then (f.signOf (rm = .RDN), 0) else f.round rm (t < 0) t.natAbs q false

def Fmt.add (f : Fmt) (rm : RM) (a b : Nat) : Nat × Nat :=
  match f.nanResult [a, b] with
  | some r => r
  | none =>
    match f.decode a, f.decode b with
    | .inf na, .inf nb => if na = nb then (f.signOf na + f.inf, 0) else f.invalid
    | .inf na, _ => (f.signOf na + f.inf, 0)
    | _, .inf nb => (f.signOf nb + f.inf, 0)
    | .fin na ma ea, .fin nb mb eb => f.sumFin rm na ma ea nb mb eb
    | _, _ => f.invalid

/-- An operand with its sign changed, NaNs as they are. -/
def Fmt.minus (f : Fmt) (x : Nat) : Nat :=
  let x := f.trim x
  if f.signBit ≤ x then x - f.signBit else x + f.signBit

def Fmt.sub (f : Fmt) (rm : RM) (a b : Nat) : Nat × Nat :=
  match f.nanResult [a, b] with
  | some r => r
  | none => f.add rm a (f.minus b)

def Fmt.mul (f : Fmt) (rm : RM) (a b : Nat) : Nat × Nat :=
  match f.nanResult [a, b] with
  | some r => r
  | none =>
    match f.decode a, f.decode b with
    | .inf na, .inf nb => (f.signOf (na != nb) + f.inf, 0)
    | .inf na, .fin nb mb _ => if mb = 0 then f.invalid else (f.signOf (na != nb) + f.inf, 0)
    | .fin na ma _, .inf nb => if ma = 0 then f.invalid else (f.signOf (na != nb) + f.inf, 0)
    | .fin na ma ea, .fin nb mb eb => f.round rm (na != nb) (ma * mb) (ea + eb) false
    | _, _ => f.invalid

def Fmt.div (f : Fmt) (rm : RM) (a b : Nat) : Nat × Nat :=
  match f.nanResult [a, b] with
  | some r => r
  | none =>
    match f.decode a, f.decode b with
    | .inf _, .inf _ => f.invalid
    | .inf na, .fin nb _ _ => (f.signOf (na != nb) + f.inf, 0)
    | .fin na _ _, .inf nb => (f.signOf (na != nb), 0)
    | .fin na ma ea, .fin nb mb eb =>
      if mb = 0 then (if ma = 0 then f.invalid else (f.signOf (na != nb) + f.inf, fl.DZ))
      else
        let k := f.p + 4 + bitLen mb
        let n := ma * 2 ^ k
        f.round rm (na != nb) (n / mb) (ea - eb - (k : Int)) (n % mb ≠ 0)
    | _, _ => f.invalid

/-- The integer square root: trial bits from bit k - 1 down, r the root so far. -/
def isqrt (n : Nat) : Nat → Nat → Nat
  | 0, r => r
  | k + 1, r => if (r + 2 ^ k) * (r + 2 ^ k) ≤ n then isqrt n k (r + 2 ^ k) else isqrt n k r

def Fmt.sqrt (f : Fmt) (rm : RM) (a : Nat) : Nat × Nat :=
  match f.nanResult [a] with
  | some r => r
  | none =>
    match f.decode a with
    | .inf na => if na then f.invalid else (f.inf, 0)
    | .fin na m e =>
      if m = 0 then (f.signOf na, 0)
      else if na then f.invalid
      else
        let k := 2 * f.p + 8 + (e % 2).toNat
        let n := m * 2 ^ k
        let r := isqrt n (bitLen n / 2 + 1) 0
        f.round rm false r ((e - (k : Int)) / 2) (r * r ≠ n)
    | _ => f.invalid

/-- a × b + c, or −(a × b) + c, rounded once (R106). 0 × ∞ is invalid even with a NaN c (R109). -/
def Fmt.fma (f : Fmt) (rm : RM) (negate : Bool) (a b c : Nat) : Nat × Nat :=
  let da := f.decode a
  let db := f.decode b
  let zeroInf :=
    match da, db with
    | .inf _, .fin _ m _ => m == 0
    | .fin _ m _, .inf _ => m == 0
    | _, _ => false
  if zeroInf then f.invalid
  else
    match f.nanResult [a, b, c] with
    | some r => r
    | none =>
      let dc := f.decode c
      let addInf (n : Bool) : Nat × Nat :=
        match dc with
        | .inf nc => if nc = n then (f.signOf n + f.inf, 0) else f.invalid
        | _ => (f.signOf n + f.inf, 0)
      match da, db with
      | .inf na, .inf nb => addInf ((na != nb) != negate)
      | .inf na, .fin nb _ _ => addInf ((na != nb) != negate)
      | .fin na _ _, .inf nb => addInf ((na != nb) != negate)
      | .fin na ma ea, .fin nb mb eb =>
        match dc with
        | .inf nc => (f.signOf nc + f.inf, 0)
        | .fin nc mc ec => f.sumFin rm ((na != nb) != negate) (ma * mb) (ea + eb) nc mc ec
        | _ => f.invalid
      | _, _ => f.invalid

/-- The relation of two operands (R111). -/
inductive FRel where
  | less | equal | greater | unordered
  deriving DecidableEq, Repr

def FVal.sgn (neg : Bool) (m : Nat) : Int := if m = 0 then 0 else if neg then -1 else 1

/-- The order key of an operand that is no NaN: its magnitude's encoding is monotone. -/
def Fmt.key (f : Fmt) (x : Nat) : Int :=
  let x := f.trim x
  if f.signBit ≤ x then -((x - f.signBit : Nat) : Int) else (x : Int)

def Fmt.rel (f : Fmt) (a b : Nat) : FRel :=
  if f.isNaN a || f.isNaN b then .unordered
  else if f.key a < f.key b then .less
  else if f.key a = f.key b then .equal
  else .greater

/-- minimumNumber and maximumNumber (R110); −0 ranks below +0. -/
def Fmt.minmax (f : Fmt) (max : Bool) (a b : Nat) : Nat × Nat :=
  let fl := if f.isSNaN a || f.isSNaN b then fl.NV else 0
  if f.isNaN a && f.isNaN b then (f.nan, fl)
  else if f.isNaN a then (f.trim b, fl)
  else if f.isNaN b then (f.trim a, fl)
  else
    let aLess := f.key a < f.key b || (f.key a == f.key b && f.signBit ≤ f.trim a)
    (if aLess != max then f.trim a else f.trim b, fl)

/-- A finite value rounded to an integer: magnitude, sign kept; true when inexact. -/
def roundInt (rm : RM) (neg : Bool) (m : Nat) (e : Int) : Nat × Bool := roundAt rm neg m e 0 false

/-- F2I and F2U (R110). -/
def Fmt.toInt (f : Fmt) (rm : RM) (signed : Bool) (a : Nat) : Nat × Nat :=
  let top := if signed then 2 ^ 63 - 1 else 2 ^ 64 - 1
  let bottom := if signed then 2 ^ 63 else 0
  match f.decode a with
  | .nan _ => (0, fl.NV)
  | .inf neg => (if neg then bottom else top, fl.NV)
  | .fin neg m e =>
    let r := roundInt rm neg m e
    let nx := if r.2 then fl.NX else 0
    if neg then
      if r.1 = 0 then (0, nx)
      else if signed ∧ r.1 ≤ 2 ^ 63 then (2 ^ 64 - r.1, nx)
      else (bottom, fl.NV)
    else if r.1 ≤ top then (r.1, nx)
    else (top, fl.NV)

/-- I2F and U2F. -/
def Fmt.ofInt (f : Fmt) (rm : RM) (signed : Bool) (x : Nat) : Nat × Nat :=
  if signed ∧ 2 ^ 63 ≤ x then f.round rm true (2 ^ 64 - x) 0 false else f.round rm false x 0 false

/-- roundToIntegralExact (R110). -/
def Fmt.rint (f : Fmt) (rm : RM) (a : Nat) : Nat × Nat :=
  match f.nanResult [a] with
  | some r => r
  | none =>
    match f.decode a with
    | .fin neg m e =>
      if 0 ≤ e then (f.trim a, 0)
      else
        let r := roundInt rm neg m e
        ((f.round .RTZ neg r.1 0 false).1, if r.2 then fl.NX else 0)
    | _ => (f.trim a, 0)

/-- FCVT: widening with P = 1, narrowing with P = 0 (R109, R110). -/
def fcvt (rm : RM) (widen : Bool) (a : Nat) : Nat × Nat :=
  let f := if widen then Fmt.b32 else Fmt.b64
  let g := if widen then Fmt.b64 else Fmt.b32
  match f.decode a with
  | .nan x =>
    let x := f.quieted x
    let sign := g.signOf (f.signBit ≤ x)
    let pay := x % 2 ^ (f.p - 1)
    let pay := if widen then pay * 2 ^ 29 else pay / 2 ^ 29
    (sign + g.inf + pay, if f.isSNaN a then fl.NV else 0)
  | .inf neg => (g.signOf neg + g.inf, 0)
  | .fin neg m e => g.round rm neg m e false

/-- The mask of FCLASS (R111). -/
def Fmt.classMask (f : Fmt) (a : Nat) : Nat :=
  let x := f.trim a
  let mag := x % f.signBit
  let neg := f.signBit ≤ x
  if mag > f.inf then (if f.isSNaN a then 2 ^ 8 else 2 ^ 9)
  else if mag = f.inf then (if neg then 2 ^ 0 else 2 ^ 7)
  else if mag = 0 then (if neg then 2 ^ 3 else 2 ^ 4)
  else if mag < 2 ^ (f.p - 1) then (if neg then 2 ^ 2 else 2 ^ 5)
  else (if neg then 2 ^ 1 else 2 ^ 6)

end Sys2Proof.Machine
end

