-- ==== Sys2Proof/Machine/FloatOps.lean ====
section
/-! DEFINITION. Floating point, majors 0x10 to 0x13 (R89, R104 to R112). -/

namespace Sys2Proof.Machine

/-- The rounding mode of an instruction: RM, or FCSR.RMODE when RM is 0b101 (R89). -/
def roundMode (f : FF) (k : Core) : RM := RM.ofCode (if f.rm = 5 then bits k.fcsr.toNat 0 3 else f.rm.toNat)

/-- An operation on n operands, the deepest first, that pushes a result and raises flags (R104, R108). -/
def fpOp (a : Agent) (f : FF) (n : Nat) (op : RM → List Nat → Nat × Nat) : InsnWord → State → State × Got Done :=
  stackOp a n n 1 fun k ins =>
    let r := op (roundMode f k) (ins.reverse.map BitVec.toNat)
    .ok { vals := [BitVec.ofNat 64 r.1], upd := fun k => k.raiseFp r.2, next := none }

/-- Operand i of an operation. -/
def arg (xs : List Nat) (i : Nat) : Nat := xs.getD i 0

/-- FLAGS after a compare (R111). -/
def FRel.flags : FRel → Flags
  | .less => { n := true, z := false, c := false, v := false }
  | .equal => { n := false, z := true, c := true, v := false }
  | .greater => { n := false, z := false, c := true, v := false }
  | .unordered => { n := false, z := false, c := true, v := true }

/-- A compare: FCMPE signals on any NaN, FCMP on a signalling one (R111). -/
def fpCompare (a : Agent) (f : FF) (any : Bool) : InsnWord → State → State × Got Done :=
  stackOp a 2 2 0 fun _ ins =>
    let g := Fmt.of f.p
    let x := (inp ins 1).toNat
    let y := (inp ins 0).toNat
    let nv : Bool := if any then g.isNaN x || g.isNaN y else g.isSNaN x || g.isSNaN y
    .ok { vals := [], upd := fun k => (k.setFl (g.rel x y).flags).raiseFp (if nv then fl.NV else 0), next := none }

/-- FADD (R106): a + b. -/
def doFadd (a : Agent) (f : FF) : State → State :=
  runInsn a (.fadd a f) f.cond .U .runs <|
    fpOp a f 2 fun m x => (Fmt.of f.p).add m (arg x 0) (arg x 1)

/-- FADD (R106). -/
def execFadd (a : Agent) (f : FF) (s : State) : Host.Outcome State Fault Refusal := .next (doFadd a f s)

/-- FSUB (R106): a − b. -/
def doFsub (a : Agent) (f : FF) : State → State :=
  runInsn a (.fsub a f) f.cond .U .runs <|
    fpOp a f 2 fun m x => (Fmt.of f.p).sub m (arg x 0) (arg x 1)

/-- FSUB (R106). -/
def execFsub (a : Agent) (f : FF) (s : State) : Host.Outcome State Fault Refusal := .next (doFsub a f s)

/-- FMUL (R106): a × b. -/
def doFmul (a : Agent) (f : FF) : State → State :=
  runInsn a (.fmul a f) f.cond .U .runs <|
    fpOp a f 2 fun m x => (Fmt.of f.p).mul m (arg x 0) (arg x 1)

/-- FMUL (R106). -/
def execFmul (a : Agent) (f : FF) (s : State) : Host.Outcome State Fault Refusal := .next (doFmul a f s)

/-- FDIV (R106): a ÷ b. -/
def doFdiv (a : Agent) (f : FF) : State → State :=
  runInsn a (.fdiv a f) f.cond .U .runs <|
    fpOp a f 2 fun m x => (Fmt.of f.p).div m (arg x 0) (arg x 1)

/-- FDIV (R106). -/
def execFdiv (a : Agent) (f : FF) (s : State) : Host.Outcome State Fault Refusal := .next (doFdiv a f s)

/-- FSQRT (R106): √a. -/
def doFsqrt (a : Agent) (f : FF) : State → State :=
  runInsn a (.fsqrt a f) f.cond .U .runs <|
    fpOp a f 1 fun m x => (Fmt.of f.p).sqrt m (arg x 0)

/-- FSQRT (R106). -/
def execFsqrt (a : Agent) (f : FF) (s : State) : Host.Outcome State Fault Refusal := .next (doFsqrt a f s)

/-- FMA (R106): a × b + c. -/
def doFma (a : Agent) (f : FF) : State → State :=
  runInsn a (.fma a f) f.cond .U .runs <|
    fpOp a f 3 fun m x => (Fmt.of f.p).fma m false (arg x 0) (arg x 1) (arg x 2)

/-- FMA (R106). -/
def execFma (a : Agent) (f : FF) (s : State) : Host.Outcome State Fault Refusal := .next (doFma a f s)

/-- FNMA (R106): −(a × b) + c. -/
def doFnma (a : Agent) (f : FF) : State → State :=
  runInsn a (.fnma a f) f.cond .U .runs <|
    fpOp a f 3 fun m x => (Fmt.of f.p).fma m true (arg x 0) (arg x 1) (arg x 2)

/-- FNMA (R106). -/
def execFnma (a : Agent) (f : FF) (s : State) : Host.Outcome State Fault Refusal := .next (doFnma a f s)

/-- FMIN (R110): minimumNumber. -/
def doFmin (a : Agent) (f : FF) : State → State :=
  runInsn a (.fmin a f) f.cond .U .runs <|
    fpOp a f 2 fun _ x => (Fmt.of f.p).minmax false (arg x 0) (arg x 1)

/-- FMIN (R110). -/
def execFmin (a : Agent) (f : FF) (s : State) : Host.Outcome State Fault Refusal := .next (doFmin a f s)

/-- FMAX (R110): maximumNumber. -/
def doFmax (a : Agent) (f : FF) : State → State :=
  runInsn a (.fmax a f) f.cond .U .runs <|
    fpOp a f 2 fun _ x => (Fmt.of f.p).minmax true (arg x 0) (arg x 1)

/-- FMAX (R110). -/
def execFmax (a : Agent) (f : FF) (s : State) : Host.Outcome State Fault Refusal := .next (doFmax a f s)

/-- FNEG (R110): the sign bit flipped. -/
def doFneg (a : Agent) (f : FF) : State → State :=
  runInsn a (.fneg a f) f.cond .U .runs <|
    fpOp a f 1 fun _ x => ((Fmt.of f.p).minus (arg x 0), 0)

/-- FNEG (R110). -/
def execFneg (a : Agent) (f : FF) (s : State) : Host.Outcome State Fault Refusal := .next (doFneg a f s)

/-- FABS (R110): the sign bit cleared. -/
def doFabs (a : Agent) (f : FF) : State → State :=
  runInsn a (.fabs a f) f.cond .U .runs <|
    fpOp a f 1 fun _ x => ((Fmt.of f.p).trim (arg x 0) % (Fmt.of f.p).signBit, 0)

/-- FABS (R110). -/
def execFabs (a : Agent) (f : FF) (s : State) : Host.Outcome State Fault Refusal := .next (doFabs a f s)

/-- FCPYS (R110): the magnitude of a with the sign of b. -/
def doFcpys (a : Agent) (f : FF) : State → State :=
  runInsn a (.fcpys a f) f.cond .U .runs <|
    fpOp a f 2 fun _ x => ((Fmt.of f.p).trim (arg x 0) % (Fmt.of f.p).signBit + (Fmt.of f.p).trim (arg x 1) / (Fmt.of f.p).signBit * (Fmt.of f.p).signBit, 0)

/-- FCPYS (R110). -/
def execFcpys (a : Agent) (f : FF) (s : State) : Host.Outcome State Fault Refusal := .next (doFcpys a f s)

/-- F2I (R110): a as a signed integer. -/
def doF2i (a : Agent) (f : FF) : State → State :=
  runInsn a (.f2i a f) f.cond .U .runs <|
    fpOp a f 1 fun m x => (Fmt.of f.p).toInt m true (arg x 0)

/-- F2I (R110). -/
def execF2i (a : Agent) (f : FF) (s : State) : Host.Outcome State Fault Refusal := .next (doF2i a f s)

/-- F2U (R110): a as an unsigned integer. -/
def doF2u (a : Agent) (f : FF) : State → State :=
  runInsn a (.f2u a f) f.cond .U .runs <|
    fpOp a f 1 fun m x => (Fmt.of f.p).toInt m false (arg x 0)

/-- F2U (R110). -/
def execF2u (a : Agent) (f : FF) (s : State) : Host.Outcome State Fault Refusal := .next (doF2u a f s)

/-- I2F (R106): a signed integer in format P. -/
def doI2f (a : Agent) (f : FF) : State → State :=
  runInsn a (.i2f a f) f.cond .U .runs <|
    fpOp a f 1 fun m x => (Fmt.of f.p).ofInt m true (arg x 0)

/-- I2F (R106). -/
def execI2f (a : Agent) (f : FF) (s : State) : Host.Outcome State Fault Refusal := .next (doI2f a f s)

/-- U2F (R106): an unsigned integer in format P. -/
def doU2f (a : Agent) (f : FF) : State → State :=
  runInsn a (.u2f a f) f.cond .U .runs <|
    fpOp a f 1 fun m x => (Fmt.of f.p).ofInt m false (arg x 0)

/-- U2F (R106). -/
def execU2f (a : Agent) (f : FF) (s : State) : Host.Outcome State Fault Refusal := .next (doU2f a f s)

/-- FCVT (R110): widening with P = 1, narrowing with P = 0. -/
def doFcvt (a : Agent) (f : FF) : State → State :=
  runInsn a (.fcvt a f) f.cond .U .runs <|
    fpOp a f 1 fun m x => fcvt m f.p (arg x 0)

/-- FCVT (R110). -/
def execFcvt (a : Agent) (f : FF) (s : State) : Host.Outcome State Fault Refusal := .next (doFcvt a f s)

/-- FRINT (R110): an integral value. -/
def doFrint (a : Agent) (f : FF) : State → State :=
  runInsn a (.frint a f) f.cond .U .runs <|
    fpOp a f 1 fun m x => (Fmt.of f.p).rint m (arg x 0)

/-- FRINT (R110). -/
def execFrint (a : Agent) (f : FF) (s : State) : Host.Outcome State Fault Refusal := .next (doFrint a f s)

/-- FCMP (R111): a quiet compare. -/
def doFcmp (a : Agent) (f : FF) : State → State :=
  runInsn a (.fcmp a f) f.cond .U .runs <|
    fpCompare a f false

/-- FCMP (R111). -/
def execFcmp (a : Agent) (f : FF) (s : State) : Host.Outcome State Fault Refusal := .next (doFcmp a f s)

/-- FCMPE (R111): a compare that signals on any NaN. -/
def doFcmpe (a : Agent) (f : FF) : State → State :=
  runInsn a (.fcmpe a f) f.cond .U .runs <|
    fpCompare a f true

/-- FCMPE (R111). -/
def execFcmpe (a : Agent) (f : FF) (s : State) : Host.Outcome State Fault Refusal := .next (doFcmpe a f s)

/-- FCLASS (R111): the class mask. -/
def doFclass (a : Agent) (f : FF) : State → State :=
  runInsn a (.fclass a f) f.cond .U .runs <|
    stackOp a 1 1 1 fun _ ins => .ok (Out.push [BitVec.ofNat 64 ((Fmt.of f.p).classMask (inp ins 0).toNat)])

/-- FCLASS (R111). -/
def execFclass (a : Agent) (f : FF) (s : State) : Host.Outcome State Fault Refusal := .next (doFclass a f s)

end Sys2Proof.Machine
end

