-- ==== Sys2Proof/Machine/Sec.lean ====
section
/-! DEFINITION. Access control: the SEC commands, their passwords, challenges and the zeroize (R374 to R379). -/

namespace Sys2Proof.Machine

def secres.OK : Nat := 0
def secres.BAD_AUTH : Nat := 1
def secres.TENANTS_ACTIVE : Nat := 2
def secres.LOCKED_OUT : Nat := 3
def secres.NO_PASSWORD : Nat := 4
def secres.NO_CHALLENGE : Nat := 5
def secres.WRONG_STATE : Nat := 6

def access.SEALED : Nat := 0
def access.OWNER_OPEN : Nat := 1
def access.FACTORY : Nat := 2

/-- A command of SEC_CMD ends with a result, and SEC_AUTH is zeroed. -/
def secEnd (s : State) (r : Nat) : State :=
  (List.range 12).foldl (fun s j => s.put (SEC_AUTH.AUTH j) 0) (s.put SEC_STAT.RESULT r)

/-- Words j < n of SEC_AUTH. -/
def authWords (s : State) (n : Nat) : List Word := (List.range n).map (fun j => BitVec.ofNat 64 (s.rd (SEC_AUTH.off j)))

/-! ### Zeroizing (R378) -/

/-- An engine ring enabled for a VI of a tenant other than 0x000. -/
def tenantRing (s : State) (e r : Nat) : Bool :=
  bitAt (s.rd (engBase e + 0x1000 + r * 0x10)) 0 && decide (s.viTenant (bits (s.rd (engBase e + 0x1000 + r * 0x10)) 16 12) ≠ 0)

/-- A tenant other than 0x000 is active: assigned a cord, or with an enabled VI or engine ring. -/
def tenantsActive (s : State) : Bool :=
  (List.range s.cordCount).any (fun c => s.assigned c && decide (s.tenantOf c ≠ 0))
    || (enabledVis s).any (fun v => decide (s.viTenant v ≠ 0))
    || (List.range 8).any (fun e => (List.range 64).any (tenantRing s e))

/-- The erasure of keys: memory key slots 1 to 1,023, every cipher key slot, and a new wrap key. Jobs that hold a slot lose it
(R294). -/
def eraseKeys (s : State) : State :=
  let gone (j : Job) : Job := { j with revoked := true }
  let s := (List.range 4).foldl (fun s e => s.modEng e (fun g => { g with
    job := g.job.map gone, susp := g.susp.map (fun (x : Nat × Job) => (x.1, gone x.2)) })) s
  let s := s.eng.keyVer.foldl (fun s e => s.put (CIP_KS_CFG.STATE e.1) ks.EMPTY) s
  drawWrap { s with
    keys := s.keys.filter (fun (e : Nat × KeySlot) => e.1 == 0)
    eng := { s.eng with keyVer := [] } }

/-- Regions of tenants other than 0x000 disabled in all 32 controllers. -/
def disableRegions (s : State) : State :=
  (List.range 32).foldl (fun s h => (List.range 64).foldl (fun s r =>
    if s.get (MEM_RGN_LO.OWNER h r) ≠ 0 ∧ s.flag (MEM_RGN_LO.EN h r) then s.putFlag (MEM_RGN_LO.EN h r) false else s) s) s

/-- The event queues of tenants other than 0x000 cleared. -/
def clearQueues (s : State) : State :=
  let s := { s with chs := { s.chs with evqs := s.chs.evqs.filter (fun (e : Nat × Evq) => e.1 < 128) } }
  (List.range Config.cords).foldl (fun s c => if s.get (CHS_EVQ.USED c) = evqUsed s c then s else evqUpdateUsed s c) s

/-- The six steps of R378; writes that wait and the merge buffers are made before their keys go. -/
def zeroize (s : State) : State :=
  let s := (List.range Config.homes).foldl (fun s h => closeMerges (drainWrites s h) h) (emptyCaches s)
  let s := clearQueues { s with chs := { s.chs with dc := [], grants := [] } }
  (disableRegions (eraseKeys s)).putFlag SEC_STAT.REPROV true

/-- A command that zeroizes before access opens; with tenants active it changes nothing. -/
def secOpen (s : State) (go : State → State) : State :=
  if tenantsActive s then secEnd s secres.TENANTS_ACTIVE else secEnd (go (zeroize s)) secres.OK

/-! ### Commands of SEC_CMD (R375 to R377) -/

/-- The hash of a password after its salt (R375). -/
def secHash (salt : Nat) (s : State) : Nat := Config.sha384 (bytesOf salt 16 ++ bytesOfWords (authWords s 4))

/-- OWNER_OPEN: lockout, then the password, then the zeroize. FACTORY access is left only by a cold reset (DEDUCED, log 42). -/
def secOwnerOpen (s : State) : State :=
  if s.sec.gen = 0 then secEnd s secres.NO_PASSWORD
  else if s.flag SEC_STAT.LOCKOUT then secEnd s secres.LOCKED_OUT
  else if secHash s.sec.salt s ≠ s.sec.hash then
    let s := s.put SEC_STAT.FAILS (min (s.get SEC_STAT.FAILS + 1) 16)
    let s := s.putFlag SEC_STAT.LOCKOUT (s.get SEC_STAT.FAILS == 16)
    secEnd { s with sec := { s.sec with delayed := true } } secres.BAD_AUTH
  else secOpen s (fun s => if s.get SEC_STAT.ACCESS = access.FACTORY then s else s.put SEC_STAT.ACCESS access.OWNER_OPEN)

/-- A challenge no longer valid. -/
def challengeGone (s : State) : State :=
  let s := (List.range 4).foldl (fun s j => s.put (SEC_CHAL.CHAL j) 0) (s.putFlag SEC_STAT.CHALV false)
  { s with sec := { s.sec with chal := [] } }

/-- CHALLENGE: 32 bytes of the random source. -/
def secChallenge (s : State) : State :=
  let (s, ws) := freeWords s 4
  let s := ws.zipIdx.foldl (fun (s : State) (x : Word × Nat) => s.put (SEC_CHAL.CHAL x.2) x.1.toNat) s
  secEnd ({ s with sec := { s.sec with chal := ws } }.putFlag SEC_STAT.CHALV true) secres.OK

/-- FACTORY: the signature over the challenge, which it uses up whatever the outcome. -/
def secFactory (s : State) : State :=
  if !s.flag SEC_STAT.CHALV then secEnd s secres.NO_CHALLENGE
  else
    let good := Config.ecdsaP384 Config.debugKey s.sec.chal (authWords s 12)
    let s := challengeGone s
    if !good then secEnd s secres.BAD_AUTH
    else secOpen s (fun s => (s.put SEC_STAT.ACCESS access.FACTORY).put PWR_MODSTAT.LIFE life.FACTORY)

/-- SEAL: access returns from OWNER_OPEN to SEALED. -/
def secSeal (s : State) : State :=
  if s.get SEC_STAT.ACCESS = access.OWNER_OPEN then secEnd (s.put SEC_STAT.ACCESS access.SEALED) secres.OK
  else secEnd s secres.WRONG_STATE

/-- SET_PASSWORD: a salt is drawn, and salt and hash are fused as the next generation. -/
def secSetPassword (s : State) : State :=
  if s.sec.gen = 4 ∨ (s.sec.gen ≠ 0 ∧ s.get SEC_STAT.ACCESS ≠ access.OWNER_OPEN) then secEnd s secres.WRONG_STATE
  else
    let salt := s.freeVal.toNat + s.drew.freeVal.toNat * 2 ^ 64
    let s := s.drew.drew
    secEnd { s with sec := { s.sec with gen := s.sec.gen + 1, salt := salt, hash := secHash salt s } } secres.OK

/-- A command of SEC_CMD; `window` says that it comes from the control window. For 1 s after a mismatch every command is refused
with its result (R376); over I3C SET_PASSWORD has no effect (R375). -/
def secCommand (s : State) (op : Nat) (window : Bool) : State :=
  if s.flag SEC_STAT.BUSY ∨ op = 0 ∨ 5 < op ∨ (op = 5 ∧ !window) then s
  else if s.sec.delayed then secEnd s secres.BAD_AUTH
  else if op = 1 then secOwnerOpen s
  else if op = 2 then secChallenge s
  else if op = 3 then secFactory s
  else if op = 4 then secSeal s
  else secSetPassword s

/-- A write of SEC_CMD. -/
def secWrite (s : State) (v : Word) (window : Bool) : State :=
  secCommand (hostWrite s SEC_CMD.off v) (taken s SEC_CMD.off v) window

/-- OWNER_OPEN (R376). -/
def execOwnerOpen (s : State) : Host.Outcome State Fault Refusal := .next (secCommand s 1 true)

/-- CHALLENGE (R377). -/
def execChallenge (s : State) : Host.Outcome State Fault Refusal := .next (secCommand s 2 true)

/-- FACTORY (R377). -/
def execFactory (s : State) : Host.Outcome State Fault Refusal := .next (secCommand s 3 true)

/-- SEAL (R374). -/
def execSeal (s : State) : Host.Outcome State Fault Refusal := .next (secCommand s 4 true)

/-- SET_PASSWORD (R375). -/
def execSetPassword (s : State) : Host.Outcome State Fault Refusal := .next (secCommand s 5 true)

/-- CHALLENGE_EXPIRY (R377): 60 s have passed. -/
def execChallengeExpiry (s : State) : Host.Outcome State Fault Refusal :=
  .next (if s.flag SEC_STAT.CHALV then challengeGone s else s)

/-- AUTH_DELAY_EXPIRY (R376): 1 s has passed since the mismatch. -/
def execAuthDelayExpiry (s : State) : Host.Outcome State Fault Refusal :=
  .next { s with sec := { s.sec with delayed := false } }

end Sys2Proof.Machine
end

