-- ==== Sys2Proof/Machine/TriRows.lean ====
section
/-! DEFINITION. Commands of the triads and of the reassignment flush (R27, R31, R45 to R63, R419). -/

namespace Sys2Proof.Machine

/-! ### The reassignment flush (R27, R31, R419) -/

/-- FLUSH_STORE_BUFFER_MOVE (R419). -/
def execFlushStoreBufferMove (c : Nat) (s : State) : Host.Outcome State Fault Refusal := .next (flushStep s c 0)

/-- FLUSH_DIRTY_WRITTEN (R27). -/
def execFlushDirtyWritten (c : Nat) (s : State) : Host.Outcome State Fault Refusal := .next (flushStep s c 1)

/-- FLUSH_CACHES_INVALIDATED (R27). -/
def execFlushCachesInvalidated (c : Nat) (s : State) : Host.Outcome State Fault Refusal := .next (flushStep s c 2)

/-- FLUSH_INCOMING_LOADED (R27). -/
def execFlushIncomingLoaded (c : Nat) (s : State) : Host.Outcome State Fault Refusal := .next (orWait (fun s => flushStep s c 3) s)

/-- FLUSH_RELEASE (R27). -/
def execFlushRelease (c : Nat) (s : State) : Host.Outcome State Fault Refusal := .next (flushStep s c 4)

/-- RESERVE_LINE_DRAIN (R31). -/
def execReserveLineDrain (tile claim : Nat) (s : State) : Host.Outcome State Fault Refusal :=
  .next (reserveDrain s tile claim)

/-! ### Triads -/

/-- RETIRE_GROUP_VOTE (R45). -/
def execRetireGroupVote (t : Nat) (cmp : Comparison) (s : State) : Host.Outcome State Fault Refusal :=
  .next (if t < 48 then vote s t cmp else s)

/-- RESYNC_RESTART (R46). -/
def execResyncRestart (t : Nat) (s : State) : Host.Outcome State Fault Refusal :=
  .next (if t < 48 then resyncRestart s t else s)

/-- CONTEXT_SAVE_TIMEOUT (R418): a save whose acknowledgement at an address of the slot is missing is incomplete; CTXV of a
halted cord reads 0. -/
def doContextSaveTimeout (c addr : Nat) (s : State) : State :=
  let t := s.triadOf c
  let k := s.shareOf c
  if s.cordCount ≤ c then s
  else
    let s := if s.flag (TRI_STAT.halt t k) then s.putFlag (TRI_STAT.ctxv t k) false else s
    saveFailed s t addr

/-- CONTEXT_SAVE_TIMEOUT (R418). -/
def execContextSaveTimeout (c addr : Nat) (s : State) : Host.Outcome State Fault Refusal :=
  .next (doContextSaveTimeout c addr s)

/-- STRAND_CHECK_ERROR (R51). -/
def execStrandCheckError (t : Nat) (e : StrandError) (s : State) : Host.Outcome State Fault Refusal :=
  .next (strandCheck s t e)

/-- MIGRATION_SPARE_ON (R53). -/
def execMigrationSpareOn (t : Nat) (s : State) : Host.Outcome State Fault Refusal := .next (migSpareOn s t)

/-- MIGRATION_STATE_COPIED (R53). -/
def execMigrationStateCopied (t : Nat) (s : State) : Host.Outcome State Fault Refusal := .next (migCopied s t)

/-- MIGRATION_COMPLETE (R53). -/
def execMigrationComplete (t : Nat) (s : State) : Host.Outcome State Fault Refusal := .next (migComplete s t)

/-- TRI_RESUME (R57). -/
def execTriResume (t : Nat) (v : Word) (s : State) : Host.Outcome State Fault Refusal :=
  .next (if t < 48 then triResume s t v else s)

/-- VOTER_SELF_TEST_DONE (R60). -/
def execVoterSelfTestDone (t : Nat) (bad : List LaneFail) (s : State) : Host.Outcome State Fault Refusal :=
  .next (selfTestDone s t bad)

/-- TRI_CNT_READ (R63). -/
def execTriCntRead (t : Nat) (s : State) : Host.Outcome State Fault Refusal :=
  .next (if t < 48 then hostRead s (TRI_CNT.off t) else s)

end Sys2Proof.Machine
end

