-- ==== Sys2Proof/Machine/RegWrite.lean ====
section
/-! DEFINITION. A write of any control-window register, and the I3C target (R6 to R12, R207, R373). -/

namespace Sys2Proof.Machine

/-! ### A write of a register (R9 to R12) -/

/-- What BIND meets when nothing tells: free values. -/
def freeProbe (s : State) : State × BindProbe :=
  let w := s.freeVal.toNat
  (s.drew, { answers := bitAt w 0, active := bitAt w 1, formatOk := bitAt w 2, blkLog2 := bits w 8 8, mdts := bits w 16 16 })

/-- A write of CHS_SCCMD: the command that OP names. -/
def scCommand (s : State) (v : Word) : State :=
  let op := bits (taken s CHS_SCCMD.off v) 16 3
  if op = 1 then scWrite s v 1 scReadGo
  else if op = 2 then
    let (s, probe) := freeProbe s
    scWrite s v 2 (scBindGo probe)
  else if op = 3 then scWrite s v 3 scUnbindGo
  else if op = 4 then scWrite s v 4 scHaltGo
  else if op = 5 then scWrite s v 5 scClearhaltGo
  else hostWrite s CHS_SCCMD.off v

/-- A write into a doorbell page, which is open to its VI's tenant and to H (R207). -/
def pageWrite (s : State) (w : Who) (off : Nat) (v : Word) : State :=
  let vi := (off - 0x8000000) / 0x1000
  let o := off % 0x1000
  if !pageOpen s vi w then s
  else if o < 0x400 ∧ o % 0x10 = 0 then doViDoorbell vi (o / 0x10) v w s
  else hostWrite s off v

/-- A write of a register of the blocks below CHS. -/
def lowWrite (s : State) (b k : Nat) (off : Nat) (v : Word) : State :=
  if b = LOOM_COMMIT.off then loomCommit s v
  else if b = FCU_REC.off then fcuRecWrite s v
  else if b = FCU_INJ.off then injWrite s v
  else if b = PWR_PADREL.off then doPadRelease v s
  else if b = PWR_MODCMD.off then doLifecycleRetain v s
  else if b = PWR_WAKE.off then (if bitAt (taken s off v) 0 then doRetainWake [] s else s)
  else if b = PWR_DOM.off 0 then doDomainRequest k v s
  else if b = SEC_CMD.off then secWrite s v true
  else if b = RPL_CMD.off then rplCmdWrite s v
  else if b = SPL_ADMIT.off then admitWrite s v
  else if off = SPL_NONCE.off 3 then nonceWrite s v
  else if b = SPL_CTL.off then splCtlWrite s v
  else if b = SPL_LEAVE.off then leaveWrite s v
  else if b = TRI_CTL.off 0 then triResume s k v
  else if b = CRD_RNGCTL.off 0 then rangeWrite s k v
  else if b = MEM_KEYCMD.off then keyCommand s v
  else hostWrite s off v

/-- A write of a register of the channel subsystem, the ports or the engines. -/
def highWrite (s : State) (b k j : Nat) (off : Nat) (v : Word) : State :=
  if b = CHS_CFG.off then chsCfgWrite v s
  else if b = CHS_DCINV.off then doDcInvalidate v s
  else if b = CHS_SCCMD.off then scCommand s v
  else if b = CHS_EVQ.off 0 then evqWrite k v s
  else if b = CHS_VI_CFG.off 0 then viCfgWrite k v s
  else if b = CHP_CTL.off 0 then portCtl k v s
  else if b = CIP_RING_CFG.off 0 0 then ringCfgWrite s k j v
  else if b = CMP_RING_CFG.off 0 0 then ringCfgWrite s (4 + k) j v
  else if b = CIP_KSCMD.off then ksCommand s v
  else if b = CIP_KS_CFG.off 0 then doKeyslotGrantWrite k v s
  else hostWrite s off v

/-- A write of any register but MOD_RST. An unassigned offset ignores it (R6). -/
def plainWrite (s : State) (w : Who) (off : Nat) (v : Word) : State :=
  if (pageVi off).isSome then pageWrite s w off v
  else
    match rowAt off with
    | none => s
    | some r =>
      let k := (off - r.base) / r.s1
      let j := (off - r.base) % r.s1 / r.s2
      if r.base < CHS_CFG.off then lowWrite s r.base k off v else highWrite s r.base k j off v

/-- What a warm reset meets when no command says it: free values, and the PROF pins as they are. -/
def freeReset (s : State) : State × ResetInputs :=
  let w := s.freeVal.toNat
  let bad := (List.range Config.domains).filter (fun d => bitAt (Config.freeWord (s.free + 1 + d)).toNat 0)
  ({ s with free := s.free + 1 + Config.domains },
    { copyOk := bitAt w 0, prof := s.pins.prof, claim := bitAt w 1, badSeals := bad })

/-- A write of MOD_RST (R360). -/
def resetWrite (s : State) (v : Word) : State :=
  let op := taken s MOD_RST.off v
  if op = 1 then
    let (s, r) := freeReset s
    warmAsk plainWrite s kind.WARM r false
  else if op = 2 then coldNow s kind.COLD 0
  else hostWrite s MOD_RST.off v

/-- A write of any control-window register, by host software, or by tenant software in a doorbell page. -/
def regWrite : RegWriter := fun s w off v => if off = MOD_RST.off then resetWrite s v else plainWrite s w off v

/-- The host, as it writes a register. -/
def host : Who := { level := .H, tenant := 0 }

/-- REGISTER_WRITE (R11, R12): the writes of one fclk. A refusal wins over a write of MOD_CFGERR beside it, which therefore comes
first. -/
def doRegisterWrite (off : Nat) (v : Word) (same : List RegWrite) (s : State) : State :=
  let all : List RegWrite := { off := off, v := v } :: same
  let go (s : State) (x : RegWrite) : State := regWrite s host x.off x.v
  (all.filter (fun x => x.off ≠ MOD_CFGERR.off)).foldl go ((all.filter (fun x => x.off = MOD_CFGERR.off)).foldl go s)

/-- REGISTER_WRITE (R11). -/
def execRegisterWrite (off : Nat) (v : Word) (same : List RegWrite) (s : State) : Host.Outcome State Fault Refusal :=
  .next (doRegisterWrite off v same s)

/-! ### Reset commands (R360) -/

/-- WARM_RESET (R360): RESET_n low. -/
def execWarmReset (low : Nat) (r : ResetInputs) (s : State) : Host.Outcome State Fault Refusal :=
  .next (warmPin plainWrite s low r)

/-- MOD_RST_WARM (R360): a write of MOD_RST with OP WARM. -/
def execModRstWarm (v : Word) (r : ResetInputs) (s : State) : Host.Outcome State Fault Refusal :=
  .next (if taken s MOD_RST.off v = 1 then warmAsk plainWrite s kind.WARM r false else s)

/-- MOD_RST_COLD (R360): a write of MOD_RST with OP COLD. -/
def execModRstCold (v : Word) (s : State) : Host.Outcome State Fault Refusal :=
  .next (if taken s MOD_RST.off v = 2 then coldNow s kind.COLD 0 else s)

/-! ### The I3C target (R373) -/

/-- A register that I3C reaches. -/
def i3cReaches (off : Nat) : Bool :=
  [0x0, 0x8, 0x10, PROF_SEL.off, BOOT_CAUSE.off, MOD_BOOTSTAT.off, FCU_REC.off, FCU_RECTIME.off, PWR_MODSTAT.off, PWR_WAKE.off].contains off
    || (0x400000 ≤ off && off < 0x500000)

/-- The standing registers (R373), which answer in every lifecycle state. -/
def standing (off : Nat) : Bool := off == PROF_SEL.off || off == BOOT_CAUSE.off || off == PWR_WAKE.off

/-- The boot has not passed the profile step. -/
def beforeProfile (s : State) : Bool :=
  match s.boot.stage with
  | .off => true
  | .railWait => true
  | .image => true
  | .profile => true
  | .stuck => true
  | _ => false

/-- A register answers over I3C now. -/
def i3cAnswers (s : State) (off : Nat) : Bool :=
  i3cReaches off && (standing off
    || !(s.lifecycle == life.RETAIN || s.lifecycle == life.STANDBY || (s.lifecycle == life.BOOT && beforeProfile s)))

/-- I3C_ENTDAA (R373): a target without a dynamic address takes one. -/
def execI3cEntdaa (addr : BitVec 7) (s : State) : Host.Outcome State Fault Refusal :=
  .next (if s.i3c.addr.isSome then s else { s with i3c := { s.i3c with addr := some addr } })

/-- I3C_READ (R373): the word that the next private read returns. -/
def doI3cRead (off : Nat) (s : State) : State :=
  if s.i3c.addr.isNone then s
  else
    let s := { s with i3c := { s.i3c with read := some off } }
    if i3cAnswers s off then hostRead s off else { s with resp := [0] }

/-- I3C_READ (R373). -/
def execI3cRead (off : Nat) (s : State) : Host.Outcome State Fault Refusal := .next (doI3cRead off s)

/-- I3C_WRITE (R373). -/
def doI3cWrite (off : Nat) (v : Word) (s : State) : State :=
  if s.i3c.addr.isNone ∨ !i3cAnswers s off then s
  else if off = SEC_CMD.off then secWrite s v false
  else plainWrite s host off v

/-- I3C_WRITE (R373). -/
def execI3cWrite (off : Nat) (v : Word) (s : State) : Host.Outcome State Fault Refusal := .next (doI3cWrite off v s)

/-- I3C_WARM_RESET (R373). -/
def execI3cWarmReset (r : ResetInputs) (s : State) : Host.Outcome State Fault Refusal :=
  .next (if s.i3c.addr.isNone then s else warmAsk plainWrite s kind.WARM r false)

/-- I3C_COLD_RESET (R373). -/
def execI3cColdReset (s : State) : Host.Outcome State Fault Refusal :=
  .next (if s.i3c.addr.isNone then s else coldNow s kind.COLD 0)

end Sys2Proof.Machine
end

