-- ==== Sys2Proof/Machine/StoreRows.lean ====
section
/-! DEFINITION. Commands by which stores leave their buffers (R53, R137, R138, R142, R419). -/

namespace Sys2Proof.Machine

/-- BARRIER_RETIRE (R138): the barrier retires once the stores that it covers are performed. -/
def execBarrierRetire (c : Nat) (s : State) : Host.Outcome State Fault Refusal :=
  .next (doBarrierRetire c (drainCord regWrite s c))

/-- CINCH_COMMIT (R142): the knot's stores are performed once the earlier ones are. -/
def execCinchCommit (c : Nat) (s : State) : Host.Outcome State Fault Refusal :=
  .next (doCinchCommit c (drainCord regWrite s c))

/-- STORE_BOUNCE_TIMEOUT (R137). -/
def execStoreBounceTimeout (c : Nat) (s : State) : Host.Outcome State Fault Refusal := .next (bounceTimeout s c)

/-- RESERVE_STORE_PERFORM (R419). -/
def execReserveStorePerform (tile claim : Nat) (s : State) : Host.Outcome State Fault Refusal :=
  .next (reserveStore regWrite s tile claim)

/-- MIGRATION_STORES_DRAINED (R53). -/
def execMigrationStoresDrained (t : Nat) (bad : List Nat) (s : State) : Host.Outcome State Fault Refusal :=
  .next (if t < 48 then migDrained regWrite s t bad else s)

end Sys2Proof.Machine
end

