-- ==== Sys2Proof/Machine/LoomRows.lean ====
section
/-! DEFINITION. Commands of the Loom: beats, picks, minutes, PICKSYNC, the commit and waiting requests (R13 to R35). -/

namespace Sys2Proof.Machine

/-! ### Beats (R13, R23, R33, R197, R323, R383) -/

/-- Time has come to an rclk. -/
def State.reach (s : State) (t : Nat) : State := { s with time := { s.time with now := max s.time.now t } }

/-- A beat has begun: Shuttles that stopped at a beat's end go on, frames and data that waited are sent, staged records leave. -/
def beatGo (s : State) : State :=
  let s := beatStart s
  let s := { s with chs := { s.chs with shuts := s.chs.shuts.map (fun (e : Nat × Shut) => (e.1, { e.2 with saved := false })) } }
  let s := outsGo ((List.range Config.ports).foldl portGo s)
  if rplBeat s then rplDrain s s.rpl.staged.length else s

/-- The house beat's work, in its order (R23): the fold, the checkpoint, the scrub. Refresh has no effect on state. -/
def houseBeat (s : State) (h : HouseInputs) : State :=
  scrubAll (houseSplice (stageLending (fold (countBeat s Config.houseBeat))) h)

/-- BEAT_BOUNDARY (R13): a beat other than the last ends. In RETAIN only the Loom's counter runs (R347). -/
def doBeatBoundary (h : HouseInputs) (s : State) : State :=
  if !s.time.loom ∨ s.stopped ∨ s.beat = Config.houseBeat then s
  else
    let b := s.beat
    let s := flushesDue (closeRuns s) (Config.rclkPerBeat * (b + 1))
    let s := s.reach (s.time.pickStart + Config.rclkPerBeat * (b + 1))
    if s.pwr.retained then s.put LOOM_PICK.BEAT (b + 1)
    else
      let s := (countBeat s b).put LOOM_PICK.BEAT (b + 1)
      beatGo (if b + 1 = Config.houseBeat then houseBeat s h else s)

/-- BEAT_BOUNDARY (R13). -/
def execBeatBoundary (h : HouseInputs) (s : State) : Host.Outcome State Fault Refusal := .next (doBeatBoundary h s)

/-! ### Picks (R14, R15, R21, R57, R331, R347, R353, R382) -/

/-- The protected cords of a takeover are released, and the module is in RUN (R331). -/
def takeoverRelease (s : State) : State :=
  if !s.spl.release then s
  else
    let s := (List.range s.cordCount).foldl (fun s c =>
      if s.assigned c ∧ protectedTenant s (s.tenantOf c) ∧ (s.cord c).run = .stopped
        ∧ !s.flag (TRI_STAT.halt (s.triadOf c) (s.shareOf c)) then releaseCord s c
      else s) s
    let s := (s.put PWR_MODSTAT.LIFE life.RUN).put SPL_STAT.STATE spst.ACTIVE
    { s with spl := { s.spl with release := false } }

/-- The pulse that this module drives at a boundary (R14, R15). -/
def pulseOut (s : State) (minute : Bool) : State :=
  { s with pins := { s.pins with picksync := if s.role = 1 ∧ s.lifecycle ≠ life.STANDBY then (if minute then 12 else 4) else 0 } }

/-- The work of a boundary once PICK has counted on. -/
def pickWork (s : State) : State :=
  let s := commitApply s
  let s := (List.range Config.triads).foldl resumeApply s
  let s := retainRelease (retainStop (applyPins s))
  let s := takeoverRelease (halvingsTick s)
  rplBegin { s with spl := { s.spl with heard := false, checked := false } }

/-- SYNCLOST that stood for one pick ends with it (R17). -/
def lostPickEnds (s : State) : State :=
  if s.loom.lostPick then
    { s.putFlag LOOM_SYNC.SYNCLOST (!s.flag LOOM_SYNC.SOURCE) with loom := { s.loom with lostPick := false } }
  else s

/-- A pick ends and the next begins at rclk `at_`; `count` moves PICK. In RETAIN only the counter runs (R348). -/
def pickTurn (s : State) (at_ : Nat) (count : State → State) : State :=
  let turn (s : State) : State :=
    let s := (count (lostPickEnds s)).put LOOM_PICK.BEAT 0
    { s.reach at_ with time := { (s.reach at_).time with pickStart := at_ }, loom := { s.loom with edge := false, seen := false } }
  if s.pwr.retained then turn s else beatGo (pickWork (turn (rplEnd s)))

/-- The own count's boundary: PICK counts on, and at a multiple of 468,750 a minute boundary is to be made. A worker with
SOURCE 1 leaves the multiple to the manager's pulse (R17). -/
def ownCount (s : State) : State :=
  if minuteNext s then
    if s.role = 2 ∧ s.flag LOOM_SYNC.SOURCE then s
    else
      let s := pickNext s
      { s with loom := { s.loom with minuteDue := true } }
  else pickNext s

/-- The own count makes a boundary: with SOURCE 1 its edge is missing; without synchronisation one is missing when none has come in the
pick that ends (R17). -/
def edgeMissing (s : State) : State :=
  if s.role ≠ 2 ∨ (!s.flag LOOM_SYNC.SOURCE ∧ s.loom.seen) then s
  else
    let m := !s.loom.edge
    let s := edgeUnused s
    { s with loom := { s.loom with missed := m } }

/-- PICK_BOUNDARY (R13): from the own count. -/
def doPickBoundary (s : State) : State :=
  if !s.time.loom ∨ s.stopped ∨ s.beat ≠ Config.houseBeat then s
  else
    let s := edgeMissing s
    let s := pulseOut s (minuteNext s)
    pickTurn s (s.time.pickStart + Config.rclkPerPick) ownCount

/-- PICK_BOUNDARY (R13). -/
def execPickBoundary (s : State) : Host.Outcome State Fault Refusal := .next (doPickBoundary s)

/-- MINUTE_BOUNDARY (R33, R416): follows its pick boundary, or the classification of a minute pulse. -/
def doMinuteBoundary (age : List Nat) (s : State) : State :=
  if !s.loom.minuteDue ∨ s.stopped then s
  else if s.pwr.retained then minuteSwap s
  else ageCheck (minuteSwap s) age

/-- MINUTE_BOUNDARY (R33). -/
def execMinuteBoundary (age : List Nat) (s : State) : Host.Outcome State Fault Refusal := .next (doMinuteBoundary age s)

/-! ### PICKSYNC_IN (R17, R316) -/

/-- The edge that was accepted and whose pulse's class was not wanted stays accepted. -/
def edgeSettle (s : State) : State :=
  if s.loom.syncEdge.isSome then
    let s := edgeAccepted s
    { s with loom := { s.loom with syncEdge := none } }
  else s

/-- The first edge after an admission or a checkpoint load: PICK is taken, and picks begin. -/
def edgeAdmit (s : State) (p : Nat) : State :=
  let s := loomStart { s with loom := { s.loom with admitPick := none } } ((p + 1) % 2 ^ 48)
  if s.spl.loaded.isSome then takeoverRelease s else releaseBoot s

/-- An rclk moved by a deviation. -/
def shiftBy (t : Nat) (dev : Int) : Nat := ((t : Int) + dev).toNat

/-- An edge within 1 rclk: it is the boundary, or with SOURCE 0 it realigns the own count. -/
def edgeTake (s : State) (dev : Int) : State :=
  let slip : Bool := dev != 0 && decide (s.get LOOM_SYNC.SLIPCNT < 255)
  let s := if dev = 0 then s else s.bump LOOM_SYNC.SLIPCNT 1
  let s := { s with loom := { s.loom with slipped := slip, seen := true } }
  if s.flag LOOM_SYNC.SOURCE then
    if s.beat ≠ Config.houseBeat then s
    else
      let held := minuteNext s
      let s := pickTurn s (shiftBy (s.time.pickStart + Config.rclkPerPick) dev) pickNext
      { s with loom := { s.loom with syncEdge := some (dev, held) } }
  else
    let start := shiftBy s.time.pickStart dev
    let s := s.reach start
    { s with time := { s.time with pickStart := start }, loom := { s.loom with syncEdge := some (dev, false) } }

/-- An edge that is not used: a late one whose pick has begun without it has been counted as missing already. -/
def edgeRefused (s : State) (dev : Int) : State :=
  let s := { s with loom := { s.loom with seen := true } }
  if 0 < dev ∧ s.loom.missed then { s with loom := { s.loom with missed := false } } else edgeUnused s

/-- PICKSYNC_IN_EDGE (R15, R17): an edge at the pin `raw` rclk off the rclk of the own count's boundary; LOOM_SYNC.DELAY delays it. -/
def doPicksyncInEdge (raw : Int) (s : State) : State :=
  let delay := s.get LOOM_SYNC.DELAY
  let dev := raw + delay
  if s.role ≠ 2 ∨ s.stopped then s
  else
    match s.loom.admitPick with
    | some p => edgeAdmit (s.reach (s.time.now + delay)) p
    | none =>
      if !s.time.loom then s
      else if dev.natAbs ≤ 1 then
        (if s.flag LOOM_SYNC.SOURCE ∧ s.beat ≠ Config.houseBeat then s else edgeTake (edgeSettle s) dev)
      else edgeRefused (edgeSettle s) dev

/-- PICKSYNC_IN_EDGE (R17). -/
def execPicksyncInEdge (dev : Int) (s : State) : Host.Outcome State Fault Refusal := .next (doPicksyncInEdge dev s)

/-- A minute pulse: the minute boundary is made here, with PICK at a multiple of 468,750. -/
def minutePulse (s : State) (held : Bool) : State :=
  let s := if held then s else lostOnePick (s.put LOOM_PICK.PICK (minuteAbove s))
  { s with loom := { s.loom with minuteDue := true } }

/-- A pick pulse: no minute boundary; a count that had reached a multiple keeps its value from before. -/
def pickPulse (s : State) (held : Bool) : State := if held then lostOnePick (pickBack s) else s

/-- A pulse of another width: its edge has not been used, and the count stands as without it. -/
def noPulse (s : State) (dev : Int) (held : Bool) : State :=
  let s := if dev = 0 ∨ !s.loom.slipped then s else s.put LOOM_SYNC.SLIPCNT (s.get LOOM_SYNC.SLIPCNT - 1)
  let s := if held then pickBack s else s
  edgeUnused { s with time := { s.time with pickStart := shiftBy s.time.pickStart (-dev) }, loom := { s.loom with edge := false } }

/-- PICKSYNC_PULSE_CLASSIFIED (R17): the width of the pulse of the latest edge. -/
def doPicksyncPulse (width : Nat) (s : State) : State :=
  match s.loom.syncEdge with
  | none => s
  | some (dev, held) =>
    let source := s.flag LOOM_SYNC.SOURCE
    let s := { s with loom := { s.loom with syncEdge := none } }
    if 2 ≤ width ∧ width ≤ 6 then
      let s := edgeAccepted s
      if source then pickPulse s held else s
    else if 10 ≤ width ∧ width ≤ 14 then
      let s := edgeAccepted s
      if source then minutePulse s held else s
    else noPulse s dev held

/-- PICKSYNC_PULSE_CLASSIFIED (R17). -/
def execPicksyncPulseClassified (width : Nat) (s : State) : Host.Outcome State Fault Refusal := .next (doPicksyncPulse width s)

/-- LOOM_SYNC_READ (R17): reading clears SLIPCNT. -/
def execLoomSyncRead (s : State) : Host.Outcome State Fault Refusal := .next (hostRead s LOOM_SYNC.off)

/-! ### Commit and waiting requests (R21, R24, R25) -/

/-- LOOM_COMMIT (R21). -/
def execLoomCommit (v : Word) (s : State) : Host.Outcome State Fault Refusal := .next (loomCommit s v)

/-- The first entry of a list that satisfies a test marked as issued. -/
def issueFirst (p : Waiting → Bool) : List Waiting → List Waiting
  | [] => []
  | w :: t => if p w then { w with issued := true } :: t else w :: issueFirst p t

/-- A request waits for house and unowned beats only (R155, R419). -/
def Waiting.forHouse (w : Waiting) : Bool :=
  match w.what with
  | .write _ _ _ _ _ house => house
  | _ => false

/-- A waiting request may issue now; in closed weave a part of a sector not once its tenant's entries have closed (R196). -/
def waitingMay (s : State) (w : Waiting) : Bool :=
  match w.what with
  | .write h m _ _ _ house =>
    if house then s.houseOrUnowned w.table
    else s.mayIssue w.table w.tenant && (touched m == covered m
      || !(s.closedWeave && runEnds s (table.mem h) w.tenant && decide (160 ≤ s.since % 200)))
  | _ => s.mayIssue w.table w.tenant

/-- A waiting request issues: a read is taken up by what waits for it, a write is made, a message leaves on its link. -/
def waitingIssue (s : State) (w : Waiting) : State :=
  let s := if w.forHouse then s else s.noteIssue w.table w.tenant
  match w.what with
  | .read => txnsGo { s with loom := { s.loom with waiting := issueFirst (· == w) s.loom.waiting } }
  | .write _ _ _ _ _ _ => txnsGo (waitedWrite s w)
  | .link m => ({ s with loom := { s.loom with waiting := s.loom.waiting.erase w } } : State).sendOn w.tenant m

/-- WAITING_REQUEST_ISSUE (R25): the tenant's oldest waiting request of a table issues in a beat in which it may, else the oldest that
waits for a house or unowned beat. -/
def doWaitingRequestIssue (table tenant : Nat) (s : State) : State :=
  let mine := s.loom.waiting.filter (fun w => w.table == table && w.tenant == tenant && !w.issued)
  let first (p : Waiting → Bool) : Option Waiting :=
    match mine.find? p with
    | some w => if waitingMay s w then some w else none
    | none => none
  if Config.heddleTables ≤ table then s
  else
    match (first (fun w => !w.forHouse)).orElse (fun _ => first Waiting.forHouse) with
    | some w => waitingIssue s w
    | none => s

/-- WAITING_REQUEST_ISSUE (R25). -/
def execWaitingRequestIssue (table tenant : Nat) (s : State) : Host.Outcome State Fault Refusal :=
  .next (doWaitingRequestIssue table tenant s)

end Sys2Proof.Machine
end

