-- ==== Sys2Proof/Machine/MulDiv.lean ====
section
/-! DEFINITION. Multiply and divide, major 0x06 (R101 to R103). -/

namespace Sys2Proof.Machine

/-- a b → r, with DIVZERO when b = 0 (R102); `quiet` gives FLAGS for S = 0. -/
def divOp (a : Agent) (s : Bool) (quiet : Flags → Word → Word → Flags) (op : Flags → Word → Word → Res) :
    InsnWord → State → State × Got Done :=
  stackOp a 2 2 1 fun k ins =>
    let x := inp ins 1
    let y := inp ins 0
    if y = 0 then .trap { cause := trap.DIVZERO, eval := 0 }
    else
      let r := op k.fl x y
      .ok { vals := [r.val], upd := fun k => k.setFl (if s then r.fl else quiet k.fl x y), next := none }

/-- MUL (R101): low 64 bits of a × b. -/
def doMul (a : Agent) (f : FO) : State → State :=
  runInsn a (.mul a f) f.cond .U .runs <|
    binOp a f.s fun fl x y => mulRes fl x y

/-- MUL (R101). -/
def execMul (a : Agent) (f : FO) (s : State) : Host.Outcome State Fault Refusal := .next (doMul a f s)

/-- MULHS (R101): high 64 bits of the signed product. -/
def doMulhs (a : Agent) (f : FO) : State → State :=
  runInsn a (.mulhs a f) f.cond .U .runs <|
    binOp a f.s fun fl x y => plainRes fl (BitVec.ofInt 64 (x.toInt * y.toInt / 2 ^ 64))

/-- MULHS (R101). -/
def execMulhs (a : Agent) (f : FO) (s : State) : Host.Outcome State Fault Refusal := .next (doMulhs a f s)

/-- MULHU (R101): high 64 bits of the unsigned product. -/
def doMulhu (a : Agent) (f : FO) : State → State :=
  runInsn a (.mulhu a f) f.cond .U .runs <|
    binOp a f.s fun fl x y => plainRes fl (BitVec.ofNat 64 (x.toNat * y.toNat / 2 ^ 64))

/-- MULHU (R101). -/
def execMulhu (a : Agent) (f : FO) (s : State) : Host.Outcome State Fault Refusal := .next (doMulhu a f s)

/-- DIVS (R101 to R103): a ÷ b, signed, toward zero; DIVZERO when b = 0. -/
def doDivs (a : Agent) (f : FO) : State → State :=
  runInsn a (.divs a f) f.cond .U .runs <|
    divOp a f.s divsQuiet divsRes

/-- DIVS (R101 to R103). -/
def execDivs (a : Agent) (f : FO) (s : State) : Host.Outcome State Fault Refusal := .next (doDivs a f s)

/-- DIVU (R101, R102): a ÷ b, unsigned; DIVZERO when b = 0. -/
def doDivu (a : Agent) (f : FO) : State → State :=
  runInsn a (.divu a f) f.cond .U .runs <|
    divOp a f.s (fun fl _ _ => fl) (fun fl x y => plainRes fl (BitVec.ofNat 64 (x.toNat / y.toNat)))

/-- DIVU (R101, R102). -/
def execDivu (a : Agent) (f : FO) (s : State) : Host.Outcome State Fault Refusal := .next (doDivu a f s)

/-- REMS (R101 to R103): the signed remainder; DIVZERO when b = 0. -/
def doRems (a : Agent) (f : FO) : State → State :=
  runInsn a (.rems a f) f.cond .U .runs <|
    divOp a f.s (fun fl _ _ => fl) remsRes

/-- REMS (R101 to R103). -/
def execRems (a : Agent) (f : FO) (s : State) : Host.Outcome State Fault Refusal := .next (doRems a f s)

/-- REMU (R101, R102): the unsigned remainder; DIVZERO when b = 0. -/
def doRemu (a : Agent) (f : FO) : State → State :=
  runInsn a (.remu a f) f.cond .U .runs <|
    divOp a f.s (fun fl _ _ => fl) (fun fl x y => plainRes fl (BitVec.ofNat 64 (x.toNat % y.toNat)))

/-- REMU (R101, R102). -/
def execRemu (a : Agent) (f : FO) (s : State) : Host.Outcome State Fault Refusal := .next (doRemu a f s)

end Sys2Proof.Machine
end

