-- ==== Sys2Proof/Machine/Shift.lean ====
section
/-! DEFINITION. Shifts and rotates, major 0x05 (R85). -/

namespace Sys2Proof.Machine

/-- OPND[6] I = 1: a → r with amount OPND[5:0]; I = 0: a n → r with amount n[5:0]. -/
def shiftOp (a : Agent) (f : FO) (op : Flags → Word → Nat → Res) : InsnWord → State → State × Got Done :=
  if f.opnd.getLsbD 6 then
    stackOp a 1 1 1 fun k ins =>
      let r := op k.fl (inp ins 0) (f.opnd.toNat % 64)
      .ok { vals := [r.val], upd := fun k => if f.s then k.setFl r.fl else k, next := none }
  else
    stackOp a 2 2 1 fun k ins =>
      let r := op k.fl (inp ins 1) ((inp ins 0).toNat % 64)
      .ok { vals := [r.val], upd := fun k => if f.s then k.setFl r.fl else k, next := none }

/-- SHL (R85): shift left; C is the last bit shifted out, unchanged for amount 0. -/
def doShl (a : Agent) (f : FO) : State → State :=
  runInsn a (.shl a f) f.cond .U .runs <|
    shiftOp a f fun fl x n => shiftRes fl (x <<< n) n (x.getLsbD (64 - n))

/-- SHL (R85). -/
def execShl (a : Agent) (f : FO) (s : State) : Host.Outcome State Fault Refusal := .next (doShl a f s)

/-- SHR (R85): logical shift right; C is the last bit shifted out, unchanged for amount 0. -/
def doShr (a : Agent) (f : FO) : State → State :=
  runInsn a (.shr a f) f.cond .U .runs <|
    shiftOp a f fun fl x n => shiftRes fl (x >>> n) n (x.getLsbD (n - 1))

/-- SHR (R85). -/
def execShr (a : Agent) (f : FO) (s : State) : Host.Outcome State Fault Refusal := .next (doShr a f s)

/-- SAR (R85): arithmetic shift right; C is the last bit shifted out, unchanged for amount 0. -/
def doSar (a : Agent) (f : FO) : State → State :=
  runInsn a (.sar a f) f.cond .U .runs <|
    shiftOp a f fun fl x n => shiftRes fl (x.sshiftRight n) n (x.getLsbD (n - 1))

/-- SAR (R85). -/
def execSar (a : Agent) (f : FO) (s : State) : Host.Outcome State Fault Refusal := .next (doSar a f s)

/-- ROL (R85): rotate left; C is the last bit shifted out, unchanged for amount 0. -/
def doRol (a : Agent) (f : FO) : State → State :=
  runInsn a (.rol a f) f.cond .U .runs <|
    shiftOp a f fun fl x n => shiftRes fl (x.rotateLeft n) n (x.getLsbD (64 - n))

/-- ROL (R85). -/
def execRol (a : Agent) (f : FO) (s : State) : Host.Outcome State Fault Refusal := .next (doRol a f s)

/-- ROR (R85): rotate right; C is the last bit shifted out, unchanged for amount 0. -/
def doRor (a : Agent) (f : FO) : State → State :=
  runInsn a (.ror a f) f.cond .U .runs <|
    shiftOp a f fun fl x n => shiftRes fl (x.rotateRight n) n (x.getLsbD (n - 1))

/-- ROR (R85). -/
def execRor (a : Agent) (f : FO) (s : State) : Host.Outcome State Fault Refusal := .next (doRor a f s)

end Sys2Proof.Machine
end

