-- ==== Sys2Proof/Machine/Debug.lean ====
section
/-! DEFINITION. Debug commands of the management port (R42, R61, R62, R95, R374). -/

namespace Sys2Proof.Machine

/-- Debug commands are taken: access is OWNER_OPEN or FACTORY (R374). -/
def debugOpen (s : State) (c : Nat) : Bool := decide (1 ≤ s.get SEC_STAT.ACCESS) && decide (c < s.cordCount) && !s.stopped

/-- The cord stands stopped by its debugger. -/
def debugStopped (s : State) (c : Nat) : Bool := debugOpen s c && (s.cord c).run == .debug

/-! ### Halt and resume (R95, R146) -/

/-- A cord stands between two instructions, or in one that a later try starts again: a load from a device and a barrier are over
first, and so is an instruction for which a device has been read. -/
def Run.haltable : Run → Bool
  | .running => true
  | .waitEvent => true
  | .waitTlb => true
  | .waitCinch => true
  | _ => false

/-- DEBUG_HALT (R374): an open knot slips with cause DEBUG, and the stop is taken at the handler (R146). -/
def doDebugHalt (c : Nat) (s : State) : State :=
  if debugOpen s c ∧ (s.cord c).run.haltable ∧ (s.cord c).answers.isEmpty ∧ !(s.cord c).paused then
    (slipCord s c slip.DEBUG 0 0).modCord c (fun k => { k with run := .debug, dbg := true })
  else s

/-- DEBUG_HALT (R374). -/
def execDebugHalt (c : Nat) (s : State) : Host.Outcome State Fault Refusal := .next (doDebugHalt c s)

/-- DEBUG_RESUME (R61). -/
def doDebugResume (c : Nat) (s : State) : State :=
  if debugStopped s c then (s.logDebug c .resume).modCord c (fun k => { k with run := .running, dbg := false }) else s

/-- DEBUG_RESUME (R61). -/
def execDebugResume (c : Nat) (s : State) : Host.Outcome State Fault Refusal := .next (doDebugResume c s)

/-! ### Single step (R62) -/

/-- The meaning of an instruction; other commands are none. -/
def runOne : Instr → State → State
  | .nop a f => doNop a f
  | .waite a f => doWaite a f
  | .rdcr a f => doRdcr a f
  | .wrcr a f => doWrcr a f
  | .tret a f => doTret a f
  | .rdtime a f => doRdtime a f
  | .ssync a f => doSsync a f
  | .evpop a f => doEvpop a f
  | .signal a f => doSignal a f
  | .retg a f => doRetg a f
  | .rdag a f => doRdag a f
  | .wrag a f => doWrag a f
  | .tlbiVa a f => doTlbiVa a f
  | .tlbiAsid a f => doTlbiAsid a f
  | .tlbiS1all a f => doTlbiS1all a f
  | .tlbiIpa a f => doTlbiIpa a f
  | .tlbiTenant a f => doTlbiTenant a f
  | .tlbsync a f => doTlbsync a f
  | .drop a f => doDrop a f
  | .dup a f => doDup a f
  | .swap a f => doSwap a f
  | .over a f => doOver a f
  | .rot a f => doRot a f
  | .nip a f => doNip a f
  | .dupn a f => doDupn a f
  | .xchn a f => doXchn a f
  | .dropn a f => doDropn a f
  | .depth a f => doDepth a f
  | .getsp a f => doGetsp a f
  | .setsp a f => doSetsp a f
  | .push a f => doPush a f
  | .pushh a f => doPushh a f
  | .add a f => doAdd a f
  | .sub a f => doSub a f
  | .adc a f => doAdc a f
  | .sbc a f => doSbc a f
  | .and a f => doAnd a f
  | .or a f => doOr a f
  | .xor a f => doXor a f
  | .andn a f => doAndn a f
  | .not a f => doNot a f
  | .neg a f => doNeg a f
  | .sxb a f => doSxb a f
  | .sxh a f => doSxh a f
  | .sxw a f => doSxw a f
  | .zxw a f => doZxw a f
  | .popc a f => doPopc a f
  | .clz a f => doClz a f
  | .addi a f => doAddi a f
  | .andi a f => doAndi a f
  | .ori a f => doOri a f
  | .xori a f => doXori a f
  | .shl a f => doShl a f
  | .shr a f => doShr a f
  | .sar a f => doSar a f
  | .rol a f => doRol a f
  | .ror a f => doRor a f
  | .mul a f => doMul a f
  | .mulhs a f => doMulhs a f
  | .mulhu a f => doMulhu a f
  | .divs a f => doDivs a f
  | .divu a f => doDivu a f
  | .rems a f => doRems a f
  | .remu a f => doRemu a f
  | .cmp a f => doCmp a f
  | .tst a f => doTst a f
  | .cmpi a f => doCmpi a f
  | .setf a f => doSetf a f
  | .load a f => doLoad a f
  | .store a f => doStore a f
  | .loadReserved a f => doLoadReserved a f
  | .storeConditional a f => doStoreConditional a f
  | .farAtomic a f => doFarAtomic a f
  | .zline a f => doZline a f
  | .clean a f => doClean a f
  | .flush a f => doFlush a f
  | .inval a f => doInval a f
  | .pfr a f => doPfr a f
  | .pfw a f => doPfw a f
  | .icinv a f => doIcinv a f
  | .fadd a f => doFadd a f
  | .fsub a f => doFsub a f
  | .fmul a f => doFmul a f
  | .fdiv a f => doFdiv a f
  | .fsqrt a f => doFsqrt a f
  | .fma a f => doFma a f
  | .fnma a f => doFnma a f
  | .fmin a f => doFmin a f
  | .fmax a f => doFmax a f
  | .fneg a f => doFneg a f
  | .fabs a f => doFabs a f
  | .fcpys a f => doFcpys a f
  | .f2i a f => doF2i a f
  | .f2u a f => doF2u a f
  | .i2f a f => doI2f a f
  | .u2f a f => doU2f a f
  | .fcvt a f => doFcvt a f
  | .frint a f => doFrint a f
  | .fcmp a f => doFcmp a f
  | .fcmpe a f => doFcmpe a f
  | .fclass a f => doFclass a f
  | .b a f => doB a f
  | .call a f => doCall a f
  | .jmp a f => doJmp a f
  | .calli a f => doCalli a f
  | .ret a f => doRet a f
  | .knot a f => doKnot a f
  | .cinch a f => doCinch a f
  | .slip a f => doSlip a f
  | .ktest a f => doKtest a f
  | .lbar a f => doLbar a f
  | .sbar a f => doSbar a f
  | .fbar a f => doFbar a f
  | .fsync a f => doFsync a f
  | .syscall a f => doSyscall a f
  | .gate a f => doGate a f
  | .break a f => doBreak a f
  | _ => id

/-- The word of the instruction at hand: fetched once. -/
def stepWord (s : State) (c : Nat) : State × Got InsnWord :=
  match (s.cord c).answerAt fetchMark with
  | some v => (s, .ok (BitVec.ofNat 32 v))
  | none => fetchWord s c

/-- The instruction at the PC is tried; a breakpoint there comes first, and a fetch that fails traps before any word is looked at. -/
def tryNext (s : State) (c : Nat) : State :=
  let a : Agent := .cord c
  if (s.cord c).brks.any (fun e => e.2 == (s.cord c).pc) then illegalWord a 0 s
  else
    match stepWord s c with
    | (s1, .ok w) =>
      let s1 := s1.modCord c (fun k => k.answered fetchMark w.toNat)
      (match insnOf a w with
        | some i => runOne i s1
        | none => illegalWord a w s1)
    | (s1, .wait) => s1
    | _ => illegalWord a 0 s

/-- One retire group of a cord that its debugger lets run: an FP_IMPRECISE that is due comes first (R95, R113). -/
def stepGo (c : Nat) (s : State) : State :=
  let s := (drainCord regWrite s c).modCord c (fun k => { k with run := .running })
  let s := if (s.cord c).fpDue then doFpImpreciseDelivery c s else orWait (fun s => tryNext s c) s
  s.modCord c (fun k => { k with run := if k.run = .running then k.goes else k.run })

/-- A step has come about: the cord has retired an instruction, taken a trap or slipped. -/
def stepped (k k' : Core) : Bool :=
  k.retire != k'.retire || k.pc != k'.pc || k.lvl != k'.lvl || k.trS != k'.trS || k.trH != k'.trH || k.inKnot != k'.inKnot || k'.run != .debug

/-- DEBUG_STEP (R62): one retire group, logged when it comes about. -/
def doDebugStep (c : Nat) (s : State) : State :=
  if !debugStopped s c then s
  else
    let t := stepGo c s
    if stepped (s.cord c) (t.cord c) then stepGo c (s.logDebug c .step) else t

/-- DEBUG_STEP (R62). -/
def execDebugStep (c : Nat) (s : State) : Host.Outcome State Fault Refusal := .next (doDebugStep c s)

/-! ### State and memory (R61, R62) -/

/-- The control registers of R72. -/
def crExists (n : Nat) : Bool :=
  n < 6 || (0x10 ≤ n && n < 0x13) || (0x14 ≤ n && n < 0x17) || (0x18 ≤ n && n < 0x1B) || (0x20 ≤ n && n < 0x25)
    || (0x28 ≤ n && n < 0x2D) || n == 0x30 || n == 0x31

/-- A control register written as WRCR at level H writes it (R71, R72). PEND bits that a write of FCSR sets count sixteen instructions
from the write on (DESIGN CHOICE, log 40). -/
def debugCr (k : Core) (tenant n : Nat) (v : Word) : Core :=
  if !crExists n ∨ (3 ≤ n ∧ n < 6) ∨ crRefuses n v then k
  else if n = spNumber k.lvl then
    (match newSp k v with
      | .ok x => k.moveSp tenant x
      | _ => k)
  else k.writeCr n v

/-- One piece of architected state written. -/
def debugSet (k : Core) (tenant : Nat) (what : DebugReg) (v : Word) : Core :=
  match what with
  | .pc => { k with pc := keepBits v epcMask }
  | .cr n => debugCr k tenant n v
  | .ag i part => if 8 ≤ i ∨ 4 < part ∨ (part = 4 ∧ 32 < v.toNat) then k else k.setAg i ((k.ag i).setPart part v)
  | .stack i => { k with cache := k.cache.zipIdx.map (fun (e : SEnt × Nat) => if e.2 = i then { e.1 with val := v } else e.1) }
  | .brk i on => { k with brks := if on then mset k.brks i v else mdel k.brks i }
  | .mem _ => k

/-- DEBUG_STATE_WRITE (R61). -/
def doDebugStateWrite (c : Nat) (what : DebugReg) (v : Word) (s : State) : State :=
  if debugStopped s c then (s.logDebug c (.stateWrite what v)).modCord c (fun k => debugSet k (s.tenantOf c) what v) else s

/-- DEBUG_STATE_WRITE (R61). -/
def execDebugStateWrite (c : Nat) (what : DebugReg) (v : Word) (s : State) : Host.Outcome State Fault Refusal :=
  .next (doDebugStateWrite c what v s)

/-- Bytes written through the triad as tenant 0x000's; the L2 invalidates the line in all three L1Ds. Whether the write has been made. -/
def debugStore (s : State) (c : Nat) (e : SbEnt) : State × Bool :=
  let t := s.triadOf c
  let line := normLine s e.pa
  let (s, f) := performEntry regWrite s c e false
  let x := s.l2At t line
  (if f = .done ∧ x.st ≠ .I then s.setL2 t line { x with l1d := 0 } else s, f != .wait)

/-- The store-buffer entries that bytes at an address make: at a device one store of their size, none when they are no aligned access of
1, 2, 4 or 8 bytes (R7; log 14). -/
def debugEntries (s : State) (addr : Nat) (bytes : List Byte) : List SbEnt :=
  let put (k : Core) (a n v : Nat) (at_ : Attr) : Core :=
    k.store { pa := a, va := 0, size := n, val := v, tenant := 0, attr := at_ }
  let n := bytes.length
  if deviceRange s addr then
    (if [1, 2, 4, 8].contains n ∧ addr % n = 0 ∧ !misWindow s addr n then (put { Core.zero with lvl := .H } addr n (ofBytes bytes) .device).sbuf else [])
  else
    (bytes.zipIdx.foldl (fun (k : Core) (x : Byte × Nat) => put k (addr + x.2) 1 x.1.toNat .cached) { Core.zero with lvl := .H }).sbuf

/-- Entries written in order; whether every one has been made. -/
def debugStores (c : Nat) : List SbEnt → State → State × Bool
  | [], s => (s, true)
  | e :: t, s =>
    match debugStore s c e with
    | (s, false) => (s, false)
    | (s, true) => debugStores c t s

/-- DEBUG_MEMORY_WRITE (R62): a write that must wait for a line or a beat is given again. -/
def doDebugMemoryWrite (c addr : Nat) (bytes : List Byte) (s : State) : State :=
  if !debugStopped s c then s
  else
    match debugStores c (debugEntries s addr bytes) s with
    | (s, true) => s.logDebug c (.memoryWrite addr)
    | (s, false) => s

/-- DEBUG_MEMORY_WRITE (R62). -/
def execDebugMemoryWrite (c addr : Nat) (bytes : List Byte) (s : State) : Host.Outcome State Fault Refusal :=
  .next (doDebugMemoryWrite c addr bytes s)

/-- What a read brings: a register's word, an entry of the stack cache, a breakpoint, or eight bytes of memory at tenant 0x000;
nothing where there is none. -/
def debugGet (s : State) (c : Nat) (what : DebugReg) : State × List Word :=
  let k := s.cord c
  match what with
  | .pc => (s, [k.pc])
  | .cr n => (s, if crExists n then [readCr s (.cord c) n] else [])
  | .ag i part => (s, if i < 8 ∧ part < 5 then [(k.ag i).part part] else [])
  | .stack i => (s, (k.cache[i]?).toList.map SEnt.val)
  | .brk i _ => (s, (mget? k.brks i).toList)
  | .mem addr =>
    let (s, b) := readBytes s rplSrc 0 addr 8
    (s, if b.reach = .ok ∧ !b.poison then [BitVec.ofNat 64 b.val] else [])

/-- DEBUG_STATE_READ (R374). -/
def doDebugStateRead (c : Nat) (what : DebugReg) (s : State) : State :=
  if debugOpen s c then
    orWait (fun s =>
      let (s, ws) := debugGet s c what
      { s with resp := ws }) s
  else s

/-- DEBUG_STATE_READ (R374). -/
def execDebugStateRead (c : Nat) (what : DebugReg) (s : State) : Host.Outcome State Fault Refusal := .next (doDebugStateRead c what s)

/-! ### The action log (R61, R374) -/

/-- An action as words: its kind, with the address or the PC it concerns and the value written. -/
def DbgAction.words : DbgAction → List Word
  | .stateWrite _ v => [1, v]
  | .memoryWrite addr => [2, BitVec.ofNat 64 addr]
  | .step => [3, 0]
  | .breakpoint pc => [4, pc]
  | .resume => [5, 0]

/-- DEBUG_LOG_READ (R374): each entry as its retire count, kind and word, oldest first. -/
def execDebugLogRead (t : Nat) (s : State) : Host.Outcome State Fault Refusal :=
  .next (if t < 48 ∧ 1 ≤ s.get SEC_STAT.ACCESS ∧ !s.stopped then
      { s with resp := (s.triad t).log.flatMap (fun (e : Word × DbgAction) => e.1 :: e.2.words) }
    else s)

end Sys2Proof.Machine
end

