-- ==== Sys2Proof/Machine/Dispatch.lean ====
section
/-! DEFINITION. exec: what one command does to the module, everything but the queue of waiting commands. One arm for each
constructor of Instr; each arm is one call of the meaning of its row. -/

namespace Sys2Proof.Machine

def exec (i : Instr) (s : State) : Host.Outcome State Fault Refusal :=
  match i with
  | .registerWrite off v same => Sys2Proof.Machine.execRegisterWrite off v same s
  | .pickBoundary => Sys2Proof.Machine.execPickBoundary s
  | .beatBoundary h => Sys2Proof.Machine.execBeatBoundary h s
  | .minuteBoundary age => Sys2Proof.Machine.execMinuteBoundary age s
  | .picksyncInEdge dev => Sys2Proof.Machine.execPicksyncInEdge dev s
  | .picksyncPulseClassified width => Sys2Proof.Machine.execPicksyncPulseClassified width s
  | .loomSyncRead => Sys2Proof.Machine.execLoomSyncRead s
  | .loomCommit v => Sys2Proof.Machine.execLoomCommit v s
  | .flushStoreBufferMove c => Sys2Proof.Machine.execFlushStoreBufferMove c s
  | .flushDirtyWritten c => Sys2Proof.Machine.execFlushDirtyWritten c s
  | .flushCachesInvalidated c => Sys2Proof.Machine.execFlushCachesInvalidated c s
  | .flushIncomingLoaded c => Sys2Proof.Machine.execFlushIncomingLoaded c s
  | .flushRelease c => Sys2Proof.Machine.execFlushRelease c s
  | .reserveLineDrain tile claim => Sys2Proof.Machine.execReserveLineDrain tile claim s
  | .reserveStorePerform tile claim => Sys2Proof.Machine.execReserveStorePerform tile claim s
  | .waitingRequestIssue table tenant => Sys2Proof.Machine.execWaitingRequestIssue table tenant s
  | .retireGroupVote t cmp => Sys2Proof.Machine.execRetireGroupVote t cmp s
  | .resyncRestart t => Sys2Proof.Machine.execResyncRestart t s
  | .contextSaveTimeout c addr => Sys2Proof.Machine.execContextSaveTimeout c addr s
  | .strandCheckError t e => Sys2Proof.Machine.execStrandCheckError t e s
  | .migrationStoresDrained t bad => Sys2Proof.Machine.execMigrationStoresDrained t bad s
  | .migrationSpareOn t => Sys2Proof.Machine.execMigrationSpareOn t s
  | .migrationStateCopied t => Sys2Proof.Machine.execMigrationStateCopied t s
  | .migrationComplete t => Sys2Proof.Machine.execMigrationComplete t s
  | .triResume t v => Sys2Proof.Machine.execTriResume t v s
  | .voterSelfTestDone t bad => Sys2Proof.Machine.execVoterSelfTestDone t bad s
  | .debugHalt c => Sys2Proof.Machine.execDebugHalt c s
  | .debugResume c => Sys2Proof.Machine.execDebugResume c s
  | .debugStep c => Sys2Proof.Machine.execDebugStep c s
  | .debugStateWrite c what v => Sys2Proof.Machine.execDebugStateWrite c what v s
  | .debugMemoryWrite c addr bytes => Sys2Proof.Machine.execDebugMemoryWrite c addr bytes s
  | .debugStateRead c what => Sys2Proof.Machine.execDebugStateRead c what s
  | .debugLogRead t => Sys2Proof.Machine.execDebugLogRead t s
  | .triCntRead t => Sys2Proof.Machine.execTriCntRead t s
  | .eventTrap c => Sys2Proof.Machine.execEventTrap c s
  | .fpImpreciseDelivery c => Sys2Proof.Machine.execFpImpreciseDelivery c s
  | .nop a f => Sys2Proof.Machine.execNop a f s
  | .waite a f => Sys2Proof.Machine.execWaite a f s
  | .waiteWake c => Sys2Proof.Machine.execWaiteWake c s
  | .rdcr a f => Sys2Proof.Machine.execRdcr a f s
  | .wrcr a f => Sys2Proof.Machine.execWrcr a f s
  | .tret a f => Sys2Proof.Machine.execTret a f s
  | .rdtime a f => Sys2Proof.Machine.execRdtime a f s
  | .ssync a f => Sys2Proof.Machine.execSsync a f s
  | .evpop a f => Sys2Proof.Machine.execEvpop a f s
  | .signal a f => Sys2Proof.Machine.execSignal a f s
  | .retg a f => Sys2Proof.Machine.execRetg a f s
  | .rdag a f => Sys2Proof.Machine.execRdag a f s
  | .wrag a f => Sys2Proof.Machine.execWrag a f s
  | .tlbiVa a f => Sys2Proof.Machine.execTlbiVa a f s
  | .tlbiAsid a f => Sys2Proof.Machine.execTlbiAsid a f s
  | .tlbiS1all a f => Sys2Proof.Machine.execTlbiS1all a f s
  | .tlbiIpa a f => Sys2Proof.Machine.execTlbiIpa a f s
  | .tlbiTenant a f => Sys2Proof.Machine.execTlbiTenant a f s
  | .tlbsync a f => Sys2Proof.Machine.execTlbsync a f s
  | .tlbsyncComplete c => Sys2Proof.Machine.execTlbsyncComplete c s
  | .drop a f => Sys2Proof.Machine.execDrop a f s
  | .dup a f => Sys2Proof.Machine.execDup a f s
  | .swap a f => Sys2Proof.Machine.execSwap a f s
  | .over a f => Sys2Proof.Machine.execOver a f s
  | .rot a f => Sys2Proof.Machine.execRot a f s
  | .nip a f => Sys2Proof.Machine.execNip a f s
  | .dupn a f => Sys2Proof.Machine.execDupn a f s
  | .xchn a f => Sys2Proof.Machine.execXchn a f s
  | .dropn a f => Sys2Proof.Machine.execDropn a f s
  | .depth a f => Sys2Proof.Machine.execDepth a f s
  | .getsp a f => Sys2Proof.Machine.execGetsp a f s
  | .setsp a f => Sys2Proof.Machine.execSetsp a f s
  | .push a f => Sys2Proof.Machine.execPush a f s
  | .pushh a f => Sys2Proof.Machine.execPushh a f s
  | .add a f => Sys2Proof.Machine.execAdd a f s
  | .sub a f => Sys2Proof.Machine.execSub a f s
  | .adc a f => Sys2Proof.Machine.execAdc a f s
  | .sbc a f => Sys2Proof.Machine.execSbc a f s
  | .and a f => Sys2Proof.Machine.execAnd a f s
  | .or a f => Sys2Proof.Machine.execOr a f s
  | .xor a f => Sys2Proof.Machine.execXor a f s
  | .andn a f => Sys2Proof.Machine.execAndn a f s
  | .not a f => Sys2Proof.Machine.execNot a f s
  | .neg a f => Sys2Proof.Machine.execNeg a f s
  | .sxb a f => Sys2Proof.Machine.execSxb a f s
  | .sxh a f => Sys2Proof.Machine.execSxh a f s
  | .sxw a f => Sys2Proof.Machine.execSxw a f s
  | .zxw a f => Sys2Proof.Machine.execZxw a f s
  | .popc a f => Sys2Proof.Machine.execPopc a f s
  | .clz a f => Sys2Proof.Machine.execClz a f s
  | .addi a f => Sys2Proof.Machine.execAddi a f s
  | .andi a f => Sys2Proof.Machine.execAndi a f s
  | .ori a f => Sys2Proof.Machine.execOri a f s
  | .xori a f => Sys2Proof.Machine.execXori a f s
  | .shl a f => Sys2Proof.Machine.execShl a f s
  | .shr a f => Sys2Proof.Machine.execShr a f s
  | .sar a f => Sys2Proof.Machine.execSar a f s
  | .rol a f => Sys2Proof.Machine.execRol a f s
  | .ror a f => Sys2Proof.Machine.execRor a f s
  | .mul a f => Sys2Proof.Machine.execMul a f s
  | .mulhs a f => Sys2Proof.Machine.execMulhs a f s
  | .mulhu a f => Sys2Proof.Machine.execMulhu a f s
  | .divs a f => Sys2Proof.Machine.execDivs a f s
  | .divu a f => Sys2Proof.Machine.execDivu a f s
  | .rems a f => Sys2Proof.Machine.execRems a f s
  | .remu a f => Sys2Proof.Machine.execRemu a f s
  | .cmp a f => Sys2Proof.Machine.execCmp a f s
  | .tst a f => Sys2Proof.Machine.execTst a f s
  | .cmpi a f => Sys2Proof.Machine.execCmpi a f s
  | .setf a f => Sys2Proof.Machine.execSetf a f s
  | .load a f => Sys2Proof.Machine.execLoad a f s
  | .store a f => Sys2Proof.Machine.execStore a f s
  | .loadReserved a f => Sys2Proof.Machine.execLoadReserved a f s
  | .storeConditional a f => Sys2Proof.Machine.execStoreConditional a f s
  | .farAtomic a f => Sys2Proof.Machine.execFarAtomic a f s
  | .zline a f => Sys2Proof.Machine.execZline a f s
  | .clean a f => Sys2Proof.Machine.execClean a f s
  | .flush a f => Sys2Proof.Machine.execFlush a f s
  | .inval a f => Sys2Proof.Machine.execInval a f s
  | .pfr a f => Sys2Proof.Machine.execPfr a f s
  | .pfw a f => Sys2Proof.Machine.execPfw a f s
  | .icinv a f => Sys2Proof.Machine.execIcinv a f s
  | .fadd a f => Sys2Proof.Machine.execFadd a f s
  | .fsub a f => Sys2Proof.Machine.execFsub a f s
  | .fmul a f => Sys2Proof.Machine.execFmul a f s
  | .fdiv a f => Sys2Proof.Machine.execFdiv a f s
  | .fsqrt a f => Sys2Proof.Machine.execFsqrt a f s
  | .fma a f => Sys2Proof.Machine.execFma a f s
  | .fnma a f => Sys2Proof.Machine.execFnma a f s
  | .fmin a f => Sys2Proof.Machine.execFmin a f s
  | .fmax a f => Sys2Proof.Machine.execFmax a f s
  | .fneg a f => Sys2Proof.Machine.execFneg a f s
  | .fabs a f => Sys2Proof.Machine.execFabs a f s
  | .fcpys a f => Sys2Proof.Machine.execFcpys a f s
  | .f2i a f => Sys2Proof.Machine.execF2i a f s
  | .f2u a f => Sys2Proof.Machine.execF2u a f s
  | .i2f a f => Sys2Proof.Machine.execI2f a f s
  | .u2f a f => Sys2Proof.Machine.execU2f a f s
  | .fcvt a f => Sys2Proof.Machine.execFcvt a f s
  | .frint a f => Sys2Proof.Machine.execFrint a f s
  | .fcmp a f => Sys2Proof.Machine.execFcmp a f s
  | .fcmpe a f => Sys2Proof.Machine.execFcmpe a f s
  | .fclass a f => Sys2Proof.Machine.execFclass a f s
  | .b a f => Sys2Proof.Machine.execB a f s
  | .call a f => Sys2Proof.Machine.execCall a f s
  | .jmp a f => Sys2Proof.Machine.execJmp a f s
  | .calli a f => Sys2Proof.Machine.execCalli a f s
  | .ret a f => Sys2Proof.Machine.execRet a f s
  | .knot a f => Sys2Proof.Machine.execKnot a f s
  | .cinch a f => Sys2Proof.Machine.execCinch a f s
  | .cinchCommit c => Sys2Proof.Machine.execCinchCommit c s
  | .slip a f => Sys2Proof.Machine.execSlip a f s
  | .ktest a f => Sys2Proof.Machine.execKtest a f s
  | .knotAgeExpiry c => Sys2Proof.Machine.execKnotAgeExpiry c s
  | .lbar a f => Sys2Proof.Machine.execLbar a f s
  | .sbar a f => Sys2Proof.Machine.execSbar a f s
  | .fbar a f => Sys2Proof.Machine.execFbar a f s
  | .fsync a f => Sys2Proof.Machine.execFsync a f s
  | .barrierRetire c => Sys2Proof.Machine.execBarrierRetire c s
  | .syscall a f => Sys2Proof.Machine.execSyscall a f s
  | .gate a f => Sys2Proof.Machine.execGate a f s
  | .break a f => Sys2Proof.Machine.execBreak a f s
  | .storeBounceTimeout c => Sys2Proof.Machine.execStoreBounceTimeout c s
  | .rdS q => Sys2Proof.Machine.execRdS q s
  | .rdO q => Sys2Proof.Machine.execRdO q s
  | .rdOz q => Sys2Proof.Machine.execRdOz q s
  | .upg q => Sys2Proof.Machine.execUpg q s
  | .rdOnce q => Sys2Proof.Machine.execRdOnce q s
  | .wrLine q bytes poison => Sys2Proof.Machine.execWrLine q bytes poison s
  | .wrPart q mask bytes => Sys2Proof.Machine.execWrPart q mask bytes s
  | .atom q addr wide aop x y => Sys2Proof.Machine.execAtom q addr wide aop x y s
  | .cmo q op => Sys2Proof.Machine.execCmo q op s
  | .snpS m => Sys2Proof.Machine.execSnpS m s
  | .snpC m => Sys2Proof.Machine.execSnpC m s
  | .snpO m => Sys2Proof.Machine.execSnpO m s
  | .snpI m => Sys2Proof.Machine.execSnpI m s
  | .snpIz m => Sys2Proof.Machine.execSnpIz m s
  | .snpL1i m => Sys2Proof.Machine.execSnpL1i m s
  | .hitchTimeExpiry agent line => Sys2Proof.Machine.execHitchTimeExpiry agent line s
  | .wbD agent entry => Sys2Proof.Machine.execWbD agent entry s
  | .wbC agent entry => Sys2Proof.Machine.execWbC agent entry s
  | .cmpGrant agent line st => Sys2Proof.Machine.execCmpGrant agent line st s
  | .rspI agent line => Sys2Proof.Machine.execRspI agent line s
  | .rspS agent line => Sys2Proof.Machine.execRspS agent line s
  | .rspFwd agent line dirty => Sys2Proof.Machine.execRspFwd agent line dirty s
  | .rspEvicting agent line entry dirty => Sys2Proof.Machine.execRspEvicting agent line entry dirty s
  | .wbAck agent entry => Sys2Proof.Machine.execWbAck agent entry s
  | .data agent line bytes valid dirty poison victim => Sys2Proof.Machine.execData agent line bytes valid dirty poison victim s
  | .sharedWriteThrough agent line => Sys2Proof.Machine.execSharedWriteThrough agent line s
  | .rangeClean t v => Sys2Proof.Machine.execRangeClean t v s
  | .rangeFlush t v => Sys2Proof.Machine.execRangeFlush t v s
  | .rangeOpDone t => Sys2Proof.Machine.execRangeOpDone t s
  | .cacheDisable t v => Sys2Proof.Machine.execCacheDisable t v s
  | .crdLockinvRead t => Sys2Proof.Machine.execCrdLockinvRead t s
  | .cohCntRead h => Sys2Proof.Machine.execCohCntRead h s
  | .memSelvRead ctl => Sys2Proof.Machine.execMemSelvRead ctl s
  | .keyLoad v => Sys2Proof.Machine.execKeyLoad v s
  | .keyGenerate v => Sys2Proof.Machine.execKeyGenerate v s
  | .keyErase v => Sys2Proof.Machine.execKeyErase v s
  | .memKeycmdDone => Sys2Proof.Machine.execMemKeycmdDone s
  | .deviceMark ctl rank v => Sys2Proof.Machine.execDeviceMark ctl rank v s
  | .fillDone ctl => Sys2Proof.Machine.execFillDone ctl s
  | .sharedMarkerPoll ctl region seen => Sys2Proof.Machine.execSharedMarkerPoll ctl region seen s
  | .sharedFillTimeout ctl region => Sys2Proof.Machine.execSharedFillTimeout ctl region s
  | .mergeEntryClose ctl sector => Sys2Proof.Machine.execMergeEntryClose ctl sector s
  | .viDoorbell vi slot v w => Sys2Proof.Machine.execViDoorbell vi slot v w s
  | .acceptance vi slot => Sys2Proof.Machine.execAcceptance vi slot s
  | .acceptanceMirrored vi slot => Sys2Proof.Machine.execAcceptanceMirrored vi slot s
  | .scRead v => Sys2Proof.Machine.execScRead v s
  | .scBind v probe => Sys2Proof.Machine.execScBind v probe s
  | .scUnbind v => Sys2Proof.Machine.execScUnbind v s
  | .scHalt v => Sys2Proof.Machine.execScHalt v s
  | .scClearhalt v => Sys2Proof.Machine.execScClearhalt v s
  | .shuttleDispatch n => Sys2Proof.Machine.execShuttleDispatch n s
  | .ccwRead cell => Sys2Proof.Machine.execCcwRead cell s
  | .ccwWrite cell => Sys2Proof.Machine.execCcwWrite cell s
  | .ccwControl cell => Sys2Proof.Machine.execCcwControl cell s
  | .ccwSense cell => Sys2Proof.Machine.execCcwSense cell s
  | .ccwNop cell => Sys2Proof.Machine.execCcwNop cell s
  | .ccwJump cell => Sys2Proof.Machine.execCcwJump cell s
  | .nvmeCompletion cell c => Sys2Proof.Machine.execNvmeCompletion cell c s
  | .operationPosted cell => Sys2Proof.Machine.execOperationPosted cell s
  | .completionRingWrite vi => Sys2Proof.Machine.execCompletionRingWrite vi s
  | .operationRetire cell => Sys2Proof.Machine.execOperationRetire cell s
  | .operationTimeout cell => Sys2Proof.Machine.execOperationTimeout cell s
  | .abortConfirmTimeout cell => Sys2Proof.Machine.execAbortConfirmTimeout cell s
  | .cqTailWrite vi v w => Sys2Proof.Machine.execCqTailWrite vi v w s
  | .ringfaultClear vi v => Sys2Proof.Machine.execRingfaultClear vi v s
  | .viEnable vi v => Sys2Proof.Machine.execViEnable vi v s
  | .viSuspend vi v => Sys2Proof.Machine.execViSuspend vi v s
  | .viCancel vi v => Sys2Proof.Machine.execViCancel vi v s
  | .viQuotaWrite vi v => Sys2Proof.Machine.execViQuotaWrite vi v s
  | .evqQuotaWrite c v => Sys2Proof.Machine.execEvqQuotaWrite c v s
  | .dcInvalidate v => Sys2Proof.Machine.execDcInvalidate v s
  | .dcInvalidateDone => Sys2Proof.Machine.execDcInvalidateDone s
  | .descriptorCacheEnable v => Sys2Proof.Machine.execDescriptorCacheEnable v s
  | .shuttleBeatStop n => Sys2Proof.Machine.execShuttleBeatStop n s
  | .shuttleRestart n => Sys2Proof.Machine.execShuttleRestart n s
  | .shuttleRestartDone n => Sys2Proof.Machine.execShuttleRestartDone n s
  | .portDisable p v => Sys2Proof.Machine.execPortDisable p v s
  | .portDisableForce p v => Sys2Proof.Machine.execPortDisableForce p v s
  | .portEnable p v => Sys2Proof.Machine.execPortEnable p v s
  | .portRetrain p v => Sys2Proof.Machine.execPortRetrain p v s
  | .init p m => Sys2Proof.Machine.execInit p m s
  | .initResend p => Sys2Proof.Machine.execInitResend p s
  | .linkRelease p => Sys2Proof.Machine.execLinkRelease p s
  | .flitReceive p bytes => Sys2Proof.Machine.execFlitReceive p bytes s
  | .replayTimeout p => Sys2Proof.Machine.execReplayTimeout p s
  | .linkHoldExpiry p => Sys2Proof.Machine.execLinkHoldExpiry p s
  | .sessAccept p session dstat => Sys2Proof.Machine.execSessAccept p session dstat s
  | .sessClose p session => Sys2Proof.Machine.execSessClose p session s
  | .dataIn p f => Sys2Proof.Machine.execDataIn p f s
  | .status p f => Sys2Proof.Machine.execStatus p f s
  | .dupack p f => Sys2Proof.Machine.execDupack p f s
  | .abortDone p f => Sys2Proof.Machine.execAbortDone p f s
  | .regRsp p f => Sys2Proof.Machine.execRegRsp p f s
  | .busyRetry cell => Sys2Proof.Machine.execBusyRetry cell s
  | .chpWerrRead p => Sys2Proof.Machine.execChpWerrRead p s
  | .dpcContainment p => Sys2Proof.Machine.execDpcContainment p s
  | .pcieHotplugEvent p ev => Sys2Proof.Machine.execPcieHotplugEvent p ev s
  | .engineRingPoll e => Sys2Proof.Machine.execEngineRingPoll e s
  | .engineJobEnd e bad => Sys2Proof.Machine.execEngineJobEnd e bad s
  | .jobSuspend e upTo => Sys2Proof.Machine.execJobSuspend e upTo s
  | .ringEnable e ring v => Sys2Proof.Machine.execRingEnable e ring v s
  | .ringRestart e ring v => Sys2Proof.Machine.execRingRestart e ring v s
  | .keyslotLoad v => Sys2Proof.Machine.execKeyslotLoad v s
  | .keyslotGenerate v => Sys2Proof.Machine.execKeyslotGenerate v s
  | .keyslotErase v => Sys2Proof.Machine.execKeyslotErase v s
  | .wrapKeyLoad v => Sys2Proof.Machine.execWrapKeyLoad v s
  | .wrapKeyGenerate v => Sys2Proof.Machine.execWrapKeyGenerate v s
  | .kscmdDone => Sys2Proof.Machine.execKscmdDone s
  | .keyslotGrantWrite k v => Sys2Proof.Machine.execKeyslotGrantWrite k v s
  | .engineParityError e half => Sys2Proof.Machine.execEngineParityError e half s
  | .faultReport rs => Sys2Proof.Machine.execFaultReport rs s
  | .blockResetRelease dom => Sys2Proof.Machine.execBlockResetRelease dom s
  | .conseqWindowClose idx => Sys2Proof.Machine.execConseqWindowClose idx s
  | .safeStateComplete => Sys2Proof.Machine.execSafeStateComplete s
  | .fcuRecordClear v same => Sys2Proof.Machine.execFcuRecordClear v same s
  | .fcuWireClear k v => Sys2Proof.Machine.execFcuWireClear k v s
  | .fcuCntRead k => Sys2Proof.Machine.execFcuCntRead k s
  | .faultInject v => Sys2Proof.Machine.execFaultInject v s
  | .warpLinkDown link => Sys2Proof.Machine.execWarpLinkDown link s
  | .admissionAnnounce src => Sys2Proof.Machine.execAdmissionAnnounce src s
  | .nonceSend v => Sys2Proof.Machine.execNonceSend v s
  | .signatureReceived link sig => Sys2Proof.Machine.execSignatureReceived link sig s
  | .admitModule v => Sys2Proof.Machine.execAdmitModule v s
  | .admitStandby v => Sys2Proof.Machine.execAdmitStandby v s
  | .reject v => Sys2Proof.Machine.execReject v s
  | .admissionReceived mid members pick standby => Sys2Proof.Machine.execAdmissionReceived mid members pick standby s
  | .checkpointCommit => Sys2Proof.Machine.execCheckpointCommit s
  | .heartbeat b => Sys2Proof.Machine.execHeartbeat b s
  | .heartbeatCheck => Sys2Proof.Machine.execHeartbeatCheck s
  | .splDecide v => Sys2Proof.Machine.execSplDecide v s
  | .fenceOutRelease => Sys2Proof.Machine.execFenceOutRelease s
  | .fenceIn low => Sys2Proof.Machine.execFenceIn low s
  | .warpFence => Sys2Proof.Machine.execWarpFence s
  | .fenced mid => Sys2Proof.Machine.execFenced mid s
  | .takeoverWakeDone => Sys2Proof.Machine.execTakeoverWakeDone s
  | .claimWaitExpiry ck => Sys2Proof.Machine.execClaimWaitExpiry ck s
  | .checkpointLoadDone => Sys2Proof.Machine.execCheckpointLoadDone s
  | .rejoin twin served epoch => Sys2Proof.Machine.execRejoin twin served epoch s
  | .rejoinAck mid => Sys2Proof.Machine.execRejoinAck mid s
  | .plannedSwitchover v => Sys2Proof.Machine.execPlannedSwitchover v s
  | .leave v => Sys2Proof.Machine.execLeave v s
  | .leaveDrainDone => Sys2Proof.Machine.execLeaveDrainDone s
  | .leaveMessage mid => Sys2Proof.Machine.execLeaveMessage mid s
  | .domainRequest dom v => Sys2Proof.Machine.execDomainRequest dom v s
  | .domainTransitionStart dom => Sys2Proof.Machine.execDomainTransitionStart dom s
  | .domainDrainTimeout dom => Sys2Proof.Machine.execDomainDrainTimeout dom s
  | .domainTransitionDone dom sealOk => Sys2Proof.Machine.execDomainTransitionDone dom sealOk s
  | .pwrDarkRead => Sys2Proof.Machine.execPwrDarkRead s
  | .pwrRefcntRead idx => Sys2Proof.Machine.execPwrRefcntRead idx s
  | .lifecycleRetain v => Sys2Proof.Machine.execLifecycleRetain v s
  | .retainEntered => Sys2Proof.Machine.execRetainEntered s
  | .retainWake badSeals => Sys2Proof.Machine.execRetainWake badSeals s
  | .padRelease v => Sys2Proof.Machine.execPadRelease v s
  | .rclkFreqError ppm => Sys2Proof.Machine.execRclkFreqError ppm s
  | .clockLoss pll => Sys2Proof.Machine.execClockLoss pll s
  | .supplyWarn rail => Sys2Proof.Machine.execSupplyWarn rail s
  | .halvingExpiry tile => Sys2Proof.Machine.execHalvingExpiry tile s
  | .railReset rail => Sys2Proof.Machine.execRailReset rail s
  | .standingBrownout => Sys2Proof.Machine.execStandingBrownout s
  | .thermalThrottle sensor celsius => Sys2Proof.Machine.execThermalThrottle sensor celsius s
  | .thermalTrip sensor celsius => Sys2Proof.Machine.execThermalTrip sensor celsius s
  | .powerOn => Sys2Proof.Machine.execPowerOn s
  | .coldBoot b => Sys2Proof.Machine.execColdBoot b s
  | .pwrgoodFall => Sys2Proof.Machine.execPwrgoodFall s
  | .railWaitDone => Sys2Proof.Machine.execRailWaitDone s
  | .bootStageDone r => Sys2Proof.Machine.execBootStageDone r s
  | .bootCordRelease => Sys2Proof.Machine.execBootCordRelease s
  | .warmReset low r => Sys2Proof.Machine.execWarmReset low r s
  | .modRstWarm v r => Sys2Proof.Machine.execModRstWarm v r s
  | .modRstCold v => Sys2Proof.Machine.execModRstCold v s
  | .i3cEntdaa addr => Sys2Proof.Machine.execI3cEntdaa addr s
  | .i3cRead off => Sys2Proof.Machine.execI3cRead off s
  | .i3cWrite off v => Sys2Proof.Machine.execI3cWrite off v s
  | .i3cWarmReset r => Sys2Proof.Machine.execI3cWarmReset r s
  | .i3cColdReset => Sys2Proof.Machine.execI3cColdReset s
  | .ownerOpen => Sys2Proof.Machine.execOwnerOpen s
  | .challenge => Sys2Proof.Machine.execChallenge s
  | .factory => Sys2Proof.Machine.execFactory s
  | .seal => Sys2Proof.Machine.execSeal s
  | .setPassword => Sys2Proof.Machine.execSetPassword s
  | .challengeExpiry => Sys2Proof.Machine.execChallengeExpiry s
  | .authDelayExpiry => Sys2Proof.Machine.execAuthDelayExpiry s
  | .record v => Sys2Proof.Machine.execRecord v s
  | .release v => Sys2Proof.Machine.execRelease v s
  | .stop v => Sys2Proof.Machine.execStop v s
  | .replay v => Sys2Proof.Machine.execReplay v s
  | .replayApplyInput => Sys2Proof.Machine.execReplayApplyInput s
  | .warpLinkUp link peer => Sys2Proof.Machine.execWarpLinkUp link peer s
  | .inboundTlp p t => Sys2Proof.Machine.execInboundTlp p t s
  | .undefinedEncoding a w => Sys2Proof.Machine.execUndefinedEncoding a w s
  | .silentTargetLoad a => Sys2Proof.Machine.execSilentTargetLoad a s
  | .warmResetRelease => Sys2Proof.Machine.execWarmResetRelease s
  | .thermalHalvingExpiry tile => Sys2Proof.Machine.execThermalHalvingExpiry tile s

end Sys2Proof.Machine
end

