-- ==== Sys2Proof/Machine/Tick.lean ====
section
/-! DEFINITION. What happens while no command waits: time passes, store buffers drain (R130), TLB invalidations take effect
(R125), bursts that waited for an injector start (R242). DESIGN CHOICE, log 1. -/

namespace Sys2Proof.Machine

/-- One rclk later, within the beat: its end is a command's (R13). -/
def laterRclk (s : State) : Nat :=
  if s.time.loom then max s.time.now (min (s.time.now + 1) (s.time.pickStart + Config.rclkPerBeat * (s.beat + 1) - 1))
  else s.time.now + 1

/-- The cord migrates: its buffer is emptied by the migration's own step (R53). -/
def migratesNow (s : State) (c : Nat) : Bool := migratingCord s c

/-- The buffer of a cord that does not migrate drains. -/
def tickCord (s : State) (c : Nat) : State :=
  if (s.cord c).sbuf.isEmpty ∨ migratesNow s c then s else drainCord regWrite s c

/-- What an rclk brings by itself: at rclk 160 of a beat merge entries close, no flush falls behind its table, and PWR_CLK.REMAIN
follows a halving by time (R27, R196, R353). -/
def rclkDue (s : State) : State :=
  let s := remainDue s
  if s.time.loom then flushesDue (if s.since % 200 = 160 then closeRuns s else s) (s.since + 1) else s

/-- Register writes of Shuttle firmware are carried out, in their order (R232). -/
def shutWrites (s : State) : State :=
  s.chs.writes.foldl (fun s e => regWrite s host e.1 e.2) { s with chs := { s.chs with writes := [] } }

/-- The module in one rclk without a command. In the safe state every block has stopped (R308). -/
def idleTick (s : State) : State :=
  let s := { s with time := { s.time with now := laterRclk s } }
  if s.stopped then s
  else
    let s := outsGo (shutWrites (rclkDue s))
    let cs := s.cords.map (fun (e : Nat × Core) => e.1)
    (s.tlbi.map (fun (e : Nat × TlbInv) => e.1)).eraseDups.foldl applyInvs (cs.foldl tickCord s)

end Sys2Proof.Machine
end

