-- ==== Sys2Proof/Safety.lean ====
section
/-! DEFINITION. The terms in which the statements speak: when an instruction begins, and what it is for one to complete. -/

namespace Sys2Proof.Machine

/-- The command completes: exec answers a next state, and the property holds of it. -/
def Completes (i : Instr) (s : State) (p : State → Prop) : Prop := ∃ t, exec i s = .next t ∧ p t

/-- The command's accesses made, it ends in `t`; where one of them must wait it is turned back, with what it waits for started (log 12). -/
def EndsOrWaits (i : Instr) (s t : State) : Prop :=
  (wanting s t = false → Completes i s (· = t)) ∧ (wanting s t = true → Completes i s (· = turnBack s t))

/-- Steps 1 to 4 of R79 pass for a well-formed instruction: the agent runs, its PC is at no breakpoint, and the word is fetched. `s1` is
the state once the store buffer has made room and the word has been fetched. -/
structure Fetched (s s1 : State) (a : Agent) (i : Instr) : Prop where
  ready : canRun s a = true
  wellFormed : i.ok = true
  noBreak : ((makeRoom s a).core a).brks.find? (fun e => e.2 == ((makeRoom s a).core a).pc) = none
  fetched : fetchAt (makeRoom s a) a = (s1, .ok ())

/-- Steps 1 to 5 of R79 pass for an instruction of an agent with no open knot: COND holds and the level suffices. -/
structure Begins (s s1 : State) (a : Agent) (i : Instr) (cond : BitVec 3) (lvl : Level) : Prop extends Fetched s s1 a i where
  noKnot : ((makeRoom s a).core a).knot = none
  stillNoKnot : (s1.core a).knot = none
  holds : condHolds (s1.core a).fl cond = true
  level : lvlBelow (s1.core a).lvl lvl = false

/-- An instruction of U begins inside an open knot. -/
structure BeginsInKnot (s s1 : State) (a : Agent) (i : Instr) (cond : BitVec 3) : Prop extends Fetched s s1 a i where
  inKnot : ((makeRoom s a).core a).inKnot = true
  stillInKnot : (s1.core a).inKnot = true
  settled : s1.wants = []
  holds : condHolds (s1.core a).fl cond = true

/-- A cord's retirement concerns nobody else: no retry of its group to resolve, no resynchronisation of its triad, no bad word in the
checkpoint copies, and inputs that do not come from a journal. -/
structure Plain (s : State) (c : Nat) : Prop where
  noRetry : retriesNow s (s.triadOf c) (s.shareOf c) = 0
  noResync : (s.triad (s.triadOf c)).resync = none
  goodCopy : (s.triad (s.triadOf c)).ckptBad = []
  live : s.replaying = false

/-- Nothing hinders the retirement of an instruction that makes at most `n` stores or pushes: nothing of memory is waited for, and a
cord has room for them in its store buffer and retires by itself, a Shuttle has nothing buffered and room in its stack cache. -/
def Quiet (s : State) (a : Agent) (n : Nat) : Prop :=
  (s.core a).knot = none ∧ s.wants = [] ∧
  match a with
  | .cord c => (s.core a).buffers + n ≤ 16 ∧ Plain s c
  | .shuttle _ => (s.core a).sbuf = [] ∧ (s.core a).cache.length + n ≤ 32

/-- One instruction more in the ledger's RETIRED count of a cord's tenant (R33); firmware is not counted. -/
def counted (s : State) : Agent → State
  | .cord c => s.account (s.tenantOf c) led.RETIRED 1
  | .shuttle _ => s

/-- The architected rest of a core: what retirement itself changes set aside. -/
def Core.rest (k : Core) : Core := { k with pc := 0, retire := 0, fpCount := [], digest := 0, wrote := [], answers := [] }

/-- From state `s` the agent's instruction retires into `t` (R78): PC is `next`, the retire count is one higher, the rest of its core is
that of `k`, its tenant's RETIRED count is one higher, and nothing else of the module is changed. -/
def RetiresTo (s : State) (a : Agent) (next : Word) (k : Core) (t : State) : Prop :=
  ∃ k', t = (counted s a).setCore a k' ∧ k'.pc = next ∧ k'.retire = (s.core a).retire + 1 ∧ k'.rest = k.rest

/-- The word of an instruction. -/
def opWord (i : Instr) : InsnWord := (wordOf i).getD 0

/-- FLAGS after a result with S = 1 (R84): N and Z follow the result, C and V are given. -/
def flagsAfter (r : Word) (c v : Bool) : Flags := { n := r.msb, z := decide (r = 0), c := c, v := v }

/-- Pops and pushes on the stack of the agent's level, the pushes with the homes of the stack step (R65, R67). -/
def restack (s : State) (a : Agent) (pops : Nat) (vals : List Word) (homes : List Home) : Core :=
  (s.core a).replace (s.agentTenant a) pops (vals.zip homes)

/-- An instruction `mk` with operands a b (b on top) and one result, which sets FLAGS when S = 1. -/
def BinaryResult (mk : Agent → FO → Instr) (res : Flags → Word → Word → Word) (carry overflow : Flags → Word → Word → Bool) : Prop :=
  ∀ (s s1 s2 : State) (a : Agent) (f : FO) (x y : Word) (home : Home),
    Begins s s1 a (mk a f) f.cond .U →
    stackStep s1 a (opWord (mk a f)) 2 2 1 = (s2, .ok { ins := [y, x], homes := [home] }) → Quiet s2 a 1 →
    let k := s2.core a
    let r := res k.fl x y
    Completes (mk a f) s (RetiresTo s2 a (k.pc + 4)
      { restack s2 a 2 [r] [home] with
        flags := if f.s then (flagsAfter r (carry k.fl x y) (overflow k.fl x y)).word else k.flags })

/-- An instruction `mk` with one operand and one result, which sets FLAGS when S = 1. -/
def UnaryResult (mk : Agent → FO → Instr) (res : FO → Word → Word) (carry overflow : Flags → FO → Word → Bool) : Prop :=
  ∀ (s s1 s2 : State) (a : Agent) (f : FO) (x : Word) (home : Home),
    Begins s s1 a (mk a f) f.cond .U →
    stackStep s1 a (opWord (mk a f)) 1 1 1 = (s2, .ok { ins := [x], homes := [home] }) → Quiet s2 a 1 →
    let k := s2.core a
    let r := res f x
    Completes (mk a f) s (RetiresTo s2 a (k.pc + 4)
      { restack s2 a 1 [r] [home] with
        flags := if f.s then (flagsAfter r (carry k.fl f x) (overflow k.fl f x)).word else k.flags })

/-- Entry i of a list of entries, the top first. -/
def nth (l : List Word) (i : Nat) : Word := l.getD i 0

/-- The shifts of R85: `res` is the result and `last` says whether the last bit shifted out is 1, of the operand and the amount. -/
def ShiftResult (mk : Agent → FO → Instr) (res : Word → Nat → Word) (last : Word → Nat → Bool) : Prop :=
  ∀ (s s1 s2 : State) (a : Agent) (f : FO) (x y : Word) (home : Home),
    let k := s2.core a
    let after (pops n : Nat) : Core :=
      { restack s2 a pops [res x n] [home] with
        flags := if f.s then (flagsAfter (res x n) (if n = 0 then k.fl.c else last x n) k.fl.v).word else k.flags }
    Begins s s1 a (mk a f) f.cond .U → Quiet s2 a 1 →
    (f.opnd.getLsbD 6 = true → stackStep s1 a (opWord (mk a f)) 1 1 1 = (s2, .ok { ins := [x], homes := [home] }) →
      Completes (mk a f) s (RetiresTo s2 a (k.pc + 4) (after 1 (f.opnd.toNat % 64))))
    ∧ (f.opnd.getLsbD 6 = false → stackStep s1 a (opWord (mk a f)) 2 2 1 = (s2, .ok { ins := [y, x], homes := [home] }) →
      Completes (mk a f) s (RetiresTo s2 a (k.pc + 4) (after 2 (y.toNat % 64))))

/-- The divides of R101 with b ≠ 0: `overflow` is V with S = 1, `quiet` what becomes of FLAGS with S = 0 (R103). -/
def DivideResult (mk : Agent → FO → Instr) (res : Word → Word → Word) (overflow : Word → Word → Bool)
    (quiet : Flags → Word → Word → Flags) : Prop :=
  ∀ (s s1 s2 : State) (a : Agent) (f : FO) (x y : Word) (home : Home),
    Begins s s1 a (mk a f) f.cond .U →
    stackStep s1 a (opWord (mk a f)) 2 2 1 = (s2, .ok { ins := [y, x], homes := [home] }) → y ≠ 0 → Quiet s2 a 1 →
    let k := s2.core a
    let fl := if f.s then flagsAfter (res x y) false (overflow x y) else quiet k.fl x y
    Completes (mk a f) s (RetiresTo s2 a (k.pc + 4) { restack s2 a 2 [res x y] [home] with flags := fl.word })

/-- An instruction that pops n entries and pushes q, made of those by `out`, which takes them top first and gives them in the order
of the pushes (R83). -/
def Rearranges (mk : Agent → FO → Instr) (n q : Nat) (out : List Word → List Word) : Prop :=
  ∀ (s s1 s2 : State) (a : Agent) (f : FO) (ins : List Word) (homes : List Home),
    Begins s s1 a (mk a f) f.cond .U →
    stackStep s1 a (opWord (mk a f)) n n q = (s2, .ok { ins := ins, homes := homes }) → Quiet s2 a q →
    Completes (mk a f) s (RetiresTo s2 a ((s2.core a).pc + 4) (restack s2 a n (out ins) homes))

/-- FCSR after flags are raised (R107, R112): they join the sticky flags [12:8], and PEND [28:24] where EN [20:16] has them. -/
def raisedFcsr (x : Word) (flags : Nat) : Word :=
  x ||| BitVec.ofNat 64 (flags * 2 ^ 8) ||| BitVec.ofNat 64 ((flags &&& (x.toNat / 2 ^ 16 % 32)) * 2 ^ 24)

/-- Operand i, the deepest first. -/
def at0 (l : List Nat) (i : Nat) : Nat := l.getD i 0

/-- A floating-point operation on n operands whose result and flags are those of `op`, in the mode RM selects (R89). -/
def FloatResult (mk : Agent → FF → Instr) (n : Nat) (op : FF → RM → List Nat → Nat × Nat) : Prop :=
  ∀ (s s1 s2 : State) (a : Agent) (f : FF) (ins : List Word) (home : Home),
    let k := s2.core a
    let code := if f.rm = 5 then k.fcsr.toNat % 8 else f.rm.toNat
    let rm : RM := match code with
      | 0 => .RNE
      | 1 => .RTZ
      | 2 => .RUP
      | 3 => .RDN
      | _ => .RMM
    let r := op f rm (ins.reverse.map BitVec.toNat)
    Begins s s1 a (mk a f) f.cond .U → stackStep s1 a (opWord (mk a f)) n n 1 = (s2, .ok { ins := ins, homes := [home] }) →
    Quiet s2 a 1 →
    Completes (mk a f) s (RetiresTo s2 a (k.pc + 4)
      { restack s2 a n [BitVec.ofNat 64 r.1] [home] with fcsr := raisedFcsr k.fcsr r.2 })

/-- The content of a control register (R72). -/
def crValue (s : State) (a : Agent) (n : Nat) : Option Word :=
  let k := s.core a
  let stk (x : LvlStk) : List (Option Word) := [some x.sp, some x.sb, some x.sl, none]
  let tr (x : TrapRegs) : List (Option Word) := [some x.tvec, some x.epc, some x.estat, some x.eval, some x.gate, none, none, none]
  let none_ (n : Nat) : List (Option Word) := List.replicate n none
  let number : Nat := match a with
    | .cord c => c
    | .shuttle m => m
  let queue : Word := match a with
    | .cord c => BitVec.ofNat 64 (min (s.evq (s.tenantOf c) c).recs.length 0xFFFF + 2 ^ 16 * min (s.evq (s.tenantOf c) c).lost 0xFFFF)
    | .shuttle _ => 0
  let first : List (Option Word) :=
    [some k.flags, some (BitVec.ofNat 64 (lvlCode k.lvl + 4 * boolNat k.ee + 8 * boolNat k.knot.isSome)), some k.fcsr
      , some (BitVec.ofNat 64 number), some k.retire, some queue]
  (first ++ none_ 10 ++ stk k.stkU ++ stk k.stkS ++ stk k.stkH ++ none_ 4 ++ tr k.trS ++ tr k.trH
    ++ [some k.ptbr, some k.s2br]).getD n none

/-- The defined bits of a control register that takes writes (R72, R122, R107). -/
def crDefined (n : Nat) : Word :=
  if n = 0 then 0xF
  else if n = 2 then 0x1F1F1F07
  else if n < 0x20 then 0xFFFFFFFFFFF8
  else if n = 0x20 ∨ n = 0x28 then 0xFFFFFFFFF000
  else if n = 0x21 ∨ n = 0x29 then 0xFFFFFFFFFFFC
  else if n = 0x22 ∨ n = 0x2A then 0x3FFF
  else if n = 0x23 ∨ n = 0x2B then 0xFFFFFFFFFFFFFFFF
  else if n = 0x24 ∨ n = 0x2C then 0xFFFFFFFFF0FF
  else if n = 0x30 then 0xFFF0FFFFFFFFF001
  else 0xFFFFFFFFFF001

/-- The agent and the condition of an instruction; none for a command that is no fetched instruction. -/
def conditionOf (i : Instr) : Option (Agent × BitVec 3) :=
  match i with
  | .nop a f => some (a, f.cond)
  | .waite a f => some (a, f.cond)
  | .rdcr a f => some (a, f.cond)
  | .wrcr a f => some (a, f.cond)
  | .tret a f => some (a, f.cond)
  | .rdtime a f => some (a, f.cond)
  | .ssync a f => some (a, f.cond)
  | .evpop a f => some (a, f.cond)
  | .signal a f => some (a, f.cond)
  | .retg a f => some (a, f.cond)
  | .rdag a f => some (a, f.cond)
  | .wrag a f => some (a, f.cond)
  | .tlbiVa a f => some (a, f.cond)
  | .tlbiAsid a f => some (a, f.cond)
  | .tlbiS1all a f => some (a, f.cond)
  | .tlbiIpa a f => some (a, f.cond)
  | .tlbiTenant a f => some (a, f.cond)
  | .tlbsync a f => some (a, f.cond)
  | .drop a f => some (a, f.cond)
  | .dup a f => some (a, f.cond)
  | .swap a f => some (a, f.cond)
  | .over a f => some (a, f.cond)
  | .rot a f => some (a, f.cond)
  | .nip a f => some (a, f.cond)
  | .dupn a f => some (a, f.cond)
  | .xchn a f => some (a, f.cond)
  | .dropn a f => some (a, f.cond)
  | .depth a f => some (a, f.cond)
  | .getsp a f => some (a, f.cond)
  | .setsp a f => some (a, f.cond)
  | .push a f => some (a, f.cond)
  | .pushh a f => some (a, f.cond)
  | .add a f => some (a, f.cond)
  | .sub a f => some (a, f.cond)
  | .adc a f => some (a, f.cond)
  | .sbc a f => some (a, f.cond)
  | .and a f => some (a, f.cond)
  | .or a f => some (a, f.cond)
  | .xor a f => some (a, f.cond)
  | .andn a f => some (a, f.cond)
  | .not a f => some (a, f.cond)
  | .neg a f => some (a, f.cond)
  | .sxb a f => some (a, f.cond)
  | .sxh a f => some (a, f.cond)
  | .sxw a f => some (a, f.cond)
  | .zxw a f => some (a, f.cond)
  | .popc a f => some (a, f.cond)
  | .clz a f => some (a, f.cond)
  | .addi a f => some (a, f.cond)
  | .andi a f => some (a, f.cond)
  | .ori a f => some (a, f.cond)
  | .xori a f => some (a, f.cond)
  | .shl a f => some (a, f.cond)
  | .shr a f => some (a, f.cond)
  | .sar a f => some (a, f.cond)
  | .rol a f => some (a, f.cond)
  | .ror a f => some (a, f.cond)
  | .mul a f => some (a, f.cond)
  | .mulhs a f => some (a, f.cond)
  | .mulhu a f => some (a, f.cond)
  | .divs a f => some (a, f.cond)
  | .divu a f => some (a, f.cond)
  | .rems a f => some (a, f.cond)
  | .remu a f => some (a, f.cond)
  | .cmp a f => some (a, f.cond)
  | .tst a f => some (a, f.cond)
  | .cmpi a f => some (a, f.cond)
  | .setf a f => some (a, f.cond)
  | .load a f => some (a, f.cond)
  | .store a f => some (a, f.cond)
  | .loadReserved a f => some (a, f.cond)
  | .storeConditional a f => some (a, f.cond)
  | .farAtomic a f => some (a, f.cond)
  | .zline a f => some (a, f.cond)
  | .clean a f => some (a, f.cond)
  | .flush a f => some (a, f.cond)
  | .inval a f => some (a, f.cond)
  | .pfr a f => some (a, f.cond)
  | .pfw a f => some (a, f.cond)
  | .icinv a f => some (a, f.cond)
  | .fadd a f => some (a, f.cond)
  | .fsub a f => some (a, f.cond)
  | .fmul a f => some (a, f.cond)
  | .fdiv a f => some (a, f.cond)
  | .fsqrt a f => some (a, f.cond)
  | .fma a f => some (a, f.cond)
  | .fnma a f => some (a, f.cond)
  | .fmin a f => some (a, f.cond)
  | .fmax a f => some (a, f.cond)
  | .fneg a f => some (a, f.cond)
  | .fabs a f => some (a, f.cond)
  | .fcpys a f => some (a, f.cond)
  | .f2i a f => some (a, f.cond)
  | .f2u a f => some (a, f.cond)
  | .i2f a f => some (a, f.cond)
  | .u2f a f => some (a, f.cond)
  | .fcvt a f => some (a, f.cond)
  | .frint a f => some (a, f.cond)
  | .fcmp a f => some (a, f.cond)
  | .fcmpe a f => some (a, f.cond)
  | .fclass a f => some (a, f.cond)
  | .b a f => some (a, f.cond)
  | .call a f => some (a, f.cond)
  | .jmp a f => some (a, f.cond)
  | .calli a f => some (a, f.cond)
  | .ret a f => some (a, f.cond)
  | .knot a f => some (a, f.cond)
  | .cinch a f => some (a, f.cond)
  | .slip a f => some (a, f.cond)
  | .ktest a f => some (a, f.cond)
  | .lbar a f => some (a, f.cond)
  | .sbar a f => some (a, f.cond)
  | .fbar a f => some (a, f.cond)
  | .fsync a f => some (a, f.cond)
  | .syscall a f => some (a, f.cond)
  | .gate a f => some (a, f.cond)
  | .break a f => some (a, f.cond)
  | _ => none

/-! ### Traps -/

/-- The level a trap of a cause taken at level `lvl` enters, and whether it is nested (R93, R94). -/
def EntersLevel (s : State) (a : Agent) (cause : Nat) (lvl l : Level) (nested : Bool) : Prop :=
  let k := s.core a
  (routeOf cause lvl (s.agentTenant a) = .S ∧ k.trS.active = false ∧ l = .S ∧ nested = false)
    ∨ (routeOf cause lvl (s.agentTenant a) = .S ∧ k.trS.active = true ∧ k.trH.active = false ∧ l = .H ∧ nested = true)
    ∨ (routeOf cause lvl (s.agentTenant a) = .H ∧ k.trH.active = false ∧ l = .H ∧ nested = false)

/-- The core after a trap entry (R94): the saved registers of the level entered, the new level with EE 0, the handler's address; SP, SB and
SL of every level, the other level's trap registers, FLAGS, FCSR, the retire count, the translation bases and the address generators are
as before, and the reservation is gone. -/
structure TrapCore (k k' : Core) (cause : Nat) (eval epc : Word) (l : Level) (nested : Bool) : Prop where
  lvl : k'.lvl = l
  ee : k'.ee = false
  pc : k'.pc = (k.trOf l).tvec + BitVec.ofNat 64 (cause * 0x40)
  epc : (k'.trOf l).epc = epc
  eval : (k'.trOf l).eval = eval
  estat : (k'.trOf l).estat
    = BitVec.ofNat 64 (cause + 2 ^ 8 * lvlCode k.lvl + 2 ^ 10 * boolNat k.ee + 2 ^ 11 + 2 ^ 12 * boolNat nested)
  tvec : (k'.trOf l).tvec = (k.trOf l).tvec
  gate : (k'.trOf l).gate = (k.trOf l).gate
  other : (l = .S → k'.trH = k.trH) ∧ (l = .H → k'.trS = k.trS)
  levelStacks : ∀ m, k'.stkOf m = k.stkOf m
  rest : k'.flags = k.flags ∧ k'.fcsr = k.fcsr ∧ k'.retire = k.retire ∧ k'.ptbr = k.ptbr ∧ k'.s2br = k.s2br
    ∧ k'.ags = k.ags ∧ k'.resv = none

/-- A trap is taken in state `s` and leads to `t`: the agent's core changes as R94 says, nothing else of the module does. -/
def TrapsTo (s : State) (a : Agent) (cause : Nat) (eval epc : Word) (l : Level) (nested : Bool) (t : State) : Prop :=
  ∃ k', t = s.setCore a k' ∧ TrapCore (s.core a) k' cause eval epc l nested

/-- A cord, or a Shuttle at H with nothing buffered: entering a level then spills into no memory, and nothing of memory is waited for. -/
def CleanTrap (s : State) (a : Agent) : Prop :=
  (s.core a).knot = none ∧ s.wants = [] ∧
  match a with
  | .cord _ => True
  | .shuttle _ => (s.core a).lvl = .H ∧ (s.core a).sbuf = []

/-- The command takes a trap from state `s2`, whatever level it enters. -/
def TakesTrap (i : Instr) (s s2 : State) (a : Agent) (cause : Nat) (eval epc : Word) : Prop :=
  ∀ (l : Level) (nested : Bool), CleanTrap s2 a → EntersLevel s2 a cause (s2.core a).lvl l nested →
    Completes i s (TrapsTo s2 a cause eval epc l nested)

/-! ### Registers and boundaries -/

/-- The registers of t are those of s but for these fields, set in this order. -/
def SetsRegs (s : State) (l : List (Fld × Nat)) (t : State) : Prop := t.regs = (l.foldl (fun x e => x.put e.1 e.2) s).regs

/-- A pick boundary at which nothing but the count is due: no commit, deferred assignment, resume, RETAIN step, takeover, halving, recording,
replay or waiting command, no frame to send, and every domain's pin and state as the tables ask. -/
structure PlainPick (s : State) : Prop where
  awake : s.pwr.retained = false ∧ s.pwr.retain = 0 ∧ s.spl.release = false
  noCommit : s.flag LOOM_STAT.PENDING = false ∧ s.loom.deferred = []
  noResume : ∀ k, (s.triad k).resume = []
  noHalving : s.pwr.railHalf = [] ∧ s.pwr.thermHalf = [] ∧ s.pwr.thermUntil = []
  noRecord : s.recording = false ∧ s.replaying = false ∧ s.rpl.wait = .none ∧ s.rpl.staged = []
  noFrame : ∀ p, p < 48 → (s.port p).tx = [] ∧ (s.port p).outs = []
  synced : s.loom.lostPick = false
  pinned : ∀ d, d < 260 → s.flag (PWR_DOM.PINNED d) = (pinnedDomains s).contains d
    ∧ ((pinnedDomains s).contains d = true → s.get (PWR_DOM.CUR d) = pst.ON ∨ s.flag (FCU_SRC.FAILED d) = true)

/-- The registers (first offsets of their arrays) a write of which is a command of its own. -/
def commandRegisters : List Nat :=
  [ MOD_RST.off, LOOM_COMMIT.off, FCU_REC.off, FCU_INJ.off, PWR_PADREL.off, PWR_MODCMD.off, PWR_WAKE.off, PWR_DOM.off 0, SEC_CMD.off, RPL_CMD.off
    , SPL_ADMIT.off, SPL_NONCE.off 0, SPL_CTL.off, SPL_LEAVE.off, TRI_CTL.off 0, CRD_RNGCTL.off 0, MEM_KEYCMD.off, CHS_CFG.off, CHS_DCINV.off
    , CHS_SCCMD.off, CHS_EVQ.off 0, CHS_VI_CFG.off 0, CHP_CTL.off 0, CIP_RING_CFG.off 0 0, CMP_RING_CFG.off 0 0, CIP_KSCMD.off, CIP_KS_CFG.off 0]

end Sys2Proof.Machine
end

