-- ==== Sys2Proof/Certificates/Slice0/Obligations.lean ====
section
/-! DEFINITION. The statements for the provers. Each docstring names the rules of spec/ that it formalises, or says that the statement is
the model's own choice. -/

open Sys2Proof Sys2Proof.Machine

/-- A step takes the command at the front of the queue and runs it on the state with the queue's rest (the model's step, log 1). -/
def Obligations.StepRunsFrontCommand : Prop :=
  ∀ (s : State) (c : Instr) (rest : List Instr),
    Sys2Proof.Machine.step { s with pending := c :: rest } = exec c { s with pending := rest }

/-- On an empty queue a step lets time pass (the model's choice, log 1): one rclk, within the beat while the Loom counts. With every store buffer and
merge buffer empty, no invalidation or flush under way, no outward data and no register write of Shuttle firmware waiting, and in the safe state,
nothing else changes. -/
def Obligations.EmptyQueueIdles : Prop :=
  ∀ s : State, s.pending = [] →
    let calm : Prop := (∀ c, (s.cord c).sbuf = []) ∧ s.tlbi = [] ∧ s.loom.flushes = [] ∧ (∀ h, (s.ctl h).merge = [])
      ∧ (∀ p, (s.port p).outs = []) ∧ s.chs.writes = [] ∧ s.pwr.railUntil = []
    ∃ t, Sys2Proof.Machine.step s = .next t
      ∧ (s.stopped = true ∨ calm → t = { s with time := t.time })
      ∧ (s.stopped = true ∨ calm → t.time = { s.time with now := t.time.now } ∧ s.time.now ≤ t.time.now
          ∧ t.time.now ≤ s.time.now + 1 ∧ (s.time.loom = false → t.time.now = s.time.now + 1)
          ∧ (s.time.loom = true → s.time.now + 1 < s.time.pickStart + 200 * (s.beat + 1) → t.time.now = s.time.now + 1))

/-- (1) R6, R14, R20, R300, R403: what reset leaves. No command waits, no memory is listed, no cord runs and the Loom counts no pick. The heddle tables
read 0 in beats 0 to 62 and 0x8000 in beat 63; PICK, the ledger's minute, the first-fault record, the configuration error and the boot cause are 0;
access is SEALED; an offset of no register reads zero; FAULT_n, SAFE_n and FENCE_OUT_n are high. (2) The state after reset has memory's canonical
form. -/
def Obligations.ResetLeaves : Prop :=
  (let s := State.reset
   s.pending = [] ∧ s.mem.cells = [] ∧ s.cords = [] ∧ s.time.loom = false ∧ s.boot.stage = .off
   ∧ (∀ n, n < 52 → ∀ b, b < 64 → bits (s.rd (LOOM_HEDA.off n (b / 4))) (16 * (b % 4)) 16 = if b = 63 then 0x8000 else 0)
   ∧ (∀ c, c < 96 → s.rd (LOOM_CORDA.off c) = 0)
   ∧ s.get LOOM_PICK.PICK = 0 ∧ s.get LOOM_LEDSTAT.MINUTE = 0 ∧ s.get LOOM_LEDSTAT.BANK = 0 ∧ s.flag FCU_REC.VALID = false
   ∧ s.flag MOD_CFGERR.VALID = false ∧ s.get BOOT_CAUSE.KIND = 0 ∧ s.get SEC_STAT.ACCESS = 0 ∧ s.get RPL_STAT.STATE = 0 ∧ s.get SPL_BOLT.MEMBERS = 1
   ∧ s.rd 0x000F0000 = 0 ∧ s.pins.fault = true ∧ s.pins.safe = true ∧ s.pins.fenceOut = true ∧ s.pins.pwrgood = false)
  ∧ (State.reset.mem.wf = true)

/-- Memory's canonical form: addresses strictly rising and no entry that reads as an unlisted one. Every step keeps it, from every state that has it. -/
def Obligations.StepsKeepMemoryCanonical : Prop :=
  ∀ s t : State, s.mem.wf = true → Sys2Proof.Machine.step s = .next t → t.mem.wf = true

/-- R75, R76, R80 to R90: decode and encode agree. The word of every well-formed instruction, with every operand at every value that its encoding admits,
decodes to that instruction and holds COND in bits [31:29]; a word that decodes at all is the word of the well-formed instruction it gives. -/
def Obligations.DecodeEncodeAgree : Prop :=
  (∀ (i : Instr) (a : Agent) (cond : BitVec 3), conditionOf i = some (a, cond) →
    ∃ w, wordOf i = some w ∧ w.extractLsb' 29 3 = cond ∧ (i.ok = true → insnOf a w = some i) ∧ (i.ok = false → insnOf a w = none))
  ∧ ∀ (a : Agent) (w : InsnWord) (i : Instr), insnOf a w = some i → wordOf i = some w ∧ i.ok = true ∧ conditionOf i = some (a, w.extractLsb' 29 3)

/-- R84: the integer ALU. Each minor replaces its operands by its result and moves PC on by 4; with S = 1, N and Z follow the result and C and V are as
the table gives, with S = 0 FLAGS is unchanged; nothing else changes. -/
def Obligations.IntegerAluResults : Prop :=
  let one (b : Bool) : Word := if b then 1 else 0
  let wide (p : Prop) [Decidable p] : Bool := decide p
  BinaryResult .add (fun _ x y => x + y) (fun _ x y => wide (2 ^ 64 ≤ x.toNat + y.toNat))
    (fun _ x y => wide ((x + y).toInt ≠ x.toInt + y.toInt))
  ∧ BinaryResult .sub (fun _ x y => x - y) (fun _ x y => wide (y.toNat ≤ x.toNat))
    (fun _ x y => wide ((x - y).toInt ≠ x.toInt - y.toInt))
  ∧ BinaryResult .adc (fun fl x y => x + y + one fl.c) (fun fl x y => wide (2 ^ 64 ≤ x.toNat + y.toNat + (one fl.c).toNat))
    (fun fl x y => wide ((x + y + one fl.c).toInt ≠ x.toInt + y.toInt + (one fl.c).toInt))
  ∧ BinaryResult .sbc (fun fl x y => x - y - one (!fl.c)) (fun fl x y => wide (y.toNat + (one (!fl.c)).toNat ≤ x.toNat))
    (fun fl x y => wide ((x - y - one (!fl.c)).toInt ≠ x.toInt - y.toInt - (one (!fl.c)).toInt))
  ∧ BinaryResult .and (fun _ x y => x &&& y) (fun fl _ _ => fl.c) (fun fl _ _ => fl.v)
  ∧ BinaryResult .or (fun _ x y => x ||| y) (fun fl _ _ => fl.c) (fun fl _ _ => fl.v)
  ∧ BinaryResult .xor (fun _ x y => x ^^^ y) (fun fl _ _ => fl.c) (fun fl _ _ => fl.v)
  ∧ BinaryResult .andn (fun _ x y => x &&& ~~~y) (fun fl _ _ => fl.c) (fun fl _ _ => fl.v)
  ∧ UnaryResult .not (fun _ x => ~~~x) (fun fl _ _ => fl.c) (fun fl _ _ => fl.v)
  ∧ UnaryResult .neg (fun _ x => 0 - x) (fun _ _ x => wide (x = 0)) (fun _ _ x => wide ((0 - x).toInt ≠ 0 - x.toInt))
  ∧ UnaryResult .sxb (fun _ x => BitVec.ofInt 64 (x.setWidth 8).toInt) (fun fl _ _ => fl.c) (fun fl _ _ => fl.v)
  ∧ UnaryResult .sxh (fun _ x => BitVec.ofInt 64 (x.setWidth 16).toInt) (fun fl _ _ => fl.c) (fun fl _ _ => fl.v)
  ∧ UnaryResult .sxw (fun _ x => BitVec.ofInt 64 (x.setWidth 32).toInt) (fun fl _ _ => fl.c) (fun fl _ _ => fl.v)
  ∧ UnaryResult .zxw (fun _ x => BitVec.ofNat 64 (x.toNat % 2 ^ 32)) (fun fl _ _ => fl.c) (fun fl _ _ => fl.v)
  ∧ UnaryResult .popc (fun _ x => BitVec.ofNat 64 ((List.range 64).filter (fun i => x.getLsbD i)).length)
    (fun fl _ _ => fl.c) (fun fl _ _ => fl.v)
  ∧ UnaryResult .clz (fun _ x => BitVec.ofNat 64 (64 - (if x = 0 then 0 else Nat.log2 x.toNat + 1)))
    (fun fl _ _ => fl.c) (fun fl _ _ => fl.v)
  ∧ UnaryResult .addi (fun f x => x + BitVec.ofInt 64 f.opnd.toInt)
    (fun _ f x => wide (2 ^ 64 ≤ x.toNat + (BitVec.ofInt 64 f.opnd.toInt).toNat))
    (fun _ f x => wide ((x + BitVec.ofInt 64 f.opnd.toInt).toInt ≠ x.toInt + f.opnd.toInt))
  ∧ UnaryResult .andi (fun f x => x &&& BitVec.ofNat 64 f.opnd.toNat) (fun fl _ _ => fl.c) (fun fl _ _ => fl.v)
  ∧ UnaryResult .ori (fun f x => x ||| BitVec.ofNat 64 f.opnd.toNat) (fun fl _ _ => fl.c) (fun fl _ _ => fl.v)
  ∧ UnaryResult .xori (fun f x => x ^^^ BitVec.ofNat 64 f.opnd.toNat) (fun fl _ _ => fl.c) (fun fl _ _ => fl.v)

/-- (1) R85: shifts and rotates, with the amount in OPND (I = 1) or popped (I = 0); with S = 1, C is the last bit shifted out, unchanged for amount 0, and
V is unchanged. (2) R85: compares set FLAGS and push nothing, whatever S; SETF pushes 1 when its condition holds under R77, else 0. -/
def Obligations.ShiftAndCompareResults : Prop :=
  (ShiftResult .shl (fun x n => BitVec.ofNat 64 (x.toNat * 2 ^ n)) (fun x n => x.toNat / 2 ^ (64 - n) % 2 = 1)
   ∧ ShiftResult .shr (fun x n => BitVec.ofNat 64 (x.toNat / 2 ^ n)) (fun x n => x.toNat / 2 ^ (n - 1) % 2 = 1)
   ∧ ShiftResult .sar (fun x n => BitVec.ofInt 64 (x.toInt / 2 ^ n)) (fun x n => x.toNat / 2 ^ (n - 1) % 2 = 1)
   ∧ ShiftResult .rol (fun x n => BitVec.ofNat 64 (x.toNat * 2 ^ n + x.toNat / 2 ^ (64 - n)))
     (fun x n => x.toNat / 2 ^ (64 - n) % 2 = 1)
   ∧ ShiftResult .ror (fun x n => BitVec.ofNat 64 (x.toNat / 2 ^ n + x.toNat * 2 ^ (64 - n)))
     (fun x n => x.toNat / 2 ^ (n - 1) % 2 = 1))
  ∧ (let sub (x y : Word) : Flags := flagsAfter (x - y) (decide (y.toNat ≤ x.toNat)) (decide ((x - y).toInt ≠ x.toInt - y.toInt))
     (∀ (s s1 s2 : State) (a : Agent) (f : FO) (x y : Word),
       (Begins s s1 a (.cmp a f) f.cond .U → stackStep s1 a (opWord (.cmp a f)) 2 2 0 = (s2, .ok { ins := [y, x], homes := [] }) →
         Quiet s2 a 0 → Completes (.cmp a f) s (RetiresTo s2 a ((s2.core a).pc + 4)
           { restack s2 a 2 [] [] with flags := (sub x y).word }))
       ∧ (Begins s s1 a (.tst a f) f.cond .U → stackStep s1 a (opWord (.tst a f)) 2 2 0 = (s2, .ok { ins := [y, x], homes := [] }) →
         Quiet s2 a 0 → Completes (.tst a f) s (RetiresTo s2 a ((s2.core a).pc + 4)
           { restack s2 a 2 [] [] with
             flags := (flagsAfter (x &&& y) (s2.core a).fl.c (s2.core a).fl.v).word }))
       ∧ (Begins s s1 a (.cmpi a f) f.cond .U → stackStep s1 a (opWord (.cmpi a f)) 1 1 0 = (s2, .ok { ins := [x], homes := [] }) →
         Quiet s2 a 0 → Completes (.cmpi a f) s (RetiresTo s2 a ((s2.core a).pc + 4)
           { restack s2 a 1 [] [] with flags := (sub x (BitVec.ofInt 64 f.opnd.toInt)).word })))
     ∧ ∀ (s s1 s2 : State) (a : Agent) (f : FO) (home : Home),
       Begins s s1 a (.setf a f) f.cond .U → stackStep s1 a (opWord (.setf a f)) 0 0 1 = (s2, .ok { ins := [], homes := [home] }) →
       Quiet s2 a 1 →
       let fl := (s2.core a).fl
       let v : Bool := (match f.opnd.toNat % 8 with
         | 0 => true
         | 1 => fl.z
         | 2 => !fl.z
         | 3 => fl.n != fl.v
         | 4 => fl.n == fl.v
         | 5 => !fl.c
         | 6 => fl.c
         | _ => fl.v)
       Completes (.setf a f) s (RetiresTo s2 a ((s2.core a).pc + 4) (restack s2 a 0 [cond v 1 0] [home])))

/-- R101 and R103: multiply and divide by a divisor other than 0. With S = 0 only DIVS of MIN by −1 changes FLAGS: it sets V. -/
def Obligations.MultiplyDivideResults : Prop :=
  let least : Word := 0x8000000000000000#64
  let outside (p : Int) : Bool := decide (p < -(2 ^ 63)) || decide (2 ^ 63 ≤ p)
  let corner (x y : Word) : Bool := decide (x = least ∧ y = -1)
  let quot (x y : Word) : Word := if corner x y then least else BitVec.ofInt 64 (x.toInt.tdiv y.toInt)
  BinaryResult .mul (fun _ x y => x * y) (fun _ x y => decide (2 ^ 64 - 1 < x.toNat * y.toNat))
    (fun _ x y => outside (x.toInt * y.toInt))
  ∧ BinaryResult .mulhs (fun _ x y => BitVec.ofInt 64 (x.toInt * y.toInt / 2 ^ 64)) (fun _ _ _ => false) (fun _ _ _ => false)
  ∧ BinaryResult .mulhu (fun _ x y => BitVec.ofNat 64 (x.toNat * y.toNat / 2 ^ 64)) (fun _ _ _ => false) (fun _ _ _ => false)
  ∧ DivideResult .divs quot corner (fun fl x y => if corner x y then { fl with v := true } else fl)
  ∧ DivideResult .divu (fun x y => BitVec.ofNat 64 (x.toNat / y.toNat)) (fun _ _ => false) (fun fl _ _ => fl)
  ∧ DivideResult .rems (fun x y => x - y * quot x y) (fun _ _ => false) (fun fl _ _ => fl)
  ∧ DivideResult .remu (fun x y => x - y * BitVec.ofNat 64 (x.toNat / y.toNat)) (fun _ _ => false) (fun fl _ _ => fl)

/-- R102: a divide or remainder with b = 0 traps DIVZERO with EVAL 0; both operands stay on the stack and FLAGS is unchanged. One whose condition fails
retires and does not trap. -/
def Obligations.DivideByZeroTraps : Prop :=
  ∀ mk ∈ [Instr.divs, Instr.divu, Instr.rems, Instr.remu], ∀ (s s1 : State) (a : Agent) (f : FO),
    (∀ (s2 : State) (x : Word) (home : Home), Begins s s1 a (mk a f) f.cond .U →
      stackStep s1 a (opWord (mk a f)) 2 2 1 = (s2, .ok { ins := [0, x], homes := [home] }) →
      TakesTrap (mk a f) s s2 a 0x0D 0 (s2.core a).pc)
    ∧ (Fetched s s1 a (mk a f) → condHolds (s1.core a).fl f.cond = false → Quiet s1 a 0 →
      Completes (mk a f) s (RetiresTo s1 a ((s1.core a).pc + 4) (s1.core a)))

/-- (1) R83: stack manipulation, constants, DEPTH and GETSP. Operands are written as the table writes them, the top last. (2) R70, R71: SETSP spills the
stack cache and sets SP to the popped value with bits [2:0] and [63:48] ignored; a value below SL or above SB traps STACK_LIMIT. SSYNC spills the
stack cache. (3) R65, R67: popping p cached entries and pushing values moves SP by 8 for each, and the entries cached afterwards are the values
pushed, the last on top, above those that stayed, the top 32 of them; SB, SL, the other levels' stacks and every other register stay. (4) R66, R67,
R128: the entries a stack step reads are the top ones of the stack cache, when it holds them, and nothing is filled. -/
def Obligations.StackInstructionResults : Prop :=
  (Rearranges .drop 1 0 (fun _ => [])
   ∧ Rearranges .dup 1 2 (fun l => [nth l 0, nth l 0])
   ∧ Rearranges .swap 2 2 (fun l => [nth l 0, nth l 1])
   ∧ Rearranges .over 2 3 (fun l => [nth l 1, nth l 0, nth l 1])
   ∧ Rearranges .rot 3 3 (fun l => [nth l 1, nth l 0, nth l 2])
   ∧ Rearranges .nip 2 1 (fun l => [nth l 0])
   ∧ (∀ (s s1 s2 : State) (a : Agent) (f : FO) (ins : List Word) (homes : List Home),
     let n := f.opnd.toNat % 32
     (Begins s s1 a (.dupn a f) f.cond .U → stackStep s1 a (opWord (.dupn a f)) (n + 1) 0 1 = (s2, .ok { ins := ins, homes := homes }) →
       Quiet s2 a 1 → Completes (.dupn a f) s (RetiresTo s2 a ((s2.core a).pc + 4) (restack s2 a 0 [nth ins n] homes)))
     ∧ (Begins s s1 a (.dropn a f) f.cond .U → stackStep s1 a (opWord (.dropn a f)) n n 0 = (s2, .ok { ins := ins, homes := homes }) →
       Quiet s2 a 0 → Completes (.dropn a f) s (RetiresTo s2 a ((s2.core a).pc + 4) ((s2.core a).popN n)))
     ∧ (Begins s s1 a (.xchn a f) f.cond .U → stackStep s1 a (opWord (.xchn a f)) (n + 1) 0 0 = (s2, .ok { ins := ins, homes := homes }) →
       Quiet s2 a 0 → ∀ e0 en, (s2.core a).cache[0]? = some e0 → (s2.core a).cache[n]? = some en →
         Completes (.xchn a f) s (RetiresTo s2 a ((s2.core a).pc + 4)
           { s2.core a with cache := ((s2.core a).cache.set 0 { e0 with val := en.val }).set n { en with val := e0.val } }))
     ∧ (Begins s s1 a (.depth a f) f.cond .U → stackStep s1 a (opWord (.depth a f)) 0 0 1 = (s2, .ok { ins := ins, homes := homes }) →
       Quiet s2 a 1 →
         let l := (s2.core a).stkOf (s2.core a).lvl
         Completes (.depth a f) s (RetiresTo s2 a ((s2.core a).pc + 4)
           (restack s2 a 0 [BitVec.ofInt 64 (((l.sb.toNat : Int) - l.sp.toNat) / 8)] homes)))
     ∧ (Begins s s1 a (.getsp a f) f.cond .U → stackStep s1 a (opWord (.getsp a f)) 0 0 1 = (s2, .ok { ins := ins, homes := homes }) →
       Quiet s2 a 1 → Completes (.getsp a f) s (RetiresTo s2 a ((s2.core a).pc + 4)
         (restack s2 a 0 [((s2.core a).stkOf (s2.core a).lvl).sp] homes))))
   ∧ (∀ (s s1 s2 : State) (a : Agent) (f : FI) (home : Home),
     Begins s s1 a (.push a f) f.cond .U → stackStep s1 a (opWord (.push a f)) 0 0 1 = (s2, .ok { ins := [], homes := [home] }) →
     Quiet s2 a 1 → Completes (.push a f) s (RetiresTo s2 a ((s2.core a).pc + 4)
       (restack s2 a 0 [BitVec.ofInt 64 f.imm.toInt] [home])))
   ∧ ∀ (s s1 s2 : State) (a : Agent) (f : FH) (x : Word) (home : Home),
     Begins s s1 a (.pushh a f) f.cond .U → stackStep s1 a (opWord (.pushh a f)) 1 1 1 = (s2, .ok { ins := [x], homes := [home] }) →
     Quiet s2 a 1 → Completes (.pushh a f) s (RetiresTo s2 a ((s2.core a).pc + 4)
       (restack s2 a 1 [BitVec.ofNat 64 (x.toNat * 2 ^ 21 + f.imm.toNat)] [home])))
  ∧ (∀ (s s1 s2 : State) (a : Agent) (f : FO) (v : Word),
       (Begins s s1 a (.setsp a f) f.cond .U → stackStep s1 a (opWord (.setsp a f)) 1 1 0 = (s2, .ok { ins := [v], homes := [] }) →
         let k := s2.core a
         let l := k.stkOf k.lvl
         let x := v.toNat % 2 ^ 48 / 8 * 8
         (l.sl.toNat ≤ x ∧ x ≤ l.sb.toNat → (∃ c, a = .cord c) → Quiet s2 a k.cache.length →
           Completes (.setsp a f) s (RetiresTo s2 a (k.pc + 4)
             (((k.popN 1).spillAll (s2.agentTenant a)).setStkOf k.lvl { l with sp := BitVec.ofNat 64 x })))
         ∧ (x < l.sl.toNat ∨ l.sb.toNat < x → TakesTrap (.setsp a f) s s2 a 0x06 l.sp k.pc))
       ∧ (Begins s s1 a (.ssync a f) f.cond .U → (∃ c, a = .cord c) → (s1.core a).stackOk (s1.core a).lvl 0 0 = true →
         Quiet s1 a (s1.core a).cache.length →
         Completes (.ssync a f) s (RetiresTo s1 a ((s1.core a).pc + 4) ((s1.core a).spillAll (s1.agentTenant a)))))
  ∧ (∀ (k : Core) (tenant p : Nat) (vs : List (Word × Home)),
       p ≤ k.cache.length → k.cache.length ≤ 32 → 8 * vs.length ≤ k.sp + 8 * p → k.sp + 8 * p < 2 ^ 64 →
       let k' := k.replace tenant p vs
       k'.sp = k.sp + 8 * p - 8 * vs.length
       ∧ k'.cache.map SEnt.val = ((vs.map Prod.fst).reverse ++ (k.cache.drop p).map SEnt.val).take 32
       ∧ (∀ m, (k'.stkOf m).sb = (k.stkOf m).sb ∧ (k'.stkOf m).sl = (k.stkOf m).sl ∧ (m ≠ k.lvl → (k'.stkOf m).sp = (k.stkOf m).sp))
       ∧ (k'.pc, k'.flags, k'.fcsr, k'.retire, k'.lvl, k'.ee, k'.trS, k'.trH, k'.ptbr, k'.s2br)
         = (k.pc, k.flags, k.fcsr, k.retire, k.lvl, k.ee, k.trS, k.trH, k.ptbr, k.s2br)
       ∧ k'.ags = k.ags ∧ k'.run = k.run)
  ∧ (∀ (s : State) (a : Agent) (w : InsnWord) (reads pops : Nat),
       let k := s.core a
       reads ≤ k.cache.length → k.stackOk k.lvl reads (reads - pops) = true →
       stackStep s a w reads pops 0 = (s, .ok { ins := (k.cache.take reads).map SEnt.val, homes := [] }))

/-- R66: an instruction that pops p entries and pushes q traps STACK_LIMIT, with EVAL equal to SP and SP unchanged, unless the depth is at least p and SP
+ 8p − 8q is at least SL, computed exactly. -/
def Obligations.StackLimitChecks : Prop :=
  ∀ (s : State) (a : Agent) (w : InsnWord) (p q : Nat),
    let k := s.core a
    let l := k.stkOf k.lvl
    (((l.sb.toNat : Int) - l.sp.toNat) / 8 < p ∨ (l.sp.toNat : Int) + 8 * p - 8 * q < l.sl.toNat →
      stackStep s a w p p q = (s, .trap { cause := trap.STACK_LIMIT, eval := l.sp }))
    ∧ (∀ s2 st, stackStep s a w p p q = (s2, .ok st) →
      (p : Int) ≤ ((l.sb.toNat : Int) - l.sp.toNat) / 8 ∧ (l.sl.toNat : Int) ≤ (l.sp.toNat : Int) + 8 * p - 8 * q)

/-- (1) R78: an instruction whose condition fails pops nothing, pushes nothing and changes no state: PC advances by 4, and it retires and is counted in
the retire count and in the ledger's RETIRED counter. (2) R79, R81: an instruction whose word has an ill-formed field, and an undefined word, trap
ILLEGAL with the word in EVAL, whatever COND. (3) R79 step 5: an instruction below its level traps PRIV with the word in EVAL. The others have the
level U or the level of a control register. (4) UNDEFINED_ENCODING of a word that spells an instruction is refused: that word is the instruction's own
row (the model's choice, log 3). -/
def Obligations.InstructionChecksTrap : Prop :=
  (∀ (i : Instr) (a : Agent) (cond : BitVec 3) (s s1 : State), conditionOf i = some (a, cond) → Fetched s s1 a i →
     condHolds (s1.core a).fl cond = false → Quiet s1 a 0 →
     Completes i s (RetiresTo s1 a ((s1.core a).pc + 4) (s1.core a)))
  ∧ ((∀ (i : Instr) (a : Agent) (cond : BitVec 3) (s s1 : State), conditionOf i = some (a, cond) → i.ok = false →
       canRun s a = true → ((makeRoom s a).core a).brks.find? (fun e => e.2 == ((makeRoom s a).core a).pc) = none →
       fetchAt (makeRoom s a) a = (s1, .ok ()) → ((makeRoom s a).core a).knot = none →
       TakesTrap i s s1 a 0x01 ((opWord i).setWidth 64) (s1.core a).pc)
     ∧ ∀ (a : Agent) (w : InsnWord) (s s1 : State), insnOf a w = none → canRun s a = true →
       (s.core a).brks.find? (fun e => e.2 == (s.core a).pc) = none → fetchAt s a = (s1, .ok ()) →
       TakesTrap (.undefinedEncoding a w) s s1 a 0x01 (w.setWidth 64) (s1.core a).pc)
  ∧ ((∀ mk ∈ [Instr.tret, Instr.retg, Instr.tlbiVa, Instr.tlbiAsid, Instr.tlbiS1all, Instr.tlbsync], ∀ (s s1 : State) (a : Agent) (f : FO),
       Fetched s s1 a (mk a f) → condHolds (s1.core a).fl f.cond = true → ((makeRoom s a).core a).knot = none → (s1.core a).lvl = .U →
       TakesTrap (mk a f) s s1 a 0x02 ((opWord (mk a f)).setWidth 64) (s1.core a).pc)
     ∧ (∀ mk ∈ [Instr.tlbiIpa, Instr.tlbiTenant], ∀ (s s1 : State) (a : Agent) (f : FO),
       Fetched s s1 a (mk a f) → condHolds (s1.core a).fl f.cond = true → ((makeRoom s a).core a).knot = none → (s1.core a).lvl ≠ .H →
       TakesTrap (mk a f) s s1 a 0x02 ((opWord (mk a f)).setWidth 64) (s1.core a).pc)
     ∧ (∀ (s s1 : State) (a : Agent) (f : FL), Fetched s s1 a (.inval a f) → condHolds (s1.core a).fl f.cond = true →
       ((makeRoom s a).core a).knot = none → (s1.core a).lvl ≠ .H →
       TakesTrap (.inval a f) s s1 a 0x02 ((opWord (.inval a f)).setWidth 64) (s1.core a).pc))
  ∧ (∀ (s : State) (a : Agent) (w : InsnWord), (∃ i, insnOf a w = some i) → exec (.undefinedEncoding a w) s = .refused .definedWord)

/-- (1) R90: branches, calls and returns. A target whose bits [1:0] are not zero traps ALIGN with the target in EVAL. (2) R82, R90, R129, R141: NOP and
LBAR retire and do nothing else; so do CINCH and SLIP outside a knot, where KTEST pushes 0. (3) R66: an instruction that pops and pushes nothing makes
the stack check all the same, and traps STACK_LIMIT with EVAL equal to SP when it fails. -/
def Obligations.TransfersReachTargetsOrTrap : Prop :=
  ((∀ (s s1 s2 : State) (a : Agent) (f : FB),
     let k := s2.core a
     (Begins s s1 a (.b a f) f.cond .U → stackStep s1 a (opWord (.b a f)) 0 0 0 = (s2, .ok { ins := [], homes := [] }) → Quiet s2 a 0 →
       Completes (.b a f) s (RetiresTo s2 a (k.pc + BitVec.ofInt 64 (4 * f.off.toInt)) k))
     ∧ ∀ home, Begins s s1 a (.call a f) f.cond .U →
       stackStep s1 a (opWord (.call a f)) 0 0 1 = (s2, .ok { ins := [], homes := [home] }) → Quiet s2 a 1 →
       Completes (.call a f) s (RetiresTo s2 a (k.pc + BitVec.ofInt 64 (4 * f.off.toInt)) (restack s2 a 0 [k.pc + 4] [home])))
   ∧ (∀ mk ∈ [Instr.jmp, Instr.ret], ∀ (s s1 s2 : State) (a : Agent) (f : FO) (x : Word),
     Begins s s1 a (mk a f) f.cond .U → stackStep s1 a (opWord (mk a f)) 1 1 0 = (s2, .ok { ins := [x], homes := [] }) →
     (x.toNat % 4 = 0 → Quiet s2 a 0 → Completes (mk a f) s (RetiresTo s2 a x ((s2.core a).popN 1)))
     ∧ (x.toNat % 4 ≠ 0 → TakesTrap (mk a f) s s2 a 0x03 x (s2.core a).pc))
   ∧ ∀ (s s1 s2 : State) (a : Agent) (f : FO) (x : Word) (home : Home),
     Begins s s1 a (.calli a f) f.cond .U →
     stackStep s1 a (opWord (.calli a f)) 1 1 1 = (s2, .ok { ins := [x], homes := [home] }) →
     (x.toNat % 4 = 0 → Quiet s2 a 1 →
       Completes (.calli a f) s (RetiresTo s2 a x (restack s2 a 1 [(s2.core a).pc + 4] [home])))
     ∧ (x.toNat % 4 ≠ 0 → TakesTrap (.calli a f) s s2 a 0x03 x (s2.core a).pc))
  ∧ ((∀ mk ∈ [Instr.nop, Instr.lbar, Instr.cinch, Instr.slip], ∀ (s s1 : State) (a : Agent) (f : FO),
       Begins s s1 a (mk a f) f.cond .U → (s1.core a).stackOk (s1.core a).lvl 0 0 = true → Quiet s1 a 0 →
       Completes (mk a f) s (RetiresTo s1 a ((s1.core a).pc + 4) (s1.core a)))
     ∧ ∀ (s s1 s2 : State) (a : Agent) (f : FO) (home : Home),
       Begins s s1 a (.ktest a f) f.cond .U →
       stackStep s1 a (opWord (.ktest a f)) 0 0 1 = (s2, .ok { ins := [], homes := [home] }) → Quiet s2 a 1 →
       Completes (.ktest a f) s (RetiresTo s2 a ((s2.core a).pc + 4) (restack s2 a 0 [0] [home])))
  ∧ (∀ mk ∈ [Instr.nop, Instr.lbar, Instr.cinch, Instr.slip, Instr.sbar, Instr.fbar, Instr.waite, Instr.ssync, Instr.syscall, Instr.break],
       ∀ (s s1 : State) (a : Agent) (f : FO), Begins s s1 a (mk a f) f.cond .U → (s1.core a).stackOk (s1.core a).lvl 0 0 = false →
       TakesTrap (mk a f) s s1 a 0x06 ((s1.core a).stkOf (s1.core a).lvl).sp (s1.core a).pc)

/-- (1) R72: RDCR pushes the control register it names; WRCR of any register but the current level's SP pops a value and writes its defined bits, and
every other control register but the current SP and RETIRE reads as before; a reserved encoding traps ILLEGAL with the register number. (2) R82:
RDTIME pushes LOOM_PICK.PICK × 12,800 plus the rclk since the pick boundary. (3) R82: RDAG pushes a part of an address generator; WRAG pops a value
into one and leaves the other parts and generators; BRK above 32 traps ILLEGAL with the value. -/
def Obligations.ControlRegistersReadAndWritten : Prop :=
  ((∀ (s s1 s2 : State) (a : Agent) (f : FO) (home : Home) (lvl : Level) (v : Word),
     crReadLevel f.opnd.toNat = some lvl → Begins s s1 a (.rdcr a f) f.cond lvl →
     stackStep s1 a (opWord (.rdcr a f)) 0 0 1 = (s2, .ok { ins := [], homes := [home] }) → Quiet s2 a 1 →
     crValue s2 a f.opnd.toNat = some v →
     Completes (.rdcr a f) s (RetiresTo s2 a ((s2.core a).pc + 4) (restack s2 a 0 [v] [home])))
   ∧ ∀ (s s1 s2 : State) (a : Agent) (f : FO) (v : Word) (lvl : Level),
     let n := f.opnd.toNat
     let reserved : Prop := (n = 2 ∧ 4 < v.toNat % 8) ∨ ((n = 0x22 ∨ n = 0x2A) ∧ (0x10 < v.toNat % 256 ∨ v.toNat / 256 % 4 = 3))
     crWriteLevel n = some lvl → n ≠ spNumber (s2.core a).lvl → Begins s s1 a (.wrcr a f) f.cond lvl →
     stackStep s1 a (opWord (.wrcr a f)) 1 1 0 = (s2, .ok { ins := [v], homes := [] }) →
     (reserved → TakesTrap (.wrcr a f) s s2 a 0x01 (BitVec.ofNat 64 n) (s2.core a).pc)
     ∧ (¬ reserved → Quiet s2 a 0 → Completes (.wrcr a f) s fun t =>
         (∃ k', RetiresTo s2 a ((s2.core a).pc + 4) k' t)
         ∧ (t.core a).sp = ((s2.core a).popN 1).sp
         ∧ (n ≠ 1 → crValue t a n = some (v &&& crDefined n))
         ∧ (n = 1 → (t.core a).ee = v.getLsbD 2 ∧ (t.core a).lvl = (s2.core a).lvl ∧ (t.core a).knot = (s2.core a).knot)
         ∧ ∀ m, m ≠ n → m ≠ 4 → m ≠ spNumber (s2.core a).lvl → crValue t a m = crValue s2 a m))
  ∧ (∀ (s s1 s2 : State) (a : Agent) (f : FO) (home : Home),
       Begins s s1 a (.rdtime a f) f.cond .U →
       stackStep s1 a (opWord (.rdtime a f)) 0 0 1 = (s2, .ok { ins := [], homes := [home] }) → Quiet s2 a 1 → s2.recording = false →
       Completes (.rdtime a f) s (RetiresTo s2 a ((s2.core a).pc + 4)
         (restack s2 a 0 [BitVec.ofNat 64 (s2.get LOOM_PICK.PICK * 12800 + (s2.time.now - s2.time.pickStart))] [home])))
  ∧ (let part (g : AG) : List Word := [g.base, g.idx, g.step, g.len, g.brk]
     (∀ (s s1 s2 : State) (a : Agent) (f : FO) (home : Home) (v : Word),
       Begins s s1 a (.rdag a f) f.cond .U →
       stackStep s1 a (opWord (.rdag a f)) 0 0 1 = (s2, .ok { ins := [], homes := [home] }) → Quiet s2 a 1 →
       (part ((s2.core a).ag (f.opnd.toNat / 8 % 8)))[f.opnd.toNat % 8]? = some v →
       Completes (.rdag a f) s (RetiresTo s2 a ((s2.core a).pc + 4) (restack s2 a 0 [v] [home])))
     ∧ ∀ (s s1 s2 : State) (a : Agent) (f : FO) (v : Word),
       let i := f.opnd.toNat / 8 % 8
       let p := f.opnd.toNat % 8
       Begins s s1 a (.wrag a f) f.cond .U →
       stackStep s1 a (opWord (.wrag a f)) 1 1 0 = (s2, .ok { ins := [v], homes := [] }) →
       (p = 4 → 32 < v.toNat → TakesTrap (.wrag a f) s s2 a 0x01 v (s2.core a).pc)
       ∧ (p ≠ 4 ∨ v.toNat ≤ 32 → Quiet s2 a 0 → Completes (.wrag a f) s fun t =>
           (∃ g, RetiresTo s2 a ((s2.core a).pc + 4) { (s2.core a).popN 1 with ags := g } t)
           ∧ part ((t.core a).ag i) = (part ((s2.core a).ag i)).set p v
           ∧ ∀ j, j ≠ i → (t.core a).ag j = (s2.core a).ag j))

/-- (1) R93, R94: SYSCALL traps SYSCALL with EVAL its OPND and EPC the next instruction; BREAK traps DEBUG with EVAL its OPND and EPC its own address.
Neither retires. (2) R93: the level that a trap enters: H from H; H for PAGE_S2, BUS_DARK, ADDR_HOLE, MACHINE_CHECK and DEBUG; for SYSCALL S from U
and H from S; for EVENT S, but H on cords of tenant 0x000; S for every other cause. (3) R94: a trap that would enter H while H_ESTAT.ACTIVE is 1 halts
the cord: SYSCALL at H. TRI_STAT shows it halted. -/
def Obligations.TrapsEnterTheirLevel : Prop :=
  (∀ (s s1 : State) (a : Agent) (f : FO),
     (Begins s s1 a (.syscall a f) f.cond .U → (s1.core a).stackOk (s1.core a).lvl 0 0 = true →
       TakesTrap (.syscall a f) s s1 a 0x0F (BitVec.ofNat 64 f.opnd.toNat) ((s1.core a).pc + 4))
     ∧ (Begins s s1 a (.break a f) f.cond .U → (s1.core a).stackOk (s1.core a).lvl 0 0 = true →
       TakesTrap (.break a f) s s1 a 0x0E (BitVec.ofNat 64 f.opnd.toNat) (s1.core a).pc))
  ∧ (∀ (cause : Nat) (lvl : Level) (tenant : Nat), 1 ≤ cause → cause ≤ 0x10 →
       (lvl = .H → routeOf cause lvl tenant = .H)
       ∧ (lvl ≠ .H → cause ∈ [0x05, 0x07, 0x08, 0x0A, 0x0E] → routeOf cause lvl tenant = .H)
       ∧ (cause = 0x0F → (lvl = .U → routeOf cause lvl tenant = .S) ∧ (lvl = .S → routeOf cause lvl tenant = .H))
       ∧ (lvl ≠ .H → cause = 0x10 → routeOf cause lvl tenant = if tenant = 0 then .H else .S)
       ∧ (lvl ≠ .H → cause ∈ [0x01, 0x02, 0x03, 0x04, 0x06, 0x09, 0x0B, 0x0C, 0x0D] → routeOf cause lvl tenant = .S))
  ∧ (∀ (s s1 : State) (c : Nat) (f : FO), Begins s s1 (.cord c) (.syscall (.cord c) f) f.cond .U →
       (s1.cord c).lvl = .H → (s1.cord c).trH.active = true → c < s1.cordCount → (s1.cord c).stackOk .H 0 0 = true →
       (haltCord s1 (s1.triadOf c) (s1.shareOf c)).wants = [] →
       Completes (.syscall (.cord c) f) s fun t => t = haltCord s1 (s1.triadOf c) (s1.shareOf c))

/-- (1) R95: TRET restores the level from ESTAT.PLEV and EE from ESTAT.PEE, clears ACTIVE, resumes at EPC, and spills the stack cache when the level
changes; with ESTAT.PLEV above the level it traps PRIV. R100: a Shuttle stays at H. (2) R96: GATE n with a arguments enters the next higher level at
the PC of its entry, with return address, old PSTATE and the arguments, in their original order, on the stack of that level; it traps PRIV at H and
for n ≥ NGATE. (3) R96: RETG r pops r results, the old PSTATE and the return address, returns to the level of the old PSTATE with its EE, and pushes
the results there in their original order; it traps PRIV unless that level is lower, and ALIGN for an unaligned return address. -/
def Obligations.ReturnsAndGatesChangeLevel : Prop :=
  (∀ (s s1 : State) (a : Agent) (f : FO), Begins s s1 a (.tret a f) f.cond .S →
     let k := s1.core a
     let r := k.trOf k.lvl
     let p := r.estat.toNat / 256 % 4
     let dst : Level := match a with
       | .cord _ => lvlOfCode p
       | .shuttle _ => .H
     k.stackOk k.lvl 0 0 = true →
     (lvlCode k.lvl < p → TakesTrap (.tret a f) s s1 a 0x02 ((opWord (.tret a f)).setWidth 64) k.pc)
     ∧ (p ≤ lvlCode k.lvl → (∃ c, a = .cord c) ∨ k.lvl = .H → Quiet s1 a k.cache.length →
       let k1 := if dst = k.lvl then k else k.spillAll (s1.agentTenant a)
       Completes (.tret a f) s (RetiresTo s1 a r.epc
         { k1.setTr k.lvl { r with estat := r.estat &&& ~~~0x800#64 } with
           lvl := dst, ee := r.estat.getLsbD 10 })))
  ∧ (∀ (s s1 : State) (c : Nat) (f : FO), Begins s s1 (.cord c) (.gate (.cord c) f) f.cond .U →
       let k := s1.cord c
       let n := f.opnd.toNat / 256
       let args := f.opnd.toNat % 8
       let dst : Level := if k.lvl = .U then .S else .H
       let g := (k.trOf dst).gate.toNat
       let entry : Word := BitVec.ofNat 64 (g / 2 ^ 12 % 2 ^ 36 * 4096 + 16 * n)
       let word := (opWord (.gate (.cord c) f)).setWidth 64
       (k.lvl = .H ∨ g % 256 ≤ n → TakesTrap (.gate (.cord c) f) s s1 (.cord c) 0x02 word k.pc)
       ∧ (k.lvl ≠ .H → n < g % 256 → ∀ (s2 s3 s4 s5 : State) (pc who : Nat) (homes : List Home),
         loadAt s1 (.cord c) (opWord (.gate (.cord c) f)) dst entry 8 = (s2, .ok (.now pc)) →
         loadAt s2 (.cord c) (opWord (.gate (.cord c) f)) dst (entry + 8) 8 = (s3, .ok (.now who)) → pc < 2 ^ 64 → who < 2 ^ 64 →
         who / 2 ^ lvlCode k.lvl % 2 = 1 → pc % 4 = 0 →
         (args : Int) ≤ k.depth → k.stackOk dst 0 (args + 2) = true →
         fillTo s3 (.cord c) (opWord (.gate (.cord c) f)) args args = (s4, .ok ()) →
         homesBelow s4 (.cord c) (opWord (.gate (.cord c) f)) dst (k.stkOf dst).sp.toNat (args + 2) = (s5, .ok homes) →
         Quiet s5 (.cord c) ((s5.cord c).cache.length + args + 2) →
         let k5 := s5.cord c
         let vals := (k5.pc + 4) :: k5.pstate :: ((k5.cache.take args).map SEnt.val).reverse
         Completes (.gate (.cord c) f) s (RetiresTo s5 (.cord c) (BitVec.ofNat 64 pc)
           (({ (k5.popN args).spillAll (s5.tenantOf c) with lvl := dst, pc := BitVec.ofNat 64 pc } : Core).replace (s5.tenantOf c) 0
             (vals.zip homes)))))
  ∧ (∀ (s s1 s2 : State) (c : Nat) (f : FO) (ins : List Word), Begins s s1 (.cord c) (.retg (.cord c) f) f.cond .S →
       let r := f.opnd.toNat % 8
       let a : Agent := .cord c
       stackStep s1 a (opWord (.retg a f)) (r + 2) (r + 2) 0 = (s2, .ok { ins := ins, homes := [] }) →
       let lvl := (s1.cord c).lvl
       let ret := nth ins (r + 1)
       let ps := (nth ins r).toNat
       (lvlCode lvl ≤ ps % 4 → TakesTrap (.retg a f) s s2 a 0x02 ((opWord (.retg a f)).setWidth 64) (s2.cord c).pc)
       ∧ (ps % 4 < lvlCode lvl → (s1.cord c).stackOk (lvlOfCode (ps % 4)) 0 r = true →
         (ret.toNat % 4 ≠ 0 → TakesTrap (.retg a f) s s2 a 0x03 ret (s2.cord c).pc)
         ∧ (ret.toNat % 4 = 0 → ∀ (s3 : State) (homes : List Home),
           homesBelow s2 a (opWord (.retg a f)) (lvlOfCode (ps % 4)) ((s1.cord c).stkOf (lvlOfCode (ps % 4))).sp.toNat r = (s3, .ok homes) →
           Quiet s3 a ((s3.cord c).cache.length + r) →
           Completes (.retg a f) s (RetiresTo s3 a ret
             (({ ((s3.cord c).popN (r + 2)).spillAll (s3.tenantOf c) with
                 lvl := lvlOfCode (ps % 4), ee := decide (ps / 4 % 2 = 1) } : Core).replace (s3.tenantOf c) 0
               ((ins.take r).reverse.zip homes))))))

/-- (1) R82, R97: WAITE retires at once when the cord's event queue holds a record, else the cord waits, and WAITE_WAKE retires it once a record has come;
EVPOP takes the oldest record and pushes value and descriptor, 0 and 0 from an empty queue. (2) R98, R99: an event record arriving at a queue with
room and no discards is appended; at a full one it is discarded and counted; when space has returned after discards, one OVERFLOW record that holds
their count is queued first. (3) R82: SIGNAL queues a record of TYPE 3 with the sender's value for the target cord, under the tenant that holds it,
0x000 when none does; from U or S a target outside the sender's tenant traps PRIV, and at any level a cord that does not exist (at H the model's
choice, log 40). (4) R95, R97: between two instructions a cord with EE 1, outside a knot, a record queued and a level not above its event level takes
EVENT, with the records queued in EVAL; with PEND set it lets an FSYNC that comes next trap FP_IMPRECISE first (R113). -/
def Obligations.EventsQueueWakeAndTrap : Prop :=
  ((∀ (s s1 : State) (c : Nat) (f : FO), Begins s s1 (.cord c) (.waite (.cord c) f) f.cond .U →
     (s1.cord c).stackOk (s1.cord c).lvl 0 0 = true →
     let q := s1.evq (s1.tenantOf c) c
     (q.recs ≠ [] → Quiet s1 (.cord c) 0 →
       Completes (.waite (.cord c) f) s (RetiresTo s1 (.cord c) ((s1.cord c).pc + 4) (s1.cord c)))
     ∧ (q.recs = [] → s1.wants = [] → Completes (.waite (.cord c) f) s fun t => t = s1.setCord c { s1.cord c with run := .waitEvent }))
   ∧ (∀ (s : State) (c : Nat), (s.cord c).run = .waitEvent → (s.cord c).paused = false → (s.evq (s.tenantOf c) c).recs ≠ [] → Quiet s (.cord c) 0 →
     Completes (.waiteWake c) s (RetiresTo s (.cord c) ((s.cord c).pc + 4) { s.cord c with run := (s.cord c).goes }))
   ∧ ∀ (s s1 s2 : State) (c : Nat) (f : FO) (h1 h2 : Home), Begins s s1 (.cord c) (.evpop (.cord c) f) f.cond .U →
     stackStep s1 (.cord c) (opWord (.evpop (.cord c) f)) 0 0 2 = (s2, .ok { ins := [], homes := [h1, h2] }) → Quiet s2 (.cord c) 2 →
     let q := s2.evq (s2.tenantOf c) c
     let front : Word × Word := q.recs.headD (0, 0)
     Completes (.evpop (.cord c) f) s fun t =>
       RetiresTo (evqPop s2 c) (.cord c) ((s2.cord c).pc + 4) (restack s2 (.cord c) 0 [front.1, front.2] [h1, h2]) t
       ∧ (q.lost = 0 → (t.evq (s2.tenantOf c) c).recs = q.recs.tail))
  ∧ (∀ (s : State) (tenant cord : Nat) (value desc : Word), cord < 128 →
       let q := s.evq tenant cord
       let t := evqQueue s tenant cord value desc
       (s.get (CHS_EVQ.QUOTA cord) ≤ evqUsed s cord → t.evq tenant cord = { recs := q.recs, lost := q.lost + 1 })
       ∧ (evqUsed s cord < s.get (CHS_EVQ.QUOTA cord) → q.lost = 0 →
         t.evq tenant cord = { recs := q.recs ++ [(value, desc)], lost := 0 })
       ∧ (q.lost ≠ 0 → evqUsed s cord < s.get (CHS_EVQ.QUOTA cord) →
         (t.evq tenant cord).recs.take (q.recs.length + 1)
           = q.recs ++ [(BitVec.ofNat 64 q.lost, BitVec.ofNat 64 (0x05 + 2 ^ 63))])
       ∧ (∀ x c, (x, c) ≠ (tenant, cord) → c < 128 → t.evq x c = s.evq x c)
       ∧ t.mem = s.mem ∧ t.cords = s.cords)
  ∧ (∀ (s s1 s2 : State) (c : Nat) (f : FO) (v target : Word), Begins s s1 (.cord c) (.signal (.cord c) f) f.cond .U →
       stackStep s1 (.cord c) (opWord (.signal (.cord c) f)) 2 2 0 = (s2, .ok { ins := [v, target], homes := [] }) →
       let n := target.toNat
       let may : Prop := n < s2.cordCount ∧ ((s2.cord c).lvl = .H ∨ (s2.assigned n = true ∧ s2.tenantOf n = s2.tenantOf c))
       (¬ may → TakesTrap (.signal (.cord c) f) s s2 (.cord c) 0x02 ((opWord (.signal (.cord c) f)).setWidth 64) (s2.cord c).pc)
       ∧ (may → Quiet s2 (.cord c) 0 → s2.recording = false →
         Completes (.signal (.cord c) f) s (RetiresTo
           (evqQueue s2 (if s2.assigned n then s2.tenantOf n else 0) n v
             (BitVec.ofNat 64 (3 + c % 2 ^ 16 * 2 ^ 32 + 2 ^ 63))) (.cord c) ((s2.cord c).pc + 4) ((s2.cord c).popN 2))))
  ∧ (∀ (s : State) (c : Nat), canRun s (.cord c) = true → (s.cord c).answers = [] → (s.cord c).ee = true → (s.cord c).knot = none →
       (s.evq (s.tenantOf c) c).recs ≠ [] → ((s.cord c).lvl ≠ .H ∨ s.tenantOf c = 0) →
       ((s.cord c).fcsr.toNat / 2 ^ 24 % 32 = 0 →
         TakesTrap (.eventTrap c) s s (.cord c) 0x10 (BitVec.ofNat 64 (s.evq (s.tenantOf c) c).recs.length) (s.cord c).pc)
       ∧ ((s.cord c).fcsr.toNat / 2 ^ 24 % 32 ≠ 0 → ∀ (u : State) (w : InsnWord), fetchWord s c = (u, .ok w) →
         let fsync : Prop := ∃ f, insnOf (.cord c) w = some (.fsync (.cord c) f) ∧ condHolds (s.cord c).fl f.cond = true
         (fsync → u.wants = [] → Completes (.eventTrap c) s (· = u))
         ∧ (¬ fsync →
           TakesTrap (.eventTrap c) s u (.cord c) 0x10 (BitVec.ofNat 64 (u.evq (u.tenantOf c) c).recs.length) (u.cord c).pc)))

/-- R125: a TLBI of a cord is issued, to be applied; TLBSYNC retires when the cord has none outstanding and no channel command uses a translation
that was invalidated (R205), and waits otherwise; TLBSYNC_COMPLETE applies the cord's invalidations, so that no TLB holds an entry they hit, and ends
the wait once no command uses such a translation. -/
def Obligations.TlbInvalidationsTakeEffect : Prop :=
  (∀ (s s1 s2 : State) (c : Nat) (f : FO) (x y : Word),
    let a : Agent := .cord c
    let now := if (s2.cord c).lvl = .H then 0 else s2.tenantOf c
    let issues (mk : Agent → FO → Instr) (lvl : Level) (ins : List Word) (i : TlbInv) : Prop :=
      Begins s s1 a (mk a f) f.cond lvl →
      stackStep s1 a (opWord (mk a f)) ins.length ins.length 0 = (s2, .ok { ins := ins, homes := [] }) → Quiet s2 a 0 →
      Completes (mk a f) s
        (RetiresTo { s2 with tlbi := s2.tlbi ++ [(c, i)] } a ((s2.cord c).pc + 4) ((s2.cord c).popN ins.length))
    issues .tlbiVa .S [x] (.va now (x.toNat / 4096) ((s2.cord c).ptbr.toNat / 2 ^ 52 % 4096))
    ∧ issues .tlbiAsid .S [x] (.asid now (x.toNat % 4096))
    ∧ issues .tlbiS1all .S [] (.s1all now)
    ∧ issues .tlbiIpa .H [x, y] (.ipa (x.toNat % 1024) (y.toNat / 4096))
    ∧ issues .tlbiTenant .H [x] (.tenant (x.toNat % 1024)))
  ∧ (∀ (s s1 : State) (c : Nat) (f : FO), Begins s s1 (.cord c) (.tlbsync (.cord c) f) f.cond .S →
    (s1.cord c).stackOk (s1.cord c).lvl 0 0 = true →
    ((∀ e ∈ s1.tlbi, e.1 ≠ c) → (∀ e ∈ s1.chs.cells, e.2.stale = false) → Quiet s1 (.cord c) 0 →
      Completes (.tlbsync (.cord c) f) s (RetiresTo s1 (.cord c) ((s1.cord c).pc + 4) (s1.cord c)))
    ∧ ((∃ e ∈ s1.tlbi, e.1 = c) ∨ (∃ e ∈ s1.chs.cells, e.2.stale = true) → s1.wants = [] →
      Completes (.tlbsync (.cord c) f) s fun t => t = s1.setCord c { s1.cord c with run := .waitTlb }))
  ∧ ∀ (s : State) (c : Nat), (s.cord c).run = .waitTlb → (s.cord c).paused = false → Quiet s (.cord c) 0 →
    (staleOps (applyInvs s c) = false → Completes (.tlbsyncComplete c) s fun t =>
      RetiresTo { s with tlb := t.tlb, tlbi := t.tlbi } (.cord c) ((s.cord c).pc + 4) { s.cord c with run := (s.cord c).goes } t
      ∧ (∀ e ∈ t.tlb, e ∈ s.tlb ∧ ∀ i, (c, i) ∈ s.tlbi → i.hits e = false)
      ∧ (∀ e, e ∈ t.tlbi ↔ e ∈ s.tlbi ∧ e.1 ≠ c))
    ∧ (staleOps (applyInvs s c) = true → Completes (.tlbsyncComplete c) s fun t =>
      t.cord c = s.cord c ∧ (∀ e ∈ t.tlb, e ∈ s.tlb ∧ ∀ i, (c, i) ∈ s.tlbi → i.hits e = false)
      ∧ (∀ e, e ∈ t.tlbi ↔ e ∈ s.tlbi ∧ e.1 ≠ c))

/-- (1) R147: a slip discards the knot's stores, restores SP and the stack cache to their state at KNOT, pushes the slip word, closes the knot and
continues at the handler; FLAGS, FCSR, the address generators and the retire count keep their values. (2) R146: inside a knot these instructions slip
it with cause UNSUPPORTED_OP and do not retire; BREAK slips with cause DEBUG, and the debug stop is taken at the handler (that it is taken there, and
how, is the model's reading, log 36). (3) R141, R145, R147, R148: KNOT with no earlier store outstanding
records handler, SP and stack cache, drops the reservation and opens the knot; CINCH inside a knot waits; CINCH_COMMIT, once every store has left the
buffer, puts the write set into its lines and closes the knot; SLIP inside a knot retires and slips with cause EXPLICIT; KNOT_AGE_EXPIRY slips a knot
two picks old with cause AGE. -/
def Obligations.KnotsOpenCommitAndSlip : Prop :=
  (∀ (k : Core) (tenant cause code : Nat) (kn : Knot), k.knot = some kn → kn.cache.length < 32 → 8 ≤ kn.sp.toNat → cause < 256 →
     code < 256 →
     let k' := k.slip tenant cause code
     k'.knot = none ∧ k'.pc = kn.handler ∧ k'.sbuf = k.sbuf.filter (fun e => !e.knot)
     ∧ k'.sp = kn.sp.toNat - 8
     ∧ k'.cache = { val := BitVec.ofNat 64 (cause + if cause = 7 then code * 256 else 0), home := kn.home.pa, attr := kn.home.attr } :: kn.cache
     ∧ (k'.flags, k'.fcsr, k'.retire, k'.lvl, k'.ee) = (k.flags, k.fcsr, k.retire, k.lvl, k.ee) ∧ k'.ags = k.ags)
  ∧ ((∀ mk ∈ [Instr.waite, Instr.evpop, Instr.signal, Instr.knot, Instr.syscall, Instr.gate], ∀ (s s1 : State) (c : Nat) (f : FO),
       BeginsInKnot s s1 (.cord c) (mk (.cord c) f) f.cond → (mk = .gate → (s.cord c).lvl ≠ .H) →
       Completes (mk (.cord c) f) s fun t => t = s1.setCord c ((s1.cord c).slip (s1.tenantOf c) 8 0))
     ∧ (∀ mk ∈ [Instr.loadReserved, Instr.storeConditional], ∀ (s s1 : State) (c : Nat) (f : FM),
       BeginsInKnot s s1 (.cord c) (mk (.cord c) f) f.cond →
       Completes (mk (.cord c) f) s fun t => t = s1.setCord c ((s1.cord c).slip (s1.tenantOf c) 8 0))
     ∧ (∀ (s s1 : State) (c : Nat) (f : FO), BeginsInKnot s s1 (.cord c) (.break (.cord c) f) f.cond →
       Completes (.break (.cord c) f) s fun t =>
         t = s1.setCord c { (s1.cord c).slip (s1.tenantOf c) 9 0 with run := .debug, dbg := true }))
  ∧ ((∀ (s s1 s2 : State) (c : Nat) (f : FO) (home : Home), Begins s s1 (.cord c) (.knot (.cord c) f) f.cond .U →
       let k := s1.cord c
       k.stackOk k.lvl 0 1 = true →
       homeAt s1 (.cord c) (opWord (.knot (.cord c) f)) k.lvl (k.sp - 8) = (s2, .ok home) → (s2.cord c).sbuf = [] → (s2.cord c).bounced = [] →
       Quiet s2 (.cord c) 0 →
       let k2 := s2.cord c
       Completes (.knot (.cord c) f) s (RetiresTo s2 (.cord c) (k2.pc + 4) { k2 with
         resv := none
         knot := some { handler := k.pc + BitVec.ofInt 64 (4 * f.opnd.toInt), home := home, sp := (k2.stkOf k2.lvl).sp
                        cache := k2.cache, opened := s2.time.now, reads := [], writes := [], bytes := [] } }))
     ∧ (∀ (s s1 : State) (c : Nat) (f : FO), BeginsInKnot s s1 (.cord c) (.cinch (.cord c) f) f.cond →
       (s1.cord c).stackOk (s1.cord c).lvl 0 0 = true →
       Completes (.cinch (.cord c) f) s fun t => t = s1.setCord c { s1.cord c with run := .waitCinch })
     ∧ (∀ (s : State) (c : Nat) (kn : Knot), (s.cord c).run = .waitCinch → (s.cord c).knot = some kn →
       (s.cord c).sbuf = [] → (s.cord c).paused = false → Plain s c →
       Completes (.cinchCommit c) s (RetiresTo (knotLines s c kn) (.cord c) ((s.cord c).pc + 4)
         { s.cord c with knot := none, run := (s.cord c).goes }))
     ∧ (∀ (s s1 : State) (c : Nat) (f : FO), BeginsInKnot s s1 (.cord c) (.slip (.cord c) f) f.cond →
       (s1.cord c).stackOk (s1.cord c).lvl 0 0 = true → (s1.cord c).buffers ≤ 16 → knotStores s1 (.cord c) = none → Plain s1 c →
       Completes (.slip (.cord c) f) s fun t =>
         ∃ u, RetiresTo s1 (.cord c) ((s1.cord c).pc + 4) (s1.cord c) u ∧ t = slipCord u c 6 0 0)
     ∧ ∀ (s : State) (c : Nat) (kn : Knot), (s.cord c).knot = some kn → kn.opened + 25600 ≤ s.time.now →
       Completes (.knotAgeExpiry c) s fun t => t = s.setCord c ((s.cord c).slip (s.tenantOf c) 5 0))

/-- (1) R138: SBAR and FBAR retire once no earlier store waits; while one waits the cord waits, and BARRIER_RETIRE ends the wait; at BARRIER_RETIRE a
bounced store that no barrier has reported traps STORE_BOUNCED instead, with its virtual address in EVAL (stated for a cord at H). (2) R137 to R139,
R146: a store whose acknowledgement does not come in time has bounced. A knot's store slips the knot; under a waiting barrier the barrier's trap tells
it; any other sends a record of TYPE 0x04, with CE on the triad. (3) R137: a load that waits for a silent target traps MACHINE_CHECK, with its
module-physical address in EVAL. (4) R113, R114: FSYNC retires with PEND 0 and traps FP_IMPRECISE at itself otherwise; FP_IMPRECISE_DELIVERY traps at
its boundary. EVAL holds PEND, and the trap clears it. -/
def Obligations.BarriersWaitAndBouncesReport : Prop :=
  ((∀ b ∈ [(Instr.sbar, BarKind.sbar), (Instr.fbar, BarKind.fbar)], ∀ (s s1 : State) (c : Nat) (f : FO),
     Begins s s1 (.cord c) (b.1 (.cord c) f) f.cond .U → (s1.cord c).stackOk (s1.cord c).lvl 0 0 = true →
     ((s1.cord c).sbuf = [] → (s1.cord c).bounced = [] → Quiet s1 (.cord c) 0 →
       Completes (b.1 (.cord c) f) s (RetiresTo s1 (.cord c) ((s1.cord c).pc + 4) (s1.cord c)))
     ∧ ((∃ e ∈ (s1.cord c).sbuf, e.knot = false) → s1.wants = [] →
       Completes (b.1 (.cord c) f) s fun t => t = s1.setCord c
         { s1.cord c with sbuf := (s1.cord c).sbuf.map (fun e => { e with closed := true }), run := .waitBarrier b.2 0 }))
   ∧ (∀ (s : State) (c : Nat) (kind : BarKind) (h : Word), (s.cord c).run = .waitBarrier kind h → kind ≠ .knot → (s.cord c).paused = false →
     (s.cord c).sbuf = [] → (s.cord c).bounced = [] → Quiet s (.cord c) 0 →
     Completes (.barrierRetire c) s (RetiresTo s (.cord c) ((s.cord c).pc + 4) { s.cord c with run := (s.cord c).goes }))
   ∧ (∀ (s : State) (c : Nat) (kind : BarKind) (h va : Word) (n : Nat), (s.cord c).run = .waitBarrier kind h → (s.cord c).paused = false →
     (s.cord c).sbuf = [] → (s.cord c).bounced = [(n, va)] → (s.cord c).knot = none → (s.cord c).lvl = .H →
     (s.cord c).trH.active = false → s.recording = false → s.replaying = false →
     Completes (.barrierRetire c) s fun t =>
       (t.cord c).trH.epc = (s.cord c).pc ∧ (t.cord c).trH.eval = va ∧ (t.cord c).trH.estat.toNat % 256 = 0x0B
       ∧ (t.cord c).bounced = [] ∧ (t.cord c).pc = (s.cord c).trH.tvec + 0x2C0 ∧ (t.cord c).retire = (s.cord c).retire))
  ∧ (∀ (s : State) (c : Nat),
       let i := Instr.storeBounceTimeout c
       ((∀ e ∈ (s.cord c).sbuf, e.sent = false) → (∀ x ∈ s.claimsOf (tileOf s c), x.cord = c → ∀ e ∈ x.stores, e.sent = false) →
         Completes i s (· = s))
       ∧ ∀ e, (s.cord c).sbuf.find? SbEnt.sent = some e →
           let k : Core := { s.cord c with sbuf := (s.cord c).sbuf.filter (fun x => x.tag ≠ e.tag) }
           let u := unsent (s.setCord c k) (s.triadOf c) c e
           (e.knot = true → Completes i s (· = slipCord u c slip.UNSUPPORTED_OP 0 e.line))
           ∧ (e.knot = false → ∀ b h, (s.cord c).run = .waitBarrier b h → Completes i s
               (· = u.setCord c { k with bounced := k.bounced ++ e.stores }))
           ∧ (e.knot = false → (∀ b h, (s.cord c).run ≠ .waitBarrier b h) → Completes i s
               (· = e.stores.foldl (fun x y => raise (evqSend x e.tenant c y.2 (evDesc ev.BOUNCE 0 0) none) (src.triad (x.triadOf c)) .CE) u)))
  ∧ (∀ (s : State) (c agent who : Nat) (e : SbEnt),
       let u := unsent s agent who e
       (e.port = 48 → u = { s with owed := u.owed } ∧ ∀ o, o ∈ u.owed ↔ o ∈ s.owed
         ∧ ¬(o.agent = agent ∧ o.who = who ∧ o.line = normLine s e.pa ∧ o.kind.noted = false))
       ∧ (e.port ≠ 48 → u.cord c = s.cord c ∧ u.owed = s.owed
         ∧ ∀ g, g ∈ (u.port e.port).tx ↔ g ∈ (s.port e.port).tx ∧ ¬(g.2.typ = ft.REG_WR ∧ g.2.seq = e.seq)))
  ∧ (∀ (s : State) (a : Agent), (∀ w, (s.core a).run ≠ .waitLoad w) → Completes (.silentTargetLoad a) s fun t =>
       t = { s with owed := t.owed } ∧ t.owed.length = s.owed.length
       ∧ ∀ o ∈ t.owed, o ∈ s.owed ∨ o.cmp = some .silent)
  ∧ (∀ (s : State) (c : Nat) (w : LoadWait), (s.cord c).run = .waitLoad w → (s.cord c).paused = false → (s.cord c).knot = none → (s.cord c).trH.active = false →
       s.recording = false → s.replaying = false →
       Completes (.silentTargetLoad (.cord c)) s fun t =>
         (t.cord c).lvl = .H ∧ (t.cord c).trH.epc = (s.cord c).pc ∧ (t.cord c).trH.eval = BitVec.ofNat 64 w.pa
         ∧ (t.cord c).pc = (s.cord c).trH.tvec + 0x280 ∧ (t.cord c).retire = (s.cord c).retire ∧ t.mem = s.mem)
  ∧ (let pend (k : Core) : Nat := k.fcsr.toNat / 2 ^ 24 % 32
     (∀ (s s1 : State) (c : Nat) (f : FO), Begins s s1 (.cord c) (.fsync (.cord c) f) f.cond .U → Quiet s1 (.cord c) 0 →
       pend (s1.cord c) = 0 → (s1.cord c).stackOk (s1.cord c).lvl 0 0 = true →
       Completes (.fsync (.cord c) f) s (RetiresTo s1 (.cord c) ((s1.cord c).pc + 4) (s1.cord c)))
     ∧ (∀ (s s1 : State) (c : Nat) (f : FO), Begins s s1 (.cord c) (.fsync (.cord c) f) f.cond .U → pend (s1.cord c) ≠ 0 → s1.wants = [] →
       (s1.cord c).lvl ≠ .H → (s1.cord c).trS.active = false →
       Completes (.fsync (.cord c) f) s fun t =>
         (t.cord c).trS.epc = (s1.cord c).pc ∧ (t.cord c).trS.eval = BitVec.ofNat 64 (pend (s1.cord c))
         ∧ (t.cord c).lvl = .S ∧ (t.cord c).pc = (s1.cord c).trS.tvec + 0x300 ∧ pend (t.cord c) = 0 ∧ (t.cord c).fpCount = [])
     ∧ ∀ (s : State) (c : Nat), (s.cord c).run = .running → (s.cord c).paused = false → (∃ b, (b, 0) ∈ (s.cord c).fpCount) → s.fcu.safe = none → (s.cord c).knot = none →
       (s.cord c).lvl ≠ .H → (s.cord c).trS.active = false →
       Completes (.fpImpreciseDelivery c) s fun t =>
         (t.cord c).trS.epc = (s.cord c).pc ∧ (t.cord c).trS.eval = BitVec.ofNat 64 (pend (s.cord c))
         ∧ (t.cord c).lvl = .S ∧ (t.cord c).pc = (s.cord c).trS.tvec + 0x300 ∧ pend (t.cord c) = 0 ∧ (t.cord c).fpCount = [])

/-- (1) R86, R91: how an address is formed for each AM, and how a generator steps. STEP is signed in the modulo generator (log 30). (2) R86, R92: a LOAD
whose access answers a value pushes it zero-extended and steps its generator; one whose address lies behind a port makes the cord wait for the answer
(R245). (3) R86, R69, R130: a STORE of a cord puts the low bytes of its value into the store buffer, or into the cached stack entries they overlap, at
the pieces of its address, and steps its generator; memory is unchanged until the entry leaves the buffer. (4) R128, R130: a cord reads its own newest
store: each byte of a store that lies in one line is what the cord then reads at its address, unless a cached stack entry covers it. -/
def Obligations.LoadsPushAndStoresBuffer : Prop :=
  (∀ (m : MemForm) (k : Core) (top : Word),
     let g := k.ag m.ag
     let lin : Word := g.base + g.idx + m.disp
     (m.am = 0 → m.form k top = { va := top + m.disp, step := none })
     ∧ (m.am = 1 → m.form k top = { va := lin, step := some (m.ag, g.idx + g.step) })
     ∧ (m.am = 2 → ∃ i, m.form k top = { va := lin, step := some (m.ag, i) }
         ∧ (g.len = 0 → i = g.idx + g.step)
         ∧ (g.len ≠ 0 → i.toNat < g.len.toNat ∧ ∃ q : Int, (g.idx.toNat : Int) + g.step.toInt = q * g.len.toNat + i.toNat))
     ∧ (m.am = 3 → g.brk.toNat ≤ 32 → ∃ r : Nat, ∃ i : Word,
         m.form k top = { va := g.base + BitVec.ofNat 64 (r * m.size) + m.disp, step := some (m.ag, i) }
         ∧ r < 2 ^ g.brk.toNat ∧ (∀ j, j < g.brk.toNat → r.testBit j = g.idx.getLsbD (g.brk.toNat - 1 - j))
         ∧ i.toNat = (g.idx + g.step).toNat % 2 ^ g.brk.toNat)
     ∧ (m.am = 4 → m.form k top = { va := (k.stkOf k.lvl).sp + m.disp, step := none })
     ∧ (m.am = 5 → m.form k top = { va := k.pc + m.disp, step := none }))
  ∧ (∀ (s s1 s2 s3 : State) (a : Agent) (f : FM) (ins : List Word) (home : Home),
       let m := MemForm.ofM f
       let w := opWord (.load a f)
       let fm := m.form (s2.core a) (nth ins 0)
       Begins s s1 a (.load a f) f.cond .U → stackStep s1 a w m.pops m.pops 1 = (s2, .ok { ins := ins, homes := [home] }) →
       (∀ x, loadAt s2 a w (s2.core a).lvl fm.va m.size = (s3, .ok (.now x)) → Quiet s3 a 1 →
         Completes (.load a f) s (RetiresTo s3 a ((s3.core a).pc + 4)
           ((restack s3 a m.pops [BitVec.ofNat 64 x] [home]).stepAg fm.step)))
       ∧ (∀ (c p off pa n : Nat) (whole : Bool), a = .cord c →
         loadAt s2 a w (s2.core a).lvl fm.va m.size = (s3, .ok (.later p off pa n whole)) → s3.wants = [] →
         Completes (.load a f) s fun t => ∃ q : State × Nat, sendRead s3 c p off pa n = q ∧ t = q.1.setCord c
           { q.1.cord c with
             run := .waitLoad { port := p, seq := q.2, pa := pa, size := n, whole := whole, pops := m.pops, home := home, ag := fm.step } }))
  ∧ (∀ (s s1 s2 s3 : State) (c : Nat) (f : FM) (ins : List Word) (ps : List Piece),
       let a : Agent := .cord c
       let m := MemForm.ofM f
       let w := opWord (.store a f)
       let fm := m.form (s2.core a) (nth ins 1)
       Begins s s1 a (.store a f) f.cond .U →
       stackStep s1 a w (m.pops + 1) (m.pops + 1) 0 = (s2, .ok { ins := ins, homes := [] }) →
       storeAt s2 a w (s2.core a).lvl fm.va m.size = (s3, .ok ps) → Quiet s3 a 8 →
       Completes (.store a f) s fun t =>
         RetiresTo s3 a ((s3.core a).pc + 4)
           ((((s3.core a).popN (m.pops + 1)).storePieces (s3.tenantOf c) ps (nth ins 0).toNat).stepAg fm.step) t
         ∧ (∀ x, t.mem.byte x = s3.mem.byte x) ∧ t.l2 = s3.l2)
  ∧ (∀ (k : Core) (st : StoreReq) (i : Nat), i < st.size → st.pa % 256 + st.size ≤ 256 → k.stackByte (st.pa + i) = none →
       (k.store st).ownByte (st.pa + i) = some (st.val / 256 ^ i % 256)
       ∧ ∀ x, x / 256 ≠ st.pa / 256 → (k.store st).ownByte x = k.ownByte x)

/-- (1) R133, R135: LOAD_RESERVED pushes the value and sets the reservation on the aligned granule of its address; STORE_CONDITIONAL with the reservation
on its granule stores and pushes 1, without it stores nothing and pushes 0, and always drops the reservation. (2) R87: the results of the far-atomic
operations on a value of w bits; AOP 0xA to 0xF have none. (3) R87, R134, R175: FAR_ATOMIC pushes the old value and drops the cord's reservation on
its bytes. -/
def Obligations.AtomicAccessesComplete : Prop :=
  ((∀ (s s1 s2 s3 s4 s5 : State) (a : Agent) (f : FM) (ins : List Word) (home : Home) (p : Piece) (d : LineData) (poison : BitVec 4),
     let m := MemForm.ofM f
     let w := opWord (.loadReserved a f)
     let fm := m.form (s2.core a) (nth ins 0)
     let g := s3.granule
     Begins s s1 a (.loadReserved a f) f.cond .U → stackStep s1 a w m.pops m.pops 1 = (s2, .ok { ins := ins, homes := [home] }) →
     atomicAt s2 a w (s2.core a).lvl fm.va m.size .load = (s3, .ok p) →
     takeGranule s3 a (usesCache s3 a p) (p.pa / g * g) (g / 256) = (s4, .ok ()) →
     atomicRead s4 a (usesCache s3 a p) p = (s5, .ok (d, poison)) → (s5.core a).meetsPoison poison p.pa p.size = false →
     Quiet s5 a 1 →
     Completes (.loadReserved a f) s (RetiresTo s5 a ((s5.core a).pc + 4)
       { (restack s5 a m.pops [BitVec.ofNat 64 ((s5.core a).patch p.pa p.size (lineBytes d (p.pa % 256) p.size))] [home]).stepAg fm.step with
         resv := some { base := p.pa / g * g, size := g } }))
   ∧ ∀ (s s1 s2 s3 : State) (a : Agent) (f : FM) (ins : List Word) (home : Home) (p : Piece),
     let m := MemForm.ofM f
     let w := opWord (.storeConditional a f)
     let n := m.pops + 1
     let fm := m.form (s2.core a) (nth ins 1)
     let u := drainFor s3 a p.pa
     let held : Prop := ∃ r, (u.core a).resv = some r ∧ r.base ≤ p.pa ∧ p.pa < r.base + r.size
     Begins s s1 a (.storeConditional a f) f.cond .U → stackStep s1 a w n n 1 = (s2, .ok { ins := ins, homes := [home] }) →
     atomicAt s2 a w (s2.core a).lvl fm.va m.size .store = (s3, .ok p) →
     (¬ held → Quiet u a 1 → Completes (.storeConditional a f) s (RetiresTo u a ((u.core a).pc + 4)
       { (restack u a n [0] [home]).stepAg fm.step with resv := none }))
     ∧ (held → (u.core a).buffered p.pa = false → ∀ s4, performNow u a (usesCache u a p) p (nth ins 0).toNat = (s4, .ok ()) →
       Quiet s4 a 1 → Completes (.storeConditional a f) s (RetiresTo s4 a ((s4.core a).pc + 4)
         { (restack s4 a n [1] [home]).stepAg fm.step with resv := none })))
  ∧ (∀ (wide : Bool) (old x y : Nat),
       let w := if wide then 64 else 32
       let sg (v : Nat) : Int := (BitVec.ofNat w v).toInt
       old < 2 ^ w → x < 2 ^ w → y < 2 ^ w →
       atomOp w 0 old x y = some ((old + x) % 2 ^ w)
       ∧ atomOp w 1 old x y = some (old &&& x) ∧ atomOp w 2 old x y = some (old ||| x) ∧ atomOp w 3 old x y = some (old ^^^ x)
       ∧ atomOp w 4 old x y = some x ∧ atomOp w 5 old x y = some (if old = x then y else old)
       ∧ (∃ r, atomOp w 6 old x y = some r ∧ (r = old ∨ r = x) ∧ sg r ≤ sg old ∧ sg r ≤ sg x)
       ∧ (∃ r, atomOp w 7 old x y = some r ∧ (r = old ∨ r = x) ∧ sg old ≤ sg r ∧ sg x ≤ sg r)
       ∧ (∃ r, atomOp w 8 old x y = some r ∧ (r = old ∨ r = x) ∧ r ≤ old ∧ r ≤ x)
       ∧ (∃ r, atomOp w 9 old x y = some r ∧ (r = old ∨ r = x) ∧ old ≤ r ∧ x ≤ r)
       ∧ ∀ aop, 0xA ≤ aop → aop < 16 → atomOp w aop old x y = none)
  ∧ (∀ (s s1 s2 s3 s4 : State) (a : Agent) (f : FA) (ins : List Word) (home : Home) (p : Piece) (old : Nat),
       let m := MemForm.ofA f
       let w := opWord (.farAtomic a f)
       let n := if f.aop = 5 then 2 else 1
       let fm := m.form (s2.core a) (nth ins n)
       Begins s s1 a (.farAtomic a f) f.cond .U →
       stackStep s1 a w (m.pops + n) (m.pops + n) 1 = (s2, .ok { ins := ins, homes := [home] }) →
       atomicAt s2 a w (s2.core a).lvl fm.va m.size .fill = (s3, .ok p) →
       let u := drainFor s3 a p.pa
       (u.core a).buffered p.pa = false →
       atomNow u (agentSrc u a) (requester a) (requestTenant u a) p.pa (m.size == 8) f.aop (nth ins (n - 1)) (nth ins 0)
         = (s4, .done, old, false) → Quiet s4 a 1 →
       Completes (.farAtomic a f) s (RetiresTo s4 a ((s4.core a).pc + 4)
         ((((s4.core a).clearResv p.pa p.size).replace (s4.agentTenant a) (m.pops + n) [(BitVec.ofNat 64 old, home)]).stepAg fm.step)))

/-- (1) R158, R88: a line operation pops its address and retires once its effect is complete. ZLINE in the cord's caches leaves the line in M, all sectors
valid, dirty and zero. (2) R88, R158, R417: PFR and PFW pop their address and retire, whatever its translation; a line they may have in the cord's
caches is obtained first. (3) A Shuttle's prefetch does nothing more; one whose stack step faults retires and pops nothing (the model's choice, log
40). -/
def Obligations.LineOperationsComplete : Prop :=
  ((∀ (s s1 s2 s3 s4 : State) (a : Agent) (f : FL) (x : Word) (p : Piece) (l : Lead),
     let va := x + BitVec.ofInt 64 f.disp.toInt
     let op (mk : Agent → FL → Instr) (lvl : Level) (acc : Acc1) (o : CmoOp) : Prop :=
       Begins s s1 a (mk a f) f.cond lvl → stackStep s1 a (opWord (mk a f)) 1 1 0 = (s2, .ok { ins := [x], homes := [] }) →
       lineAt s2 a (opWord (mk a f)) acc .atomic va = (s3, .ok (p, l)) → cmoNow a o s3 p l = (s4, .ok id) → Quiet s4 a 0 →
       Completes (mk a f) s (RetiresTo s4 a ((s4.core a).pc + 4) ((s4.core a).popN 1))
     op .clean .U .rx .clean ∧ op .flush .U .rx .flush ∧ op .inval .H .rx .inval ∧ op .icinv .U .exec .icinv)
   ∧ ∀ (s s1 s2 s3 s4 : State) (c h : Nat) (f : FL) (x : Word) (p : Piece),
     let a : Agent := .cord c
     let line := normLine s3 p.pa
     let u := drainFor s3 a p.pa
     let s5 := touchL1 (zeroL2 s4 (s4.triadOf c) line) c line false
     Begins s s1 a (.zline a f) f.cond .U → stackStep s1 a (opWord (.zline a f)) 1 1 0 = (s2, .ok { ins := [x], homes := [] }) →
     lineAt s2 a (opWord (.zline a f)) .store .store (x + BitVec.ofInt 64 f.disp.toInt) = (s3, .ok (p, .mem h)) →
     (s3.cord c).knot = none → p.attr = .cached → (u.cord c).buffered p.pa = false → l1dOff s3 (s3.triadOf c) (s3.shareOf c) = false →
     obtain u c line 0 true true = (s4, .ready) → Quiet s5 a 0 →
     Completes (.zline a f) s fun t =>
       RetiresTo s5 a ((s5.cord c).pc + 4) (((s5.cord c).popN 1).zeroLine p.pa) t
       ∧ (let y := t.l2At (s4.triadOf c) line
          y.st = .M ∧ y.valid = 15 ∧ y.dirty = 15 ∧ y.poison = 0 ∧ y.bytes = 0))
  ∧ (∀ b ∈ [(Instr.pfr, false), (Instr.pfw, true)], ∀ (s s1 s2 : State) (c : Nat) (f : FL) (x : Word),
       let a : Agent := .cord c
       let acc : Acc1 := if b.2 then .probe else .load
       let va := x + BitVec.ofInt 64 f.disp.toInt
       Begins s s1 a (b.1 a f) f.cond .U → stackStep s1 a (opWord (b.1 a f)) 1 1 0 = (s2, .ok { ins := [x], homes := [] }) →
       (∀ r, physAll s2 c (s2.cord c).lvl acc [(va, 1)] = r → (∀ s3 p, r ≠ (s3, .ok [p]) ∨ p.attr ≠ .cached) → r.1.wants = [] → Quiet s2 a 0 →
         Completes (b.1 a f) s (RetiresTo s2 a ((s2.cord c).pc + 4) ((s2.cord c).popN 1)))
       ∧ (∀ s3 p, physAll s2 c (s2.cord c).lvl acc [(va, 1)] = (s3, .ok [p]) → p.attr = .cached →
         let s4 := prefetchGo a b.2 s3 p (leadOf s3 (s3.tenantOf c) (s3.cord c).lvl p.pa)
         Quiet s4 a 0 → Completes (b.1 a f) s (RetiresTo s4 a ((s4.cord c).pc + 4) ((s4.cord c).popN 1))))
  ∧ (∀ mk ∈ [Instr.pfr, Instr.pfw], ∀ (s s1 s2 : State) (a : Agent) (f : FL), Begins s s1 a (mk a f) f.cond .U →
       (∀ n ins, a = .shuttle n → stackStep s1 a (opWord (mk a f)) 1 1 0 = (s2, .ok { ins := ins, homes := [] }) → Quiet s2 a 0 →
         Completes (mk a f) s (RetiresTo s2 a ((s2.core a).pc + 4) ((s2.core a).popN 1)))
       ∧ (∀ t, stackStep s1 a (opWord (mk a f)) 1 1 0 = (s2, .trap t) → s2.wants = [] → Quiet s1 a 0 →
         Completes (mk a f) s (RetiresTo s1 a ((s1.core a).pc + 4) (s1.core a))))

/-- (1) R89, R104 to R110, R112: the floating-point operations pop their operands, push the result of the format P selects, in bits [31:0] with zeros
above for binary32, raise their flags in FCSR, and set PEND where a flag raised is enabled. FLAGS and everything else are unchanged. The results are
those of the format's arithmetic; sign operations act on bits. (2) R106, R108, R109: a value that the format represents is delivered as it is, with no
flag, in every rounding mode; an invalid operation's default NaN raises NV alone; adding or subtracting a NaN operand that raises nothing else keeps
the first NaN, quiet. -/
def Obligations.FloatingPointResults : Prop :=
  (let fmt (f : FF) : Fmt := if f.p then .b64 else .b32
   let width (f : FF) : Nat := if f.p then 64 else 32
   let cut (f : FF) (x : Nat) : Nat := x % 2 ^ width f
   let mag (f : FF) (x : Nat) : Nat := cut f x % 2 ^ (width f - 1)
   FloatResult .fadd 2 (fun f m x => (fmt f).add m (at0 x 0) (at0 x 1))
   ∧ FloatResult .fsub 2 (fun f m x => (fmt f).sub m (at0 x 0) (at0 x 1))
   ∧ FloatResult .fmul 2 (fun f m x => (fmt f).mul m (at0 x 0) (at0 x 1))
   ∧ FloatResult .fdiv 2 (fun f m x => (fmt f).div m (at0 x 0) (at0 x 1))
   ∧ FloatResult .fsqrt 1 (fun f m x => (fmt f).sqrt m (at0 x 0))
   ∧ FloatResult .fma 3 (fun f m x => (fmt f).fma m false (at0 x 0) (at0 x 1) (at0 x 2))
   ∧ FloatResult .fnma 3 (fun f m x => (fmt f).fma m true (at0 x 0) (at0 x 1) (at0 x 2))
   ∧ FloatResult .fmin 2 (fun f _ x => (fmt f).minmax false (at0 x 0) (at0 x 1))
   ∧ FloatResult .fmax 2 (fun f _ x => (fmt f).minmax true (at0 x 0) (at0 x 1))
   ∧ FloatResult .fneg 1 (fun f _ x => (cut f (at0 x 0) ^^^ 2 ^ (width f - 1), 0))
   ∧ FloatResult .fabs 1 (fun f _ x => (mag f (at0 x 0), 0))
   ∧ FloatResult .fcpys 2 (fun f _ x => (mag f (at0 x 0) + (cut f (at0 x 1) - mag f (at0 x 1)), 0))
   ∧ FloatResult .f2i 1 (fun f m x => (fmt f).toInt m true (at0 x 0))
   ∧ FloatResult .f2u 1 (fun f m x => (fmt f).toInt m false (at0 x 0))
   ∧ FloatResult .i2f 1 (fun f m x => (fmt f).ofInt m true (at0 x 0))
   ∧ FloatResult .u2f 1 (fun f m x => (fmt f).ofInt m false (at0 x 0))
   ∧ FloatResult .fcvt 1 (fun f m x => Machine.fcvt m f.p (at0 x 0))
   ∧ FloatResult .frint 1 (fun f m x => (fmt f).rint m (at0 x 0)))
  ∧ (∀ (fmt : Fmt) (width : Nat), (fmt, width) ∈ [(Fmt.b32, 32), (Fmt.b64, 64)] → ∀ (rm : RM) (x : Nat), x < 2 ^ width →
       (∀ neg m e, fmt.decode x = .fin neg m e → fmt.round rm neg m e false = (x, 0))
       ∧ (∀ y, y < 2 ^ width → fmt.isNaN x = true → fmt.isSNaN x = false → fmt.isSNaN y = false → fmt.add rm x y = (x, 0))
       ∧ (∀ y, y < 2 ^ width → fmt.isSNaN x = true → (fmt.add rm x y).2 = 16 ∧ (fmt.mul rm x y).2 = 16)
       ∧ fmt.add rm fmt.inf (fmt.inf + 2 ^ (width - 1)) = (fmt.nan, 16)
       ∧ fmt.mul rm 0 fmt.inf = (fmt.nan, 16)
       ∧ fmt.sqrt rm (fmt.inf + 2 ^ (width - 1)) = (fmt.nan, 16))

/-- R111: FCMP and FCMPE set FLAGS by the relation of a to b and raise NV, FCMPE for any NaN, FCMP for a signalling one; FCLASS pushes a mask with exactly
one of bits [9:0] set. -/
def Obligations.FloatingPointComparesSetFlags : Prop :=
  let fmt (f : FF) : Fmt := if f.p then .b64 else .b32
  (∀ b ∈ [(Instr.fcmp, false), (Instr.fcmpe, true)], ∀ (s s1 s2 : State) (a : Agent) (f : FF) (x y : Word),
    let isNaN (v : Word) : Bool := (fmt f).isNaN v.toNat
    let signals (v : Word) : Bool := (fmt f).isSNaN v.toNat
    let k := s2.core a
    let nv : Bool := if b.2 then isNaN x || isNaN y else signals x || signals y
    let fl : Flags :=
      if isNaN x || isNaN y then { n := false, z := false, c := true, v := true }
      else if (fmt f).key x.toNat < (fmt f).key y.toNat then { n := true, z := false, c := false, v := false }
      else if (fmt f).key x.toNat = (fmt f).key y.toNat then { n := false, z := true, c := true, v := false }
      else { n := false, z := false, c := true, v := false }
    Begins s s1 a (b.1 a f) f.cond .U → stackStep s1 a (opWord (b.1 a f)) 2 2 0 = (s2, .ok { ins := [y, x], homes := [] }) →
    Quiet s2 a 0 →
    Completes (b.1 a f) s (RetiresTo s2 a (k.pc + 4)
      { k.popN 2 with flags := fl.word, fcsr := raisedFcsr k.fcsr (if nv then 16 else 0) }))
  ∧ (∀ (s s1 s2 : State) (a : Agent) (f : FF) (x : Word) (home : Home),
    Begins s s1 a (.fclass a f) f.cond .U →
    stackStep s1 a (opWord (.fclass a f)) 1 1 1 = (s2, .ok { ins := [x], homes := [home] }) → Quiet s2 a 1 →
    let width : Nat := if f.p then 64 else 32
    let frac : Nat := if f.p then 52 else 23
    let neg : Bool := x.getLsbD (width - 1)
    let ex := x.toNat % 2 ^ (width - 1) / 2 ^ frac
    let fr := x.toNat % 2 ^ frac
    let bit : Nat :=
      if ex = 2 ^ (width - 1 - frac) - 1 then
        (if fr = 0 then (if neg then 0 else 7) else if fr / 2 ^ (frac - 1) = 0 then 8 else 9)
      else if ex = 0 then (if fr = 0 then (if neg then 3 else 4) else if neg then 2 else 5)
      else if neg then 1 else 6
    Completes (.fclass a f) s (RetiresTo s2 a ((s2.core a).pc + 4) (restack s2 a 1 [BitVec.ofNat 64 (2 ^ bit)] [home])))

/-- (1) R13, R33, R34: BEAT_BOUNDARY ends a beat that is not the last of its pick; while the Loom counts no pick, in the safe state and in the last beat
it does nothing. With no frame or data waiting at a port, no record staged, no flush or merge entry open and no house beat ahead, the next beat begins 200 rclk after
the last one, the
owned beats and the running cords are counted for their tenants in closed weave, and nothing else of the module changes. In RETAIN only the count
moves. (2) R14, R15: the own count's pick boundary: PICK counts on modulo 2^48, beat 0 begins 12,800 rclk after the last boundary, a manager drives 4
rclk of PICKSYNC_OUT, 12 at a multiple of 468,750, where the minute boundary is then to be made. With nothing else due at the boundary, nothing else
changes; in RETAIN nothing else is looked at. (3) R33, R49, R416: the minute boundary that follows its pick boundary counts the minute, swaps the
ledger's banks, clears the new live one and the strands' counts of the minute; the delay monitors are measured. Without a minute boundary to be made
it does nothing. -/
def Obligations.PicksAndBeatsAdvance : Prop :=
  (∀ (s : State) (h : HouseInputs),
     let b := s.beat
     let time := { s.time with now := max s.time.now (s.time.pickStart + 200 * (b + 1)) }
     let calm (s : State) : Prop := s.loom.flushes = [] ∧ ∀ h, (s.ctl h).merge = []
     (¬ (s.time.loom = true ∧ s.stopped = false ∧ b ≠ 63) → Completes (.beatBoundary h) s (· = s))
     ∧ (s.time.loom = true → s.stopped = false → b < 63 → s.pwr.retained = true → calm s →
       Completes (.beatBoundary h) s fun t =>
         t = { s with time := time, regs := t.regs } ∧ SetsRegs s [(LOOM_PICK.BEAT, b + 1)] t ∧ t.pick = s.pick ∧ t.beat = b + 1)
     ∧ (s.time.loom = true → s.stopped = false → b < 62 → s.pwr.retained = false → s.rpl.staged = [] →
       (∀ p, p < 48 → (s.port p).tx = [] ∧ (s.port p).outs = []) → s.closedWeave = true → calm s →
       Completes (.beatBoundary h) s fun t =>
         t = { s with time := time, regs := t.regs, loom := { s.loom with acc := t.loom.acc, issued := [], recover := t.loom.recover }
                      chs := { s.chs with shuts := t.chs.shuts } }
         ∧ SetsRegs s [(LOOM_PICK.BEAT, b + 1)] t ∧ t.pick = s.pick ∧ t.beat = b + 1
         ∧ (∀ n, t.shut n = { s.shut n with saved := false })
         ∧ (∀ tenant, mget t.loom.acc (tenant * 16 + 0) 0 % 2 ^ 64
             = (mget s.loom.acc (tenant * 16 + 0) 0 + ((List.range s.cordCount).filter (fun c =>
                 if c ∈ s.loom.recover then tenant = 0 else s.assigned c ∧ (s.cord c).run.live = true ∧ s.tenantOf c = tenant)).length) % 2 ^ 64)
         ∧ (∀ tenant i lo hi, (i, lo, hi) ∈ [(2, 0, 16), (4, 16, 32), (6, 32, 44), (9, 44, 48), (10, 0, 0), (11, 48, 52), (14, 0, 0), (15, 0, 0)] →
             mget t.loom.acc (tenant * 16 + i) 0 % 2 ^ 64
             = (mget s.loom.acc (tenant * 16 + i) 0 + ((List.range 52).filter (fun k =>
                 lo ≤ k ∧ k < hi ∧ s.hedKind k b = 0 ∧ s.hedTenant k b = tenant)).length) % 2 ^ 64)))
  ∧ (∀ (s : State),
       let at_ := s.time.pickStart + 12800
       let minute := (s.pick + 1) % 468750 = 0
       let after (t : State) : Prop := t.pick = (s.pick + 1) % 2 ^ 48 ∧ t.beat = 0 ∧ t.time = { s.time with now := max s.time.now at_, pickStart := at_ }
         ∧ (t.loom.minuteDue = true ↔ s.loom.minuteDue = true ∨ minute)
         ∧ (s.role = 1 → s.lifecycle ≠ life.STANDBY → (minute → t.pins.picksync = 12) ∧ (¬ minute → t.pins.picksync = 4))
         ∧ (s.role ≠ 1 → t.pins.picksync = 0)
       (¬ (s.time.loom = true ∧ s.stopped = false ∧ s.beat = 63) → Completes .pickBoundary s (· = s))
       ∧ (s.time.loom = true → s.stopped = false → s.beat = 63 → s.role ≠ 2 → s.loom.lostPick = false → s.pwr.retained = true →
         Completes .pickBoundary s fun t => after t
           ∧ t = { s with time := t.time, pins := { s.pins with picksync := t.pins.picksync }, regs := t.regs
                          loom := { s.loom with minuteDue := t.loom.minuteDue, edge := false, seen := false } }
           ∧ ∀ off, off ≠ LOOM_PICK.PICK.off → t.rd off = s.rd off)
       ∧ (s.time.loom = true → s.stopped = false → s.beat = 63 → s.role ≠ 2 → PlainPick s →
         Completes .pickBoundary s fun t => after t
           ∧ t = { s with time := t.time, pins := { s.pins with picksync := t.pins.picksync }, regs := t.regs
                          loom := { s.loom with minuteDue := t.loom.minuteDue, edge := false, seen := false, issued := [], recover := t.loom.recover }
                          spl := { s.spl with heard := false, checked := false }, chs := { s.chs with shuts := t.chs.shuts } }
           ∧ ∀ off, off ≠ LOOM_PICK.PICK.off → off ≠ PWR_CLK.REMAIN.off → t.rd off = s.rd off))
  ∧ (∀ (s : State) (age : List Nat),
       (¬ (s.loom.minuteDue = true ∧ s.stopped = false) → Completes (.minuteBoundary age) s (· = s))
       ∧ (s.loom.minuteDue = true → s.stopped = false →
         (s.pwr.ageDone = true ∨ ∀ k, k < 4 → min (age.getD k 0) 65535 ≤ s.get (PWR_AGE.LIMIT k)) →
         Completes (.minuteBoundary age) s fun t =>
           t = { s with regs := t.regs, triads := t.triads, loom := { s.loom with frozen := s.loom.live, live := [], minuteDue := false } }
           ∧ (∀ k, k < 48 → t.triad k = { s.triad k with counts := [] }) ∧ (∀ k, 48 ≤ k → t.triad k = s.triad k)
           ∧ t.get LOOM_LEDSTAT.MINUTE = (s.get LOOM_LEDSTAT.MINUTE + 1) % 2 ^ 32
           ∧ t.get LOOM_LEDSTAT.BANK = 1 - s.get LOOM_LEDSTAT.BANK
           ∧ (s.pwr.retained = false → ∀ k, k < 4 → t.get (PWR_AGE.DEGRADE k) = min (age.getD k 0) 65535
               ∧ t.flag (PWR_AGE.AGEWARN k) = decide (s.get (PWR_AGE.LIMIT k) < min (age.getD k 0) 65535))))

/-- R15, R17: a worker's PICKSYNC_IN edges, delayed by LOOM_SYNC.DELAY. One off by two rclk or more is not used; the third pick in a row without one that
is used sets SYNCLOST and leaves the own count to place the picks; a late edge whose pick has begun without it has been counted by then (how a pick
counts is the model's choice, log 40). One within an rclk is used: with SOURCE 0 it realigns the own count, with SOURCE 1 it is the pick boundary. The
width of its pulse, known later, makes it a pick pulse, a minute pulse or no edge at all; the fourth accepted edge in a row ends SYNCLOST. A module
that is no worker, or is stopped, takes no edge. Reading LOOM_SYNC clears SLIPCNT. -/
def Obligations.PicksyncEdgesUsedOrRefused : Prop :=
  (∀ (s : State) (raw : Int), s.role ≠ 2 ∨ s.stopped = true → Completes (.picksyncInEdge raw) s (· = s))
  ∧ (∀ (s : State) (raw : Int), s.role = 2 → s.stopped = false → s.loom.admitPick = none → s.time.loom = true → s.loom.syncEdge = none →
      let source := s.flag LOOM_SYNC.SOURCE
      let dev : Int := raw + s.get LOOM_SYNC.DELAY
      let counted : Prop := 0 < dev ∧ s.loom.missed = true
      (2 ≤ dev.natAbs → counted → Completes (.picksyncInEdge raw) s (· = { s with loom := { s.loom with seen := true, missed := false } }))
      ∧ (2 ≤ dev.natAbs → ¬ counted → s.loom.edge = true →
          Completes (.picksyncInEdge raw) s (· = { s with loom := { s.loom with seen := true } }))
      ∧ (2 ≤ dev.natAbs → ¬ counted → s.loom.edge = false → Completes (.picksyncInEdge raw) s fun t =>
          let u := { s with loom := { s.loom with unused := s.loom.unused + 1, accepted := 0, edge := true, seen := true } }
          if s.loom.unused = 2 ∧ source = true then t = raise ((u.putFlag LOOM_SYNC.SYNCLOST true).putFlag LOOM_SYNC.SOURCE false) src.loomSync .UC
          else t = u)
      ∧ (dev.natAbs ≤ 1 → source = false → 0 ≤ (s.time.pickStart : Int) + dev → Completes (.picksyncInEdge raw) s fun t =>
          t = { s with regs := t.regs, time := t.time, loom := { s.loom with syncEdge := some (dev, false), seen := true, slipped := t.loom.slipped } }
          ∧ (t.time.pickStart : Int) = s.time.pickStart + dev ∧ t.time.now = max s.time.now t.time.pickStart
          ∧ t.get LOOM_SYNC.SLIPCNT = (if dev = 0 then s.get LOOM_SYNC.SLIPCNT else min (s.get LOOM_SYNC.SLIPCNT + 1) 255)
          ∧ (t.loom.slipped = true ↔ t.get LOOM_SYNC.SLIPCNT ≠ s.get LOOM_SYNC.SLIPCNT)
          ∧ ∀ off, off ≠ LOOM_SYNC.SLIPCNT.off → t.rd off = s.rd off)
      ∧ (dev.natAbs ≤ 1 → source = true → s.beat ≠ 63 → Completes (.picksyncInEdge raw) s (· = s))
      ∧ (dev = 0 → source = true → s.beat = 63 → PlainPick s → Completes (.picksyncInEdge raw) s fun t =>
          t.pick = (s.pick + 1) % 2 ^ 48 ∧ t.beat = 0 ∧ t.time.pickStart = s.time.pickStart + 12800
          ∧ t.loom.syncEdge = some (0, decide ((s.pick + 1) % 468750 = 0)) ∧ t.loom.minuteDue = s.loom.minuteDue
          ∧ (∀ off, off ≠ LOOM_PICK.PICK.off → off ≠ PWR_CLK.REMAIN.off → t.rd off = s.rd off)
          ∧ t.cords = s.cords ∧ t.mem = s.mem ∧ t.triads = s.triads ∧ t.fcu = s.fcu))
  ∧ (∀ (s : State) (width : Nat), s.loom.syncEdge = none → Completes (.picksyncPulseClassified width) s (· = s))
  ∧ (∀ (s : State) (width : Nat) (dev : Int) (held : Bool),
      s.loom.syncEdge = some (dev, held) → s.loom.lostPick = false → 2 ≤ width → width ≤ 14 → width ≤ 6 ∨ 10 ≤ width →
      let source := s.flag LOOM_SYNC.SOURCE
      Completes (.picksyncPulseClassified width) s fun t =>
        t = { s with regs := t.regs, loom := { s.loom with syncEdge := none, unused := 0, accepted := min (s.loom.accepted + 1) 4, edge := false
                                                           missed := false, minuteDue := t.loom.minuteDue, lostPick := t.loom.lostPick } }
        ∧ (source = false → t.loom.minuteDue = s.loom.minuteDue ∧ t.pick = s.pick
            ∧ (t.flag LOOM_SYNC.SOURCE = true ↔ 3 ≤ s.loom.accepted)
            ∧ (3 ≤ s.loom.accepted → t.flag LOOM_SYNC.SYNCLOST = false))
        ∧ (source = true → width ≤ 6 → held = false → t.loom.minuteDue = s.loom.minuteDue ∧ t.pick = s.pick)
        ∧ (source = true → width ≤ 6 → held = true → t.loom.minuteDue = s.loom.minuteDue ∧ t.pick = (s.pick + 2 ^ 48 - 1) % 2 ^ 48
            ∧ t.flag LOOM_SYNC.SYNCLOST = true)
        ∧ (source = true → 10 ≤ width → held = true → t.loom.minuteDue = true ∧ t.pick = s.pick)
        ∧ (source = true → 10 ≤ width → held = false → t.loom.minuteDue = true ∧ t.flag LOOM_SYNC.SYNCLOST = true
            ∧ ∃ m, t.pick = m * 468750 % 2 ^ 48 ∧ s.pick < m * 468750 ∧ m * 468750 ≤ s.pick + 468750))
  ∧ (∀ (s : State) (width : Nat),
      s.loom.syncEdge = some (0, false) → width < 2 ∨ 6 < width ∧ width < 10 ∨ 14 < width →
      (s.loom.unused ≠ 2 ∨ s.flag LOOM_SYNC.SOURCE = false) →
      Completes (.picksyncPulseClassified width) s fun t =>
        t = { s with loom := { s.loom with syncEdge := none, unused := s.loom.unused + 1, accepted := 0, edge := true } })
  ∧ (∀ (s : State) (width : Nat) (dev : Int),
      s.loom.syncEdge = some (dev, false) → dev ≠ 0 → width < 2 ∨ 6 < width ∧ width < 10 ∨ 14 < width →
      (s.loom.unused ≠ 2 ∨ s.flag LOOM_SYNC.SOURCE = false) → dev ≤ s.time.pickStart →
      Completes (.picksyncPulseClassified width) s fun t =>
        t = { s with regs := t.regs, time := t.time
                     loom := { s.loom with syncEdge := none, unused := s.loom.unused + 1, accepted := 0, edge := true } }
        ∧ (t.time.pickStart : Int) = s.time.pickStart - dev ∧ t.time.now = s.time.now
        ∧ t.get LOOM_SYNC.SLIPCNT = s.get LOOM_SYNC.SLIPCNT - (if s.loom.slipped then 1 else 0)
        ∧ ∀ off, off ≠ LOOM_SYNC.SLIPCNT.off → t.rd off = s.rd off)
  ∧ (∀ (s : State), Completes .loomSyncRead s fun t =>
        t = { s with resp := t.resp, regs := t.regs } ∧ t.resp = [BitVec.ofNat 64 (s.rd LOOM_SYNC.off)]
        ∧ t.get LOOM_SYNC.SLIPCNT = 0 ∧ t.get LOOM_SYNC.SYNCLOST = s.get LOOM_SYNC.SYNCLOST ∧ t.get LOOM_SYNC.SOURCE = s.get LOOM_SYNC.SOURCE
        ∧ t.get LOOM_SYNC.DELAY = s.get LOOM_SYNC.DELAY ∧ ∀ off, off ≠ LOOM_SYNC.off → t.rd off = s.rd off)

/-- (1) R21: a write to LOOM_COMMIT marks shadow copies and, with no commit pending, chooses its boundary; at that boundary every marked table, and none
else, is copied from its shadow. A write of zeros marks nothing. (2) R25, R23: a waiting request issues in a beat in which its tenant may use the
table, and only then; its tenant is noted as having issued. A write of the flush reserve or of the host's victims issues in a house or unowned beat,
behind the tenant's others. (3) R27, R419: the steps of a reassignment flush, each in its turn and none before its
time. The outgoing cord's stores move into its first unfilled claim and its state is saved if it had any; its dirty lines go to the claims; then
nothing of the outgoing tenant is left in the cord, its share of the caches or its translations; the incoming state is loaded from the new slot; 4,000
rclk after the boundary the cord runs for its new tenant, or is idle. (4) R31, R419: the flush reserve writes a claim's first line to its home in a
beat in which it may, performs a claim's moved stores, those for the claim's own lines inside the claim, and gives back a claim that has nothing left.
-/
def Obligations.CommitsAndFlushesTakeTheirSteps : Prop :=
  ((∀ (s : State) (v : Word),
     let w := v.toNat % 2 ^ 53
     let d := (s.get LOOM_COMMITAT.PICK + 2 ^ 32 - s.pick % 2 ^ 32) % 2 ^ 32
     let ahead : Prop := 1 ≤ d ∧ d < 2 ^ 31 ∧ (d = 1 → s.time.loom = true → s.time.now + 16 ≤ s.time.pickStart + 12800)
     let en : Prop := s.flag LOOM_COMMITAT.EN = true
     Completes (.loomCommit v) s fun t =>
       t = { s with regs := t.regs, loom := { s.loom with marks := t.loom.marks, markCords := t.loom.markCords, commitPick := t.loom.commitPick
                                                          commitFrom := t.loom.commitFrom, lateAtApply := t.loom.lateAtApply } }
       ∧ (∀ off, off ≠ LOOM_STAT.PENDING.off → off ≠ LOOM_COMMIT.off → t.rd off = s.rd off)
       ∧ (w = 0 → t.loom = s.loom ∧ t.flag LOOM_STAT.PENDING = s.flag LOOM_STAT.PENDING)
       ∧ (w ≠ 0 → t.flag LOOM_STAT.PENDING = true ∧ t.loom.marks = s.loom.marks ||| v.toNat % 2 ^ 52
           ∧ (t.loom.markCords = true ↔ s.loom.markCords = true ∨ v.getLsbD 52 = true))
       ∧ (w ≠ 0 → s.flag LOOM_STAT.PENDING = true → t.loom.commitPick = s.loom.commitPick ∧ t.loom.commitFrom = s.loom.commitFrom)
       ∧ (w ≠ 0 → s.flag LOOM_STAT.PENDING = false → (en ∧ ahead →
             t.loom.commitPick = some (s.get LOOM_COMMITAT.PICK) ∧ t.loom.commitFrom = s.time.now ∧ t.loom.lateAtApply = false)
           ∧ (¬ (en ∧ ahead) → t.loom.commitPick = none ∧ t.loom.commitFrom = s.time.now + 16 ∧ (t.loom.lateAtApply = true ↔ en))))
   ∧ ∀ (s : State), s.flag LOOM_STAT.PENDING = true → s.loom.commitFrom ≤ s.time.now → (∀ p, s.loom.commitPick = some p → s.pick % 2 ^ 32 = p) →
       s.loom.markCords = false → s.loom.deferred = [] → s.recording = false →
       let t := commitApply s
       t.flag LOOM_STAT.PENDING = false ∧ t.loom.marks = 0 ∧ t.loom.commitPick = none
       ∧ (s.loom.lateAtApply = true → t.flag LOOM_STAT.LATE = true)
       ∧ (∀ n k, n < 52 → k < 16 → t.rd (LOOM_HEDA.off n k) = if s.loom.marks.testBit n then s.rd (LOOM_HEDS.off n k) else s.rd (LOOM_HEDA.off n k))
       ∧ t.cords = s.cords ∧ t.mem = s.mem)
  ∧ (∀ (s : State) (table tenant : Nat),
       let mine (w : Waiting) : Prop := w.table = table ∧ w.tenant = tenant ∧ w.issued = false
       let house (w : Waiting) : Prop := ∃ h m b p slot, w.what = .write h m b p slot true
       (52 ≤ table ∨ (∀ w ∈ s.loom.waiting, mine w → waitingMay s w = false) → Completes (.waitingRequestIssue table tenant) s (· = s))
       ∧ (∀ w, waitingMay s w = true →
           (house w → s.houseOrUnowned w.table = true) ∧ (¬ house w → s.mayIssue w.table w.tenant = true))
       ∧ (∀ pre w post, table < 52 → s.loom.waiting = pre ++ w :: post → mine w → ¬ house w → (∀ x ∈ pre, mine x → house x) →
           waitingMay s w = true →
           let u := s.noteIssue table tenant
           (w.what = .read → Completes (.waitingRequestIssue table tenant) s
             (· = txnsGo { u with loom := { u.loom with waiting := pre ++ { w with issued := true } :: post } }))
           ∧ (∀ m, w.what = .link m → Completes (.waitingRequestIssue table tenant) s
             (· = ({ u with loom := { u.loom with waiting := pre ++ post } } : State).sendOn tenant m))
           ∧ (∀ h m b p slot, w.what = .write h m b p slot false → Completes (.waitingRequestIssue table tenant) s (· = txnsGo (waitedWrite u w)))
           ∧ u = { s with loom := { s.loom with issued := u.loom.issued, last := u.loom.last } }
           ∧ tenant ∈ mget u.loom.issued table [] ∧ (∀ x ∈ mget s.loom.issued table [], x ∈ mget u.loom.issued table [])
           ∧ (∀ k, k ≠ table → mget u.loom.issued k [] = mget s.loom.issued k [] ∧ mget? u.loom.last k = mget? s.loom.last k))
       ∧ (∀ pre w post, table < 52 → s.loom.waiting = pre ++ w :: post → mine w → house w → (∀ x ∈ s.loom.waiting, mine x → house x) →
           (∀ x ∈ pre, ¬ mine x) → waitingMay s w = true →
           Completes (.waitingRequestIssue table tenant) s (· = txnsGo (waitedWrite s w))))
  ∧ ((∀ (s : State) (c : Nat),
       let at_ (n from_ : Nat) : Prop := (∃ f, s.flushOf c = some f ∧ f.step = n) ∧ from_ ≤ s.since
       (¬ at_ 0 200 → Completes (.flushStoreBufferMove c) s (· = s))
       ∧ (¬ at_ 1 200 → Completes (.flushDirtyWritten c) s (· = s)) ∧ (¬ at_ 2 3480 → Completes (.flushCachesInvalidated c) s (· = s))
       ∧ (¬ at_ 3 3890 → Completes (.flushIncomingLoaded c) s (· = s)) ∧ (¬ at_ 4 4000 → Completes (.flushRelease c) s (· = s)))
     ∧ (∀ (s : State) (c : Nat) (f : Flush) (pre : List Claim) (x : Claim) (post : List Claim),
         let free (y : Claim) : Prop := y.cord = c ∧ y.filled = false
         let k := s.cord c
         s.flushOf c = some f → f.step = 0 → 200 ≤ s.since → k.bounced = [] →
         s.claimsOf (tileOf s c) = pre ++ x :: post → free x → (∀ y ∈ pre, ¬ free y) →
         Completes (.flushStoreBufferMove c) s fun t => ∃ s1 s2 : State,
           s1 = (s.setClaims (tileOf s c) (pre ++ { x with stores := x.stores ++ k.sbuf.filter (fun e => !e.knot) } :: post)).setCord c
             { k with sbuf := [], bounced := [] }
           ∧ s2 = (if f.ran then (saveTo s1 c (bits f.old.toNat 12 40 * 4096)).1 else s1)
           ∧ t = (s2.setCord c { s2.cord c with resv := none }).setFlush c (some { f with step := 1 }))
     ∧ (∀ (s : State) (c : Nat) (f : Flush), s.flushOf c = some f → f.step = 1 → 200 ≤ s.since →
         let ds := dirtyOf s (s.triadOf c) (s.shareOf c)
         let free := ((s.claimsOf (tileOf s c)).filter (fun y => y.cord == c && !y.filled)).length
         Completes (.flushDirtyWritten c) s fun t =>
           t.flushOf c = some { f with step := 2 } ∧ t.cords = s.cords ∧ t.mem = s.mem
           ∧ (2 ≤ free ∨ free = 1 ∧ ds.length ≤ 8192 →
               (∀ e ∈ t.l2, e.1 / 2 ^ 44 = s.triadOf c → e.2.share = s.shareOf c → e.2.dirty = 0)
               ∧ ∀ e ∈ ds, ∃ y ∈ t.claimsOf (tileOf s c), y.cord = c ∧ y.filled = true
                 ∧ { line := e.1, sel := e.2.dirty, poison := e.2.poison, bytes := e.2.bytes, sent := false } ∈ y.lines))
     ∧ (∀ (s : State) (c : Nat) (f : Flush), s.flushOf c = some f → f.step = 2 → 3480 ≤ s.since →
         Completes (.flushCachesInvalidated c) s fun t =>
           t.flushOf c = some { f with step := 3 } ∧ t.cord c = { Core.zero with run := .flushing }
           ∧ (∀ e ∈ t.l2, e.1 / 2 ^ 44 = s.triadOf c → e.2.share ≠ s.shareOf c) ∧ (∀ e ∈ t.tlb, e.cord ≠ c))
     ∧ (∀ (s : State) (c : Nat) (f : Flush), s.flushOf c = some f → f.step = 3 → 3890 ≤ s.since →
         (bits f.new.toNat 10 2 ≠ 1 → Completes (.flushIncomingLoaded c) s (· = s.setFlush c (some { f with step := 4 })))
         ∧ (∀ s1 ws, bits f.new.toNat 10 2 = 1 → readSlot s (s.triadOf c) (s.ctxOf c) = (s1, some ws) → ctxOk ws = true →
             s1.wants.length ≤ s.wants.length → (s1.triad (s.triadOf c)).ckptBad = [] →
             Completes (.flushIncomingLoaded c) s
               (· = (s1.setCord c { ctxCore ws with run := .flushing }).setFlush c (some { f with step := 4, loaded := true }))))
     ∧ (∀ (s : State) (c : Nat) (f : Flush), s.flushOf c = some f → f.step = 4 → 4000 ≤ s.since →
         let runs : Prop := f.loaded = true ∧ s.tstate (s.triadOf c) ≠ tst.FAILED ∧ s.tstate (s.triadOf c) ≠ tst.UNUSABLE
         Completes (.flushRelease c) s
           (· = (s.setFlush c none).setCord c { s.cord c with run := if runs then .running else .idle })))
  ∧ ((∀ (s : State) (tile i : Nat), (s.claimsOf tile)[i]? = none →
       Completes (.reserveLineDrain tile i) s (· = s) ∧ Completes (.reserveStorePerform tile i) s (· = s))
     ∧ (∀ (s : State) (tile i : Nat) (cl : Claim) (x : ClaimLine),
         (s.claimsOf tile)[i]? = some cl → cl.lines.find? (fun y => !y.sent) = some x →
         (reserveBeat s x.line = false → Completes (.reserveLineDrain tile i) s (· = s))
         ∧ (∀ h, reserveBeat s x.line = true → homeOfLine s x.line = some h → Completes (.reserveLineDrain tile i) s
             (· = claimsReturn ((warpWriteback s h (x.line % 2 ^ 40)).setClaims tile ((s.claimsOf tile).set i { cl with lines := cl.lines.erase x })) tile))
         ∧ (reserveBeat s x.line = true → homeOfLine s x.line = none → farModule s x.line = none → Completes (.reserveLineDrain tile i) s
             (· = claimsReturn (s.setClaims tile ((s.claimsOf tile).set i { cl with lines := cl.lines.erase x })) tile))
         ∧ (∀ m, reserveBeat s x.line = true → homeOfLine s x.line = none → farModule s x.line = some m →
             let kind : ReqKind := .wrPart (sectorMask x.sel) x.bytes (x.poison &&& x.sel)
             let sent := cl.lines.map (fun y => if y.line = x.line then { y with sent := true } else y)
             Completes (.reserveLineDrain tile i) s
               (· = ((s.setClaims tile ((s.claimsOf tile).set i { cl with lines := sent })).owe (s.triadOf cl.cord) (0x200 + 8 * tile + cl.way) x.line
                 kind).sendOn 0 (.remoteWrite m x.line cl.tenant (sectorMask x.sel) x.bytes (x.poison &&& x.sel)))))
     ∧ (∀ (s : State) (tile i : Nat) (cl : Claim), (s.claimsOf tile)[i]? = some cl →
         ((∀ x ∈ cl.lines, x.sent = true) → Completes (.reserveLineDrain tile i) s (· = claimsReturn s tile))
         ∧ ((∀ e ∈ cl.stores, e.sent = true) → Completes (.reserveStorePerform tile i) s (· = claimsReturn s tile)))
     ∧ (∀ (s : State) (tile i : Nat) (cl : Claim) (e : SbEnt),
         let line := normLine s e.pa
         let low := line % 2 ^ 40
         let held (x : ClaimLine) : Prop := (∃ y ∈ s.claimsOf tile, y.cord = cl.cord ∧ x ∈ y.lines) ∧ x.line = line
         let merged (x : ClaimLine) : ClaimLine :=
           if x.line = line ∧ x.sent = false then
             { x with sel := x.sel ||| touched e.mask, bytes := mergeLine x.bytes e.bytes e.mask, poison := x.poison &&& ~~~covered e.mask }
           else x
         (s.claimsOf tile)[i]? = some cl → cl.stores.find? (fun y => !y.sent) = some e → e.attr ≠ .device →
         ((∃ x, held x ∧ x.sent = false) → Completes (.reserveStorePerform tile i) s fun t =>
           ∃ u, t = claimsReturn u tile
             ∧ u.claimsOf tile = (s.claimsOf tile).map (fun y => { y with
                 lines := if y.cord = cl.cord then y.lines.map merged else y.lines
                 stores := if y.way = cl.way then cl.stores.filter (fun z => z.tag ≠ e.tag) else y.stores })
             ∧ u = { s with loom := { s.loom with claims := u.loom.claims }, warp := u.warp }
             ∧ (∀ w, homeOfLine s line ≠ none → mget? s.warp low = some w → ∃ w', mget? u.warp low = some w'
                 ∧ w'.bytes = mergeLine w.bytes e.bytes e.mask ∧ w'.dirty = w.dirty ||| touched e.mask ∧ w'.tenant = w.tenant
                 ∧ w'.poison = w.poison &&& ~~~covered e.mask)
             ∧ ∀ k, k ≠ low → mget? u.warp k = mget? s.warp k)
         ∧ ((∃ x, held x) → (∀ x, held x → x.sent = true) → Completes (.reserveStorePerform tile i) s (· = s))
         ∧ ((∀ x, ¬ held x) → e.toMem s = true → reserveBeat s line = false → Completes (.reserveStorePerform tile i) s (· = s)))
     ∧ ∀ (s : State) (tile : Nat),
         let done (y : Claim) : Bool := y.filled && y.lines.isEmpty && y.stores.isEmpty
         let t := claimsReturn s tile
         tile < 4 → s.get (LOOM_FLUSHRES.free tile) + (s.claimsOf tile).length ≤ 15 →
         t.claimsOf tile = (s.claimsOf tile).filter (fun y => !done y)
         ∧ t.get (LOOM_FLUSHRES.free tile) = s.get (LOOM_FLUSHRES.free tile) + ((s.claimsOf tile).filter done).length
         ∧ t = { s with regs := t.regs, loom := { s.loom with claims := t.loom.claims } })

/-- R6: an offset that is assigned to no register reads zero, and a write to it, by the host or by a store, is ignored. -/
def Obligations.UnassignedOffsetsReadZero : Prop :=
  ∀ (s : State) (off : Nat), rowAt off = none →
    readReg s off = 0 ∧ hostRead s off = { s with resp := [0] }
    ∧ (∀ v, Completes (.registerWrite off v []) s (· = s)) ∧ ∀ who v, regWrite s who off v = s

/-- (1) R6, R9 to R11: what a host write leaves in a register, field by field: RW takes the value, WO keeps nothing, W1C clears, LOCK takes the first
write; a reserved encoding leaves the field as it was and the other fields take theirs; reserved bits, RO fields and every other register are
unchanged, and an unassigned offset ignores the write. (2) R11, R12: MOD_CFGERR takes the lowest refused field of a write while VALID is 0, with
OVERFLOW for a further one; while VALID is 1 a refusal sets OVERFLOW only. A write that refuses nothing leaves it alone. (3) R6, R12, R207:
REGISTER_WRITE writes a register that is no command register by the rules of host writes, ignores an unassigned offset, and of two writes in one fclk
carries out the one of MOD_CFGERR first, so that a refusal beside it wins. (4) R9: the counters that reading clears: the read returns the counts and
leaves them zero, other registers and everything else as they were. A Weft port's error counters read zero in another mode. -/
def Obligations.RegisterWritesFollowFieldRules : Prop :=
  ((∀ (s : State) (off : Nat) (v : Word), rowAt off = none → hostWrite s off v = s)
   ∧ ∀ (s : State) (off : Nat) (v : Word) (r : RegRow), rowAt off = some r →
     let t := hostWrite s off v
     (∀ f ∈ r.fields,
       let old := bits (s.rd off) f.lsb f.w
       let new := bits v.toNat f.lsb f.w
       let now := bits (t.rd off) f.lsb f.w
       let takes : Prop := gateOpen s off f.gate = true ∧ ruleOk s off v.toNat new f.rule = true
       (¬ takes → now = old)
       ∧ (takes → f.acc = .rw ∨ f.acc = .held → now = new)
       ∧ (takes → f.acc = .wo → now = old)
       ∧ (takes → f.acc = .w1c → ∀ i, i < f.w → now.testBit i = (old.testBit i && !new.testBit i))
       ∧ (takes → f.acc = .lock → off * 64 + f.lsb ∈ s.locks → now = old)
       ∧ (takes → f.acc = .lock → off * 64 + f.lsb ∉ s.locks → now = new ∧ off * 64 + f.lsb ∈ t.locks))
     ∧ (∀ i, i < 64 → (∀ f ∈ r.fields, i < f.lsb ∨ f.lsb + f.w ≤ i) → (t.rd off).testBit i = (s.rd off).testBit i)
     ∧ (∀ o, o ≠ off → o ≠ MOD_CFGERR.off → t.rd o = s.rd o)
     ∧ t = { s with regs := t.regs, locks := t.locks })
  ∧ (∀ (s : State) (off : Nat) (v : Word) (r : RegRow), rowAt off = some r → off ≠ MOD_CFGERR.off →
       let t := hostWrite s off v
       let refused (f : WField) : Prop := f ∈ r.fields ∧ gateOpen s off f.gate = true ∧ ¬ (f.acc = .lock ∧ off * 64 + f.lsb ∈ s.locks)
         ∧ ruleOk s off v.toNat (bits v.toNat f.lsb f.w) f.rule = false
       ((∀ f, ¬ refused f) → t.rd MOD_CFGERR.off = s.rd MOD_CFGERR.off)
       ∧ (∀ f, refused f → (∀ g, refused g → f.lsb ≤ g.lsb) → s.flag MOD_CFGERR.VALID = false →
           t.flag MOD_CFGERR.VALID = true ∧ t.get MOD_CFGERR.OFFSET = off ∧ t.get MOD_CFGERR.FIELD_LSB = f.lsb
           ∧ t.get MOD_CFGERR.FIELD_MSB = f.lsb + f.w - 1
           ∧ (t.flag MOD_CFGERR.OVERFLOW = true ↔ s.flag MOD_CFGERR.OVERFLOW = true ∨ ∃ g, refused g ∧ g ≠ f))
       ∧ (∀ f, refused f → s.flag MOD_CFGERR.VALID = true →
           t.flag MOD_CFGERR.OVERFLOW = true ∧ t.flag MOD_CFGERR.VALID = true ∧ t.get MOD_CFGERR.OFFSET = s.get MOD_CFGERR.OFFSET
           ∧ t.get MOD_CFGERR.FIELD_LSB = s.get MOD_CFGERR.FIELD_LSB ∧ t.get MOD_CFGERR.FIELD_MSB = s.get MOD_CFGERR.FIELD_MSB))
  ∧ ((∀ (s : State) (off : Nat) (v : Word), pageVi off = none →
       (rowAt off = none → Completes (.registerWrite off v []) s (· = s))
       ∧ ∀ r, rowAt off = some r → r.base ∉ commandRegisters → Completes (.registerWrite off v []) s (· = hostWrite s off v))
     ∧ (∀ (s : State) (off vi : Nat) (v : Word), pageVi off = some vi → 0x400 ≤ off % 0x1000 → pageOpen s vi host = true →
         Completes (.registerWrite off v []) s (· = hostWrite s off v))
     ∧ (∀ (s : State) (off : Nat) (v w : Word), off ≠ MOD_CFGERR.off →
         ∃ t u, exec (.registerWrite MOD_CFGERR.off w []) s = .next t ∧ exec (.registerWrite off v []) t = .next u
           ∧ exec (.registerWrite off v [{ off := MOD_CFGERR.off, v := w }]) s = .next u))
  ∧ (∀ (s : State),
       let reads (i : Instr) (off : Nat) (fs : List Fld) : Prop := Completes i s fun t =>
         t = { s with resp := t.resp, regs := t.regs } ∧ t.resp = [BitVec.ofNat 64 (s.rd off)] ∧ (∀ f ∈ fs, t.get f = 0)
         ∧ ∀ o, o ≠ off → t.rd o = s.rd o
       (∀ k, k < 48 → reads (.triCntRead k) (TRI_CNT.off k)
         [TRI_CNT.CE_A k, TRI_CNT.CE_B k, TRI_CNT.CE_C k, TRI_CNT.RETRY k, TRI_CNT.FAILRETRY k])
       ∧ (∀ k, k < 48 → reads (.crdLockinvRead k) (CRD_LOCKINV.off k) [CRD_LOCKINV.COUNT k])
       ∧ (∀ h, h < 32 → reads (.cohCntRead h) (COH_CNT.off h) [COH_CNT.CROSS h, COH_CNT.BACKINV h, COH_CNT.DIRSLIP h, COH_CNT.MERGE h])
       ∧ (∀ h, h < 32 → reads (.memSelvRead h) (MEM_SELV.off h) [MEM_SELV.COUNT h, MEM_SELV.LASTTEN h])
       ∧ (∀ k, k < 1024 → reads (.fcuCntRead k) (FCU_CNT.off k) [FCU_CNT.CE k, FCU_CNT.DE k, FCU_CNT.UC k, FCU_CNT.UF k])
       ∧ (∀ p, p < 48 → s.flag (CHP_CFG.MODE p) = true → reads (.chpWerrRead p) (CHP_WERR.off p)
         [CHP_WERR.FECCORR p, CHP_WERR.REPLAY p, CHP_WERR.RETRAIN p, CHP_WERR.FRAMECRC p, CHP_WERR.DUPACK p, CHP_WERR.BADTYPE p])
       ∧ (∀ p, p < 48 → s.flag (CHP_CFG.MODE p) = false → Completes (.chpWerrRead p) s fun t => t.resp = [0] ∧ t.get (CHP_WERR.REPLAY p) = 0)
       ∧ reads .pwrDarkRead PWR_DARK.off [PWR_DARK.COUNT, PWR_DARK.DOMAIN]
       ∧ (∀ i, 1 ≤ i → i < 10 → reads (.pwrRefcntRead i) (PWR_REFCNT.off i) [PWR_REFCNT.COUNT i])
       ∧ (∀ k, 48 ≤ k → Completes (.triCntRead k) s (· = s) ∧ Completes (.crdLockinvRead k) s (· = s))
       ∧ (∀ h, 32 ≤ h → Completes (.cohCntRead h) s (· = s) ∧ Completes (.memSelvRead h) s (· = s)))

/-- (1) R169, R176, R183, R314, R345: a request at its home. One of another module before this one's admission is not answered. One that the selvedge refuses, or whose memory is dark, is answered HOLE or DARK, a write to dark
memory being dropped and counted; one whose line has a transaction open queues behind it; a WR_PART that finds the merge buffer full waits; one that
needs answers opens a transaction and sends its snoops. (2) R154, R165, R169, R175, R176: a request whose line no cache holds and the warp cache does
is answered at once: CMP, the data when the requester needs it, the directory's new entry; a write or atomic changes the line in the warp cache, an
atomic answers the old value at its place. Memory and every other line are as before. -/
def Obligations.HomeRequestsAnswered : Prop :=
  (∀ (s : State) (q : Req) (h : Nat) (bytes : LineData) (poison : BitVec 4) (mask : LineMask) (addr : Nat) (wide : Bool) (aop : BitVec 4)
       (x y : Word) (op : CmoOp),
     let rows : List (Instr × ReqKind) :=
       [(.rdS q, .rdS), (.rdO q, .rdO), (.rdOz q, .rdOZ), (.upg q, .upg), (.rdOnce q, .rdOnce), (.wrLine q bytes poison, .wrLine bytes poison)
         , (.wrPart q mask ⟨bytes, poison⟩, .wrPart mask bytes poison), (.atom q addr wide aop x y, .atom addr wide aop x y), (.cmo q op, .cmo op)]
     let place := placeFor s (q.line * 256) q.tenant
     let plan (k : ReqKind) := snoopPlan (s.dirAt q.line) k q.src
     let refuses (u : State) (e : CmpEnd) : State := u.answerTo q.src q.tenant (.cmp q.src q.line .I e)
     let heard : Prop := q.src < 64 ∨ awaitsAdmission s = false
     (¬ heard → ∀ r ∈ rows, Completes r.1 s (· = s))
     ∧ (heard → q.src ≠ selfReq → (∀ n, place ≠ .mem n) → ∀ r ∈ rows, Completes r.1 s (· = refuses (countRefusal s (q.line * 256) q.tenant) .hole))
     ∧ (heard → q.src ≠ selfReq → place = .mem h → s.lit (dom.mem h) = false → ∀ r ∈ rows,
         Completes r.1 s (· = refuses (if r.2.writes then darkStore s (dom.mem h) else s) .dark))
     ∧ (heard → place = .mem h → s.lit (dom.mem h) = true → normLine s (q.line * 256) = q.line → s.flag SPL_LEAVE.BUSY = false →
         (∀ u, mget? s.txns q.line = some u → ∀ r ∈ rows,
           Completes r.1 s (· = { s with txns := mset s.txns q.line { u with queue := u.queue ++ [(r.2, q)] } }))
         ∧ (mget? s.txns q.line = none → ∀ r ∈ rows, selfOwned (s.dirAt q.line) r.2 q.src = false →
             (mergesFull s h r.2 = true → Completes r.1 s (· = s.modCtl h (fun c => { c with parts := c.parts ++ [(r.2, q)] })))
             ∧ (mergesFull s h r.2 = false → plan r.2 ≠ [] →
                 Completes r.1 s (· = (plan r.2).foldl
                   (fun u p => u.sendTo p.2 q.line q.tenant (.snp p.1 { agent := p.2, line := q.line, req := q.src }))
                   { s with
                     txns := mset s.txns q.line { kind := r.2, req := q, waits := (plan r.2).map (·.2), told := Told.none, queue := [] } })))))
  ∧ (∀ (s : State) (q : Req) (h : Nat) (w : WLine),
       let low := q.line % 2 ^ 40
       placeFor s (q.line * 256) q.tenant = .mem h → s.lit (dom.mem h) = true → normLine s (q.line * 256) = q.line → s.flag SPL_LEAVE.BUSY = false →
       q.src < 64 ∨ awaitsAdmission s = false →
       mget? s.txns q.line = none → (s.dirAt q.line).st = .I → warpLine s h low = some w → q.bad = 0 → q.src ≠ selfReq →
       dirRoom s h q.line = (s, true) → throughShared s h (low * 256) = false →
       let cmp (st : Moesi) : Msg := .cmp q.src q.line st .good
       let data : Msg := .data q.src q.line 15 0 w.poison w.bytes
       let quiet (t : State) : Prop := t.mem = s.mem ∧ t.l2 = s.l2 ∧ (∀ k, k ≠ low → mget? t.warp k = mget? s.warp k)
         ∧ (∀ l, l ≠ q.line → mget? t.txns l = mget? s.txns l ∧ t.dirAt l = s.dirAt l)
       let owned (t : State) : Prop := (t.dirAt q.line).st = .X ∧ (t.dirAt q.line).owner = q.src
       let becomes (t : State) (bytes : LineData) (dirty poison : BitVec 4) : Prop :=
         mget? t.warp low = some { w with bytes := bytes, dirty := dirty, poison := poison }
       Completes (.rdS q) s (fun t => quiet t ∧ owned t ∧ t.net = s.net ++ [cmp .E, data] ∧ t.warp = s.warp ∧ t.cords = s.cords)
       ∧ Completes (.rdOnce q) s (fun t => quiet t ∧ (t.dirAt q.line).st = .I ∧ t.net = s.net ++ [cmp .I, data]
           ∧ t.warp = s.warp ∧ t.cords = s.cords)
       ∧ (∀ i ∈ [Instr.rdO q, .upg q], Completes i s fun t => quiet t ∧ owned t ∧ t.net = s.net ++ [cmp .M, data] ∧ t.warp = s.warp)
       ∧ Completes (.rdOz q) s (fun t => quiet t ∧ owned t ∧ t.net = s.net ++ [cmp .M] ∧ t.warp = s.warp)
       ∧ (∀ bytes poison, Completes (.wrLine q bytes poison) s fun t =>
           quiet t ∧ (t.dirAt q.line).st = .I ∧ t.net = s.net ++ [cmp .I] ∧ becomes t bytes 15 poison)
       ∧ (∀ mask bytes poison, mergesHeld s h < 16 → Completes (.wrPart q mask ⟨bytes, poison⟩) s fun t =>
           quiet t ∧ (t.dirAt q.line).st = .I ∧ t.net = s.net ++ [cmp .I]
           ∧ becomes t (mergeLine w.bytes bytes mask) (w.dirty ||| touched mask) ((w.poison &&& ~~~covered mask) ||| (poison &&& touched mask))
           ∧ t.get (COH_CNT.MERGE h) = min (s.get (COH_CNT.MERGE h) + 1) 65535)
       ∧ (∀ addr (wide : Bool) (aop : BitVec 4) x y v,
           let n := if wide then 8 else 4
           let o := addr % 256 / n * n
           let old := lineBytes w.bytes o n
           let sel := touched (spanMask o n)
           atomOp (8 * n) aop.toNat old x.toNat y.toNat = some v →
           Completes (.atom q addr wide aop x y) s fun t =>
             quiet t ∧ (t.dirAt q.line).st = .I
             ∧ t.net = s.net ++ [cmp .I, .data q.src q.line sel 0 (if w.poison.getLsbD (o / 64) then sel else 0) (spanBytes o old)]
             ∧ ∃ u, mget? t.warp low = some u ∧ lineBytes u.bytes o n = v
               ∧ ∀ i, i < 256 → i < o ∨ o + n ≤ i → lineBytes u.bytes i 1 = lineBytes w.bytes i 1)
       ∧ (∀ op, Completes (.cmo q op) s fun t =>
           quiet t ∧ (t.dirAt q.line).st = .I ∧ t.net = s.net ++ [cmp .I] ∧ t.warp = s.warp))

/-- (1) R150, R166, R168, R170, R172: a cache that is snooped, with no knot or reservation to lose, no fill pending and its share enabled. A held line keeps
the snoop waiting in the L2's snoop queue, and at its sender while that is full; an evicting line answers RSP_EVICTING; else the answer and the line's
next state are those of its state, dirty data going to the requester or, invalidated, to the home. A snoop that is not on its way is none. (2) R152,
R165, R168, R235: CMP gives a line its state, and holds one granted in M or E for the hitch time; for a request that caches nothing it is kept as that
request's end. DATA fills its sectors, a fresh line taking a free way; at the end of the hitch time the hold ends and the snoops that waited proceed in
order. -/
def Obligations.SnoopsAndGrantsMoveLines : Prop :=
  ((∀ (s : State) (m : Snoop) (k : SnpKind) (i : Instr),
       (i, k) ∈ [(Instr.snpS m, SnpKind.S), (.snpC m, .C), (.snpO m, .O), (.snpI m, .I), (.snpIz m, .IZ), (.snpL1i m, .L1I)] →
       (49 ≤ m.agent ∨ (s.flies (.snp k m) = false ∧ homeOfLine s m.line ≠ none) → Completes i s (· = s))
       ∧ (m.agent < 48 → s.flies (.snp k m) = true → k ≠ .L1I → (s.l2At m.agent m.line).held = true →
           (snoopRoom s m.agent m.line = true → Completes i s (· = { s.take (.snp k m) with snoops := s.snoops ++ [(k, m)] }))
           ∧ (snoopRoom s m.agent m.line = false → Completes i s (· = s))))
   ∧ ∀ (s : State) (m : Snoop),
       let line := s.l2At m.agent m.line
       let gets (k : SnpKind) (i : Instr) (p : State → Prop) : Prop := s.flies (.snp k m) = true → Completes i s p
       let goes (k : SnpKind) (ms : List Msg) (u t : State) : Prop :=
         t = { u with net := s.net.erase (.snp k m) ++ ms, loom := { s.loom with acc := t.loom.acc } }
         ∧ (m.req < 64 → homeOfLine s m.line ≠ none → t.loom.acc = s.loom.acc)
       let answers (k : SnpKind) (ms : List Msg) : State → Prop := goes k ms s
       let after (k : SnpKind) (l : CLine) (ms : List Msg) : State → Prop := goes k ms (s.setL2 m.agent m.line l)
       let forward (dirty : BitVec 4) : Msg := .data m.req m.line line.valid dirty line.poison line.bytes
       m.agent < 48 → line.held = false → fillPending s m.agent m.line = false →
       (∀ c ∈ s.cordsOf m.agent, (s.cord c).knot = none ∧ (s.cord c).resv = none ∧ mput s.cords c (s.cord c) Core.zero = s.cords) →
       l2Off s m.agent line.share = false → wayLocked s m.agent line.way = false → mget? s.txns m.line = none →
       gets .L1I (.snpL1i m) (after .L1I { line with l1i := 0 } [.rspI m.agent m.line])
       ∧ (∀ e x, evFind s m.agent m.line = some (e, x) →
           let gone : Msg := .rspEvicting m.agent m.line e x.dirty
           let sent : Msg := .data m.req m.line x.valid x.dirty x.poison x.bytes
           gets .IZ (.snpIz m) (answers .IZ [gone])
           ∧ (∀ i k, (i, k) ∈ [(Instr.snpS m, SnpKind.S), (.snpO m, .O)] → gets k i (answers k [sent, gone]))
           ∧ (x.dirty = 0 → gets .C (.snpC m) (answers .C [sent, gone]) ∧ gets .I (.snpI m) (answers .I [gone])))
       ∧ (evFind s m.agent m.line = none →
         (line.st = .I → ∀ i k, (i, k) ∈ [(Instr.snpS m, SnpKind.S), (.snpC m, .C), (.snpO m, .O), (.snpI m, .I), (.snpIz m, .IZ)] →
           gets k i (answers k [.rspI m.agent m.line]))
         ∧ (line.st = .S →
             (∀ i k, (i, k) ∈ [(Instr.snpS m, SnpKind.S), (.snpC m, .C)] → gets k i (answers k [.rspS m.agent m.line]))
             ∧ ∀ i k, (i, k) ∈ [(Instr.snpO m, SnpKind.O), (.snpI m, .I), (.snpIz m, .IZ)] →
               gets k i (after k CLine.none [.rspI m.agent m.line]))
         ∧ (line.st = .M ∨ line.st = .O ∨ line.st = .E →
             let owned : Bool := line.st == .O || (line.st == .M && line.dirty != 0)
             gets .S (.snpS m) (after .S { line with st := if owned then .O else .S }
               [forward 0, .rspFwd m.agent m.line (if owned then line.dirty else 0)])
             ∧ gets .C (.snpC m) (answers .C [forward 0, .rspFwd m.agent m.line line.dirty])
             ∧ gets .O (.snpO m) (after .O CLine.none [forward line.dirty, .rspFwd m.agent m.line line.dirty])
             ∧ gets .IZ (.snpIz m) (after .IZ CLine.none [.rspI m.agent m.line])
             ∧ (line.dirty = 0 → gets .I (.snpI m) (after .I CLine.none [.rspI m.agent m.line])))))
  ∧ ((∀ (s : State) (agent line : Nat) (st : Moesi) (e : CmpEnd),
         let c := s.l2At agent line
         let m : Msg := .cmp agent line st e
         let mine (o : Owed) : Prop := o.agent = agent ∧ o.line = line
         (s.flies m = false → homeOfLine s line ≠ none → Completes (.cmpGrant agent line ⟨st, e⟩) s (· = s))
         ∧ (s.flies m = true → 48 ≤ agent ∨ st = .I →
             ((∀ o ∈ s.owed, ¬ mine o) → Completes (.cmpGrant agent line ⟨st, e⟩) s (· = s.take m))
             ∧ (∀ o, s.owed = [o] → mine o → o.kind.allocs = false → o.kind.noted = true → o.cmp = none →
                 Completes (.cmpGrant agent line ⟨st, e⟩) s (· = { s.take m with owed := [{ o with cmp := some e }] }))
             ∧ (∀ o, s.owed = [o] → mine o → o.kind.allocs = true → e.refuses = true →
                 Completes (.cmpGrant agent line ⟨st, e⟩) s (· = { s.take m with owed := [{ o with cmp := some e }] })))
         ∧ (s.flies m = true → agent < 48 → st ≠ .I → Completes (.cmpGrant agent line ⟨st, e⟩) s
             (· = ({ s.take m with owed := s.owed.filter (fun o => !(o.agent == agent && o.line == line && o.kind.allocs)) } : State).setL2
               agent line
               { c with st := st, share := placeIn s agent line, way := if c.st = .I ∧ c.valid = 0 then Config.l2Ways else c.way
                        held := c.held || ((st == .M || st == .E) && c.st != st) })))
     ∧ (∀ (s : State) (agent line : Nat) (bytes : LineData) (valid dirty poison : BitVec 4) (m : Msg),
         let x := s.l2At agent line
         let place := placeIn s agent line
         let fresh : Prop := x.st = .I ∧ x.valid = 0
         m ∈ [Msg.data agent line valid dirty poison bytes, .data agent line 0 0 0 0] → valid ≠ 0 → s.flies m = true →
         (∀ v d p b, Msg.data agent line v d p b ∈ s.net → Msg.data agent line v d p b = m) →
         (∀ o, s.owed = [o] → o.agent = agent → o.line = line → o.kind.answers = true → o.copy = none → agent < 64 →
           Completes (.data agent line bytes valid dirty poison none) s
             (· = { s.take m with owed := [{ o with copy := some (bytes, poison) }] }))
         ∧ (s.owed = [] →
           (∀ w, agent < 48 → line < 2 ^ 44 → (∀ e ∈ s.l2, e.1 / 2 ^ 44 = agent → e.2.way ≠ Config.l2Ways) → (¬ fresh → w = x.way) →
             (fresh → freeWay s agent place (s.tenantOf (s.cordOf agent place)) line = some w) →
             Completes (.data agent line bytes valid dirty poison none) s fun t =>
               t = { s with net := s.net.erase m, l2 := t.l2 }
               ∧ (∀ l, l ≠ line → l < 2 ^ 44 → t.l2At agent l = s.l2At agent l)
               ∧ (let y := t.l2At agent line
                  y.st = x.st ∧ y.valid = x.valid ||| valid ∧ y.way = w ∧ y.share = place ∧ y.held = x.held
                  ∧ ∀ i, i < 4 → (valid.getLsbD i = true → lineSector y.bytes i = lineSector bytes i ∧ y.dirty.getLsbD i = dirty.getLsbD i
                         ∧ y.poison.getLsbD i = poison.getLsbD i)
                       ∧ (valid.getLsbD i = false → lineSector y.bytes i = lineSector x.bytes i ∧ y.dirty.getLsbD i = x.dirty.getLsbD i
                         ∧ y.poison.getLsbD i = x.poison.getLsbD i)))
           ∧ (agent = 48 → s.flag CHS_CFG.DCEN = false → Completes (.data agent line bytes valid dirty poison none) s (· = s.take m))
           ∧ (∀ w ∈ dcWays s (lineOwner s line), agent = 48 → s.flag CHS_CFG.DCEN = true →
               (∀ e ∈ s.chs.dc, e.1 % 512 = line % 512 → e.1 ≠ line → e.2.way ≠ w) →
               Completes (.data agent line bytes valid dirty poison none) s fun t =>
                 t = { s with net := s.net.erase m, chs := { s.chs with dc := t.chs.dc }, seq := s.seq + 1 }
                 ∧ (∃ x, mget? t.chs.dc line = some x ∧ x.bytes = bytes ∧ x.poison = poison ∧ x.way ∈ dcWays s (lineOwner s line))
                 ∧ ∀ k, k ≠ line → mget? t.chs.dc k = mget? s.chs.dc k)
           ∧ (48 < agent → agent < 64 → Completes (.data agent line bytes valid dirty poison none) s (· = s.take m))))
     ∧ (∀ (s : State) (agent line : Nat),
         let c := s.l2At agent line
         (fillPending s agent line = true → c.held = false → Completes (.hitchTimeExpiry agent line) s (· = s))
         ∧ (c.held = true → (∀ e ∈ s.snoops, ¬ (e.2.agent = agent ∧ e.2.line = line)) → (∀ e ∈ s.txns, e.2.waits ≠ []) →
             Completes (.hitchTimeExpiry agent line) s (· = s.setL2 agent line { c with held := false }))
         ∧ (∀ k m rest, c.held = true → s.snoops = (k, m) :: rest → m.agent = agent → m.line = line →
             (∀ e ∈ rest, ¬ (e.2.agent = agent ∧ e.2.line = line)) →
             Completes (.hitchTimeExpiry agent line) s
               (· = txnsGo (answerSnoop { (s.setL2 agent line { c with held := false }) with snoops := rest } k m)))))

/-- (1) R169, R171, R172, R177: a WB at the home is taken, its dirty sectors handed to memory and the writer's copy forgotten, and acknowledged once its
write has been made, unless the eviction crossed a snoop, when it is discarded and acknowledged, or a snoop to the writer is outstanding, when it
waits; WB_ACK frees the eviction-buffer entry, whereupon lines without a way may have one. An answer to a snoop counts once and ends the transaction
when it is the last one. (2) R158, R160, R161, R163, R321: the cache registers of a triad and the write-through of SHARED lines. A range operation over
lines not in the cache only sets BUSY, which its end clears; CLEAN leaves a line of its range clean and kept, FLUSH gone; a second GO while BUSY is
ignored. -/
def Obligations.WritebacksAcknowledgedAndCachesKept : Prop :=
  ((∀ (s : State) (agent entry : Nat) (x : EvEnt) (dirty poison : BitVec 4) (bytes : LineData) (i : Instr) (msg : Msg),
       (i, msg) ∈ [(Instr.wbD agent ⟨entry, x.line, dirty, poison, bytes⟩, Msg.wbD agent entry x.line), (.wbC agent ⟨entry, x.line⟩, .wbC agent entry x.line)] →
       let tag := agent * 16 + entry
       let ack : Msg := .wbAck agent entry
       agent < 48 → mget? s.ev tag = some x →
       (s.flies msg = false ∨ homeOfLine s x.line = none → Completes i s (· = s))
       ∧ (s.flies msg = true → homeOfLine s x.line ≠ none →
           (tag ∈ s.evPend → Completes i s (· = { s with net := s.net.erase msg ++ [ack], evPend := s.evPend.erase tag }))
           ∧ (tag ∉ s.evPend → snoopOut s agent x.line = true → Completes i s (· = s))
           ∧ (tag ∉ s.evPend → snoopOut s agent x.line = false →
               (msg = .wbC agent entry x.line ∨ x.dirty = 0 → slotWaits s tag = false →
                 Completes i s (· = (dirForget (s.take msg) x.line agent).send ack))
               ∧ ∀ h u, msg = .wbD agent entry x.line → homeOfLine s x.line = some h → x.dirty ≠ 0 →
                 u = dirForget (homeSectors (s.take msg) h x.line x.dirty x.bytes x.poison (ownerOf s h (x.line * 256 % 2 ^ 48)) (.entry tag))
                   x.line agent →
                 (slotWaits u tag = true → Completes i s (· = u)) ∧ (slotWaits u tag = false → Completes i s (· = u.send ack)))))
   ∧ (∀ (s : State) (agent entry line : Nat) (dirty poison : BitVec 4) (bytes : LineData),
       let tag := (agent - 63) * 768 + entry
       let acked (u : State) : State := u.answerTo agent 0 (.wbAck agent entry)
       64 ≤ agent → entry < 768 → homeOfLine s line ≠ none →
       ∀ i ∈ [Instr.wbD agent ⟨entry, line, dirty, poison, bytes⟩, .wbC agent ⟨entry, line⟩],
         (tag ∈ s.evPend → Completes i s (· = acked { s with evPend := s.evPend.erase tag }))
         ∧ (tag ∉ s.evPend → snoopOut s agent line = true → Completes i s (· = s))
         ∧ (tag ∉ s.evPend → snoopOut s agent line = false → i = .wbC agent ⟨entry, line⟩ ∨ dirty = 0 → slotWaits s tag = false →
             Completes i s (· = acked (dirForget s line agent))))
   ∧ (∀ (s : State) (agent entry : Nat) (x : EvEnt), mget? s.ev (agent * 16 + entry) = some x → s.flies (.wbAck agent entry) = true →
       let t : State := { s.take (.wbAck agent entry) with ev := mdel s.ev (agent * 16 + entry) }
       Completes (.wbAck agent entry) s (· = settleWays t agent)
       ∧ ((∀ e ∈ s.l2, e.1 / 2 ^ 44 = agent → e.2.way ≠ Config.l2Ways) → Completes (.wbAck agent entry) s (· = t)))
   ∧ (∀ (s : State) (agent line entry h : Nat) (dirty : BitVec 4) (x : Txn), mget? s.txns line = some x → agent ∈ x.waits →
       x.waits.erase agent ≠ [] → homeOfLine s line = some h → (∀ e ∈ s.txns, e.1 ≠ line → e.2.waits ≠ []) →
       let here (m : Msg) : Prop := 64 ≤ agent ∨ s.flies m = true
       let promised : List Msg := if 64 ≤ agent then [.data x.req.src line 0 0 0 0] else []
       let told (t : State) (net : List Msg) (u : Told) : Prop := t = { s with
         net := net, regs := t.regs, evPend := t.evPend
         txns := mset s.txns line { x with waits := x.waits.erase agent, told := u } }
       (here (.rspI agent line) → Completes (.rspI agent line) s fun t =>
           told t (s.net.erase (.rspI agent line)) x.told ∧ t.regs = s.regs ∧ t.evPend = s.evPend)
       ∧ (here (.rspS agent line) → Completes (.rspS agent line) s fun t =>
           told t (s.net.erase (.rspS agent line)) { x.told with kept := true } ∧ t.regs = s.regs ∧ t.evPend = s.evPend)
       ∧ (here (.rspFwd agent line dirty) → Completes (.rspFwd agent line dirty) s fun t =>
           told t (s.net.erase (.rspFwd agent line dirty) ++ promised) { x.told with
             fwd := true, kept := x.told.kept || x.kind.keeps, dirty := x.told.dirty ||| dirty } ∧ t.regs = s.regs ∧ t.evPend = s.evPend)
       ∧ (here (.rspEvicting agent line entry dirty) → Completes (.rspEvicting agent line entry dirty) s fun t =>
           told t (s.net.erase (.rspEvicting agent line entry dirty) ++ promised)
             { x.told with dirty := x.told.dirty ||| dirty, evicting := true }
           ∧ evTag agent entry ∈ t.evPend ∧ (∀ y ∈ s.evPend, y ∈ t.evPend)
           ∧ t.get (COH_CNT.CROSS h) = min (s.get (COH_CNT.CROSS h) + 1) 65535))
   ∧ ∀ (s : State) (agent line entry : Nat) (dirty : BitVec 4), agent < 64 →
       (s.flies (.rspI agent line) = false → Completes (.rspI agent line) s (· = s))
       ∧ (s.flies (.rspS agent line) = false → Completes (.rspS agent line) s (· = s))
       ∧ (s.flies (.rspFwd agent line dirty) = false → Completes (.rspFwd agent line dirty) s (· = s))
       ∧ (s.flies (.rspEvicting agent line entry dirty) = false → Completes (.rspEvicting agent line entry dirty) s (· = s)))
  ∧ ((∀ (s : State) (t : Nat) (v : Word), t < 48 → Completes (.cacheDisable t v) s (· = hostWrite s (CRD_CTL.off t) v))
     ∧ (∀ (s : State) (t : Nat), t < 48 → Completes (.rangeOpDone t) s fun u =>
         u = { s with regs := u.regs } ∧ SetsRegs s [(CRD_RNGCTL.BUSY t, 0)] u ∧ u.flag (CRD_RNGCTL.BUSY t) = false)
     ∧ (∀ (s : State) (t : Nat) (v : Word) (i : Instr), i ∈ [Instr.rangeClean t v, .rangeFlush t v] → t < 48 →
         (s.flag (CRD_RNGCTL.BUSY t) = true → v.getLsbD 63 = true → Completes i s (· = s))
         ∧ (s.flag (CRD_RNGCTL.BUSY t) = false → v.getLsbD 63 = true → 1 ≤ bits v.toNat 24 2 → bits v.toNat 24 2 < 3 → bits v.toNat 0 24 ≠ 0 →
             let base := s.get (CRD_RNGBASE.BASE t)
             let inRange (k : Nat) : Prop := k / 2 ^ 44 = t ∧ base ≤ k % 2 ^ 44 ∧ k % 2 ^ 44 < base + bits v.toNat 0 24
             ((∀ e ∈ s.l2, ¬ inRange e.1) → Completes i s fun u =>
               u = { s with regs := u.regs } ∧ u.flag (CRD_RNGCTL.BUSY t) = true
               ∧ u.get (CRD_RNGCTL.OP t) = bits v.toNat 24 2 ∧ u.get (CRD_RNGCTL.LINES t) = bits v.toNat 0 24
               ∧ ∀ o, o ≠ CRD_RNGCTL.off t → u.rd o = s.rd o)
             ∧ Completes i s (fun u => u.flag (CRD_RNGCTL.BUSY t) = true
                 ∧ (bits v.toNat 24 2 = 2 → ∀ e ∈ u.l2, ¬ inRange e.1)
                 ∧ (bits v.toNat 24 2 = 1 → ∀ l, base ≤ l → l < base + bits v.toNat 0 24 → l < 2 ^ 44 →
                     (u.l2At t l).st ≠ .M ∧ (u.l2At t l).st ≠ .O))))
     ∧ ∀ (s : State) (agent line h : Nat),
         let c := s.l2At agent line
         (homeOfLine s line = none ∨ 48 ≤ agent ∨ c.dirty = 0 → Completes (.sharedWriteThrough agent line) s (· = s))
         ∧ (homeOfLine s line = some h → throughShared s h (line * 256 % 2 ^ 48) = false → Completes (.sharedWriteThrough agent line) s (· = s))
         ∧ (agent < 48 → c.dirty ≠ 0 → homeOfLine s line = some h → throughShared s h (line * 256 % 2 ^ 48) = true →
             (undoBlocks s h (line % 2 ^ 40) = true → Completes (.sharedWriteThrough agent line) s (· = s.putFlag SPL_STAT.UNDOWAIT true))
             ∧ (undoBlocks s h (line % 2 ^ 40) = false → Completes (.sharedWriteThrough agent line) s fun t =>
                 t = (sectorsHome s line (agentOwner s agent line) c.copy .none).setL2 agent line { c with dirty := 0 } ∧ (t.l2At agent line).dirty = 0)))

/-- (1) R186: MEM_KEYCMD. While BUSY a command is ignored; LOAD gives the slot the key in MEM_KEYDATA, GENERATE the next generated one, ERASE none; other
slots keep theirs. At its end BUSY clears and MEM_KEYDATA is zeroed. (2) R191, R195: a device mark is a host write of MEM_MARK; a closed entry of the
merge buffer merges its bytes into the sector, which decodes cleanly, and leaves every other byte of memory as it was; a sector without an open entry
closes nothing. (3) R192, R193: FILL_DONE ends the Fill of a controller that still has memory to fill and no marker to wait for; with no SHARED region
every byte of its memory is then zero, unpoisoned and without errors, and memory elsewhere is unchanged. A marker seen is noted; a region waited for
too long is left unfilled, with UC. Outside Fill none of them does anything. -/
def Obligations.KeysMarksMergesAndFill : Prop :=
  ((∀ (s : State) (v : Word) (i : Instr), i ∈ [Instr.keyLoad v, .keyGenerate v, .keyErase v] →
     let slot := bits v.toNat 0 10
     let op := bits v.toNat 10 2
     (s.flag MEM_KEYCMD.BUSY = true → Completes i s (· = s))
     ∧ (s.flag MEM_KEYCMD.BUSY = false → Completes i s fun t =>
         t = { s with regs := t.regs, keys := t.keys, keyNext := t.keyNext }
         ∧ t.get MEM_KEYCMD.SLOT = slot ∧ (t.flag MEM_KEYCMD.BUSY = true ↔ op ≠ 0) ∧ (∀ o, o ≠ MEM_KEYCMD.off → t.rd o = s.rd o)
         ∧ (∀ n, n ≠ slot → mget? t.keys n = mget? s.keys n)
         ∧ (op = 0 → t.keys = s.keys ∧ t.keyNext = s.keyNext)
         ∧ (op = 1 → mget? t.keys slot = some { state := 1, ver := 2 * memKeyData s + 1 } ∧ t.keyNext = s.keyNext)
         ∧ (op = 2 → mget? t.keys slot = some { state := 2, ver := 2 * s.keyNext } ∧ t.keyNext = s.keyNext + 1)
         ∧ (op = 3 → mget? t.keys slot = none ∧ t.keyNext = s.keyNext)))
   ∧ ∀ (s : State),
       (s.flag MEM_KEYCMD.BUSY = false → Completes .memKeycmdDone s (· = s))
       ∧ (s.flag MEM_KEYCMD.BUSY = true → Completes .memKeycmdDone s fun t =>
           t = { s with regs := t.regs } ∧ t.flag MEM_KEYCMD.BUSY = false ∧ memKeyData t = 0
           ∧ t.get MEM_KEYCMD.SLOT = s.get MEM_KEYCMD.SLOT))
  ∧ ((∀ (s : State) (ctl rank : Nat) (v : Word),
       (ctl < 32 → rank < 8 → Completes (.deviceMark ctl rank v) s (· = hostWrite s (MEM_MARK.off ctl rank) v))
       ∧ (32 ≤ ctl ∨ 8 ≤ rank → Completes (.deviceMark ctl rank v) s (· = s)))
     ∧ ∀ (s : State) (h sec : Nat),
         (mergeEntry s h sec = none → Completes (.mergeEntryClose h sec) s (· = s))
         ∧ ∀ e, mergeEntry s h sec = some e → sectorFound s h sec = .clean → s.flag (MEM_FLIPC.ARM h) = false →
             mget s.mem.keyVer sec 0 = keyVersion s h sec →
             Completes (.mergeEntryClose h sec) s fun t =>
               t = { s with mem := t.mem, ctls := t.ctls, loom := { s.loom with acc := t.loom.acc } }
               ∧ t.mem.read (sec * 64) 64 = mergeBytes (s.mem.read (sec * 64) 64) e.bytes.toNat e.mask.toNat 64
               ∧ mget t.mem.poison sec false = e.poison
               ∧ (∀ a, a / 64 ≠ sec → t.mem.byte a = s.mem.byte a)
               ∧ (∀ x ∈ (t.ctl h).merge, x.sector ≠ sec) ∧ (∀ n, n ≠ h → t.ctl n = s.ctl n))
  ∧ ((∀ (s : State) (h r : Nat) (seen : Bool), s.boot.stage ≠ .fill →
       ∀ i ∈ [Instr.fillDone h, .sharedMarkerPoll h r seen, .sharedFillTimeout h r], Completes i s (· = s))
     ∧ (∀ (s : State) (h : Nat),
         (32 ≤ h ∨ s.flag (MEM_FILLSTAT.DONE h) = true ∨ s.flag (MEM_FILLSTAT.UNUSED h) = true ∨ regionsWaiting s h ≠ [] →
           Completes (.fillDone h) s (· = s))
         ∧ (s.boot.stage = .fill → h < 32 → s.flag (MEM_FILLSTAT.DONE h) = false → s.flag (MEM_FILLSTAT.UNUSED h) = false →
             (∀ r, r < 64 → sharedRegion s h r = false) →
             Completes (.fillDone h) s fun t =>
               t = { s with mem := t.mem, regs := t.regs, ctls := t.ctls } ∧ SetsRegs s [(MEM_FILLSTAT.DONE h, 1)] t
               ∧ (∀ n, t.ctl n = s.ctl n)
               ∧ (∀ a, memHome s a = some h → t.mem.byte a = 0) ∧ (∀ a, memHome s a ≠ some h → t.mem.byte a = s.mem.byte a)
               ∧ (∀ sec, memHome s (sec * 64) = some h → mget t.mem.poison sec false = false ∧ mget t.mem.errs sec [] = [])
               ∧ (∀ sec, memHome s (sec * 64) ≠ some h → mget t.mem.poison sec false = mget s.mem.poison sec false
                   ∧ mget t.mem.errs sec [] = mget s.mem.errs sec [])))
     ∧ (∀ (s : State) (h r : Nat),
         (r ∉ regionsWaiting s h → ∀ seen, Completes (.sharedMarkerPoll h r seen) s (· = s) ∧ Completes (.sharedFillTimeout h r) s (· = s))
         ∧ Completes (.sharedMarkerPoll h r false) s (· = s)
         ∧ (s.boot.stage = .fill → r ∈ regionsWaiting s h →
             Completes (.sharedMarkerPoll h r true) s (fun t =>
               t = { s with ctls := t.ctls } ∧ t.ctl h = { s.ctl h with marked := r :: (s.ctl h).marked } ∧ ∀ n, n ≠ h → t.ctl n = s.ctl n)
             ∧ Completes (.sharedFillTimeout h r) s (fun t => ∃ u,
                 t = raise u (src.mem h) .UC ∧ u = { s with ctls := u.ctls, regs := u.regs } ∧ SetsRegs s [(MEM_FILLSTAT.SHWAIT h, 1)] u
                 ∧ u.ctl h = { s.ctl h with unfilled := r :: (s.ctl h).unfilled } ∧ ∀ n, n ≠ h → u.ctl n = s.ctl n))))

/-- R207, R208, R209: a doorbell write into an open page makes an idle slot PENDING, or marks the collision; acceptance answers it: NOT_ACCEPTED with the
reason of the first check that fails, in R208's order, or ACCEPTED with the subchannel's next sequence number and a journal record. On a spliced
module the slot stays PENDING until the record is mirrored. R217: a suspension, a HALT and a retirement of the same fclk act before the acceptance. -/
def Obligations.DoorbellsAcceptOrRefuse : Prop :=
  (∀ (s : State) (vi slot : Nat) (v : Word) (w : Who),
      (64 ≤ slot ∨ pageOpen s vi w = false → Completes (.viDoorbell vi slot v w) s (· = s))
      ∧ (slot < 64 → pageOpen s vi w = true → Completes (.viDoorbell vi slot v w) s fun t =>
          t = { s with regs := t.regs, chs := { s.chs with doorbells := t.chs.doorbells } }
          ∧ (s.get (VI_STAT.STATE vi slot) = 1 → SetsRegs s [(VI_STAT.COLLIDE vi slot, 1)] t ∧ t.chs.doorbells = s.chs.doorbells)
          ∧ (s.get (VI_STAT.STATE vi slot) ≠ 1 → SetsRegs s [(VI_STAT.STATE vi slot, 1), (VI_STAT.SEQ vi slot, 0)] t
              ∧ mget? t.chs.doorbells (vi * 64 + slot) = some v.toNat
              ∧ ∀ k, k ≠ vi * 64 + slot → mget? t.chs.doorbells k = mget? s.chs.doorbells k)))
  ∧ (∀ (s : State) (vi slot a : Nat), mget? s.chs.doorbells (vi * 64 + slot) = some a → s.stopped = false → vi < 4096 → slot < 64 →
      let s0 := setDoor s vi slot none
      let accepts : Instr := .acceptance vi { slot := slot, cfg := none, cmd := none, retire := none }
      let refused (u t : State) (reason : Nat) : Prop :=
        t = { u with regs := t.regs } ∧ t.get (VI_STAT.STATE vi slot) = 3 ∧ t.get (VI_STAT.REASON vi slot) = reason ∧ t.get (VI_STAT.SEQ vi slot) = 0
        ∧ (reason = cst.OVERRUN → t.flag (VI_VSTAT.OVERRUN vi) = true)
      (s.flag (CHS_VI_CFG.SUSPEND vi) = true ∨ s.spl.refusing = true → Completes accepts s (fun t => refused s0 t cst.SUSPENDED))
      ∧ (s.flag (CHS_VI_CFG.SUSPEND vi) = false → s.spl.refusing = false →
        (a % 64 ≠ 0 ∨ 2 ^ 52 ≤ a → Completes accepts s (fun t => refused s0 t cst.BAD_PROGRAM))
        ∧ (a % 64 = 0 → a < 2 ^ 52 → ∀ s1 d, descRead s0 acceptorSrc vi a 64 = (s1, d) → wanting s s1 = false →
          (d = .fault → Completes accepts s (fun t => refused s1 t cst.BAD_PROGRAM))
          ∧ (d = .poison → Completes accepts s (fun t => refused s1 t cst.POISON))
          ∧ ∀ x, d = .ok x →
            let o := orbOf x
            let b := s1.scb o.subch
            (orbReason s1 vi o ≠ 0 → Completes accepts s (fun t => refused s1 t (orbReason s1 vi o)))
            ∧ ∀ cell comp, orbReason s1 vi o = 0 → freeCells (usedCells s1) 0 ((usedCells s1).length + 2) 2 = [cell, comp] →
              Completes accepts s fun t => ∃ j, t.op? cell = some j
                ∧ j.state = .accepted ∧ j.vi = vi ∧ j.orb = a ∧ j.subch = o.subch ∧ j.seq = b.nextSeq ∧ j.prio = o.prio ∧ j.tag = o.tag
                ∧ j.tmo = (if o.tmo = 0 then b.tmo else o.tmo) ∧ j.opened = s1.time.now ∧ j.ccw = o.cpa ∧ j.comp = comp
                ∧ t.scb o.subch = { b with nextSeq := if b.nextSeq = 2 ^ 48 - 1 then 1 else b.nextSeq + 1, opened := b.opened + 1 }
                ∧ (s1.get SPL_STAT.STATE = 1 → j.door = some slot ∧ t.get (VI_STAT.STATE vi slot) = s1.get (VI_STAT.STATE vi slot))
                ∧ (s1.get SPL_STAT.STATE ≠ 1 → j.door = none ∧ t.get (VI_STAT.STATE vi slot) = 2 ∧ t.get (VI_STAT.REASON vi slot) = 0
                    ∧ t.get (VI_STAT.SEQ vi slot) = b.nextSeq % 2 ^ 48)
                ∧ (∀ k, k ≠ cell → t.op? k = s1.op? k) ∧ t.mem = s1.mem ∧ t.cords = s1.cords)))
  ∧ (∀ (s : State) (vi slot : Nat), mget? s.chs.doorbells (vi * 64 + slot) = none →
      Completes (.acceptance vi { slot := slot, cfg := none, cmd := none, retire := none }) s (· = s))
  ∧ (∀ (s : State) (vi slot cell : Nat) (w : Word),
      EndsOrWaits (.acceptance vi { slot := slot, cfg := some w, cmd := none, retire := none }) s (doAcceptance vi slot (viCfgWrite vi w s))
      ∧ EndsOrWaits (.acceptance vi { slot := slot, cfg := none, cmd := some w, retire := none }) s (doAcceptance vi slot (scWrite s w 4 scHaltGo))
      ∧ EndsOrWaits (.acceptance vi { slot := slot, cfg := none, cmd := none, retire := some cell }) s (doAcceptance vi slot (doOperationRetire cell s)))
  ∧ (∀ (s : State) (v : Nat) (o : Orb),
      let b := s.scb o.subch
      let wrong : Prop := o.rz = true ∨ b.state = 0 ∨ b.vi ≠ v ∨ s.cordCount ≤ o.ncord ∨ o.xform ≠ (o.xjob != 0)
      let full : Prop := s.get (CHS_VI_CFG.QUOTA v) ≤ s.get (CHS_VI_CFG.QUEUED v)
      (wrong → orbReason s v o = 0x0C)
      ∧ (¬ wrong → (b.state = 2 → orbReason s v o = 0x09) ∧ (b.state = 3 → orbReason s v o = 0x0A)
          ∧ (b.state ≠ 2 → b.state ≠ 3 → (full → orbReason s v o = 0x02) ∧ (¬ full → b.opMax ≤ b.opened → orbReason s v o = 0x0F)
              ∧ (¬ full → b.opened < b.opMax → orbReason s v o = 0))))
  ∧ ∀ (s : State) (vi slot : Nat),
      let mine (e : Nat × JRec) : Bool := e.2.vi == vi && e.2.door == some slot && e.2.mirrored
      (s.chs.cells.find? mine = none → Completes (.acceptanceMirrored vi slot) s (· = s))
      ∧ ∀ cell j, s.chs.cells.find? mine = some (cell, j) → Completes (.acceptanceMirrored vi slot) s fun t =>
          t = { s with regs := t.regs, chs := { s.chs with cells := t.chs.cells } } ∧ t.op? cell = some { j with door := none }
          ∧ (∀ k, k ≠ cell → t.op? k = s.op? k)
          ∧ SetsRegs s [(VI_STAT.STATE vi slot, 2), (VI_STAT.REASON vi slot, 0), (VI_STAT.SEQ vi slot, j.seq)] t

/-- (1) R219, R420: the subchannel commands. Each acts on a subchannel in the state that it needs and answers RESULT 0; in another it changes nothing but
CHS_SCCMD. A write whose OP is another row's, or while BUSY, is not this row's. (2) R225, R235 to R237, R421, R164: setting up VIs, event queues and
the descriptor cache. Enabling a VI starts its ring; a write that clears EN while operations are queued is ignored; SUSPEND alone changes a bit, with
CANCEL the VI's ACCEPTED operations end; a quota that the pool cannot hold is kept as it was, with QREFUSE; the descriptor cache is emptied once its
invalidation is done; once it is disabled no home counts it among a line's holders. -/
def Obligations.SubchannelsAndImagesSetUp : Prop :=
  (∀ (s : State) (v : Word) (probe : BindProbe),
     let x := bits v.toNat 0 16
     let b := s.scb x
     let rows : List (Instr × Nat) := [(.scRead v, 1), (.scBind v probe, 2), (.scUnbind v, 3), (.scHalt v, 4), (.scClearhalt v, 5)]
     (∀ r ∈ rows, s.flag CHS_SCCMD.BUSY = true ∨ bits v.toNat 16 3 ≠ r.2 → Completes r.1 s (· = s))
     ∧ (s.flag CHS_SCCMD.BUSY = false →
       let op (n : Nat) (i : Instr) (p : State → Prop) : Prop := bits v.toNat 16 3 = n → Completes i s p
       let answers (n : Nat) (c : Chs) (t : State) : Prop :=
         t = { s with regs := t.regs, chs := c } ∧ t.get CHS_SCCMD.RESULT = n ∧ t.get CHS_SCCMD.SUBCH = x
         ∧ ∀ off, off ≠ CHS_SCCMD.off → t.rd off = s.rd off
       let with' (y : Scb) : Chs := (s.setScb x y).chs
       op 1 (.scRead v) (fun t => t = { s with regs := t.regs } ∧ t.get CHS_SCCMD.RESULT = 0
         ∧ ∀ i, i < 16 → t.rd (CHS_SCDATA0.off + 8 * i) = ((scbWords s b ++ List.replicate 16 0).getD i 0).toNat)
       ∧ op 3 (.scUnbind v) (fun t =>
           (b.state = 0 → answers 1 s.chs t) ∧ (b.state ≠ 0 → b.opened ≠ 0 → answers 2 s.chs t)
           ∧ (b.state ≠ 0 → b.opened = 0 →
               answers 0 (with' { b with state := 0, kind := 0, vi := 0, port := 0, target := 0, blk := 0, mdts := 0, sense := [] }) t))
       ∧ op 5 (.scClearhalt v) (fun t =>
           (b.state ≠ 2 → answers 1 s.chs t) ∧ (b.state = 2 → answers 0 (with' { b with state := 1 }) t))
       ∧ op 4 (.scHalt v) (fun t =>
           (b.state ≠ 1 → answers 1 s.chs t)
           ∧ (b.state = 1 → (s.chs.cells.map Prod.fst).Nodup → t.get CHS_SCCMD.RESULT = 0 ∧ (t.scb x).state = 2
               ∧ (∀ cell j, t.op? cell = some j → j.subch = x → j.state ≠ .accepted)
               ∧ ∀ cell j, s.op? cell = some j → j.subch ≠ x ∨ j.state ≠ .accepted → t.op? cell = some j))
       ∧ op 2 (.scBind v probe) (fun t =>
           let kind := s.get CHS_SCDATA0.KIND
           let p := s.get CHS_SCDATA0.PORT
           let weft := s.flag (CHP_CFG.MODE p)
           let bound (st blk : Nat) : Scb := { b with
             state := st, kind := kind, vi := s.get CHS_SCDATA0.VI, port := p, target := s.get CHS_SCDATA1.TARGET, blk := blk
             opMax := s.get CHS_SCDATA3.OPMAX, tmo := s.get CHS_SCDATA3.TMO, mdts := if kind = 2 then 0 else probe.mdts, sense := [] }
           (b.state ≠ 0 → answers 1 s.chs t)
           ∧ (b.state = 0 → ¬ (kind = 2 ↔ weft = true) → answers 3 s.chs t)
           ∧ (b.state = 0 → kind = 0 → weft = false → linkUp s p = true → probe.answers = true → probe.active = true → probe.formatOk = true →
               9 ≤ probe.blkLog2 → probe.blkLog2 ≤ 12 → answers 0 (with' (bound 1 probe.blkLog2)) t)
           ∧ (b.state = 0 → kind = 1 → weft = false → linkUp s p = true → probe.answers = true → answers 0 (with' (bound 1 0)) t)
           ∧ (b.state = 0 → kind = 1 → weft = false → linkUp s p = false ∨ probe.answers = false → answers 0 (with' (bound 3 0)) t)
           ∧ (b.state = 0 → kind = 2 → weft = true → mget (s.port p).sessions (s.get CHS_SCDATA1.TARGET % 2 ^ 16) 0 = 2 →
               answers 0 (with' (bound 1 0)) t))))
  ∧ ((∀ (s : State) (vi : Nat) (v : Word), ∀ i ∈ [Instr.ringfaultClear vi v, .viEnable vi v, .viSuspend vi v, .viCancel vi v, .viQuotaWrite vi v],
         let en := s.flag (CHS_VI_CFG.EN vi)
         (4096 ≤ vi ∨ (en = true ∧ v.getLsbD 0 = false ∧ s.get (CHS_VI_CFG.QUEUED vi) ≠ 0) → Completes i s (· = s))
         ∧ (vi < 4096 → en = false → v.getLsbD 0 = true → v.getLsbD 2 = false → s.flag (CHS_VI_CFG.RINGFAULT vi) = false → Completes i s fun t =>
             t.flag (CHS_VI_CFG.EN vi) = true ∧ t.get (CHS_VI_CFG.TENANT vi) = bits v.toNat 4 10 ∧ t.get (VI_CQHEAD.HEAD vi) = 0
             ∧ t.flag (VI_CQHEAD.PHASE vi) = true ∧ t.get (VI_CQTAIL.TAIL vi) = 0 ∧ mget t.chs.laps vi 1 = 1
             ∧ t = { s with regs := t.regs, chs := { s.chs with laps := t.chs.laps } })
         ∧ (vi < 4096 → en = true → v.getLsbD 0 = true ∨ s.get (CHS_VI_CFG.QUEUED vi) = 0 → v.getLsbD 2 = false →
             s.flag (CHS_VI_CFG.RINGFAULT vi) = false → Completes i s fun t =>
             t = { s with regs := t.regs } ∧ (t.flag (CHS_VI_CFG.EN vi) = true ↔ v.getLsbD 0 = true) ∧ (t.flag (CHS_VI_CFG.SUSPEND vi) = true ↔ v.getLsbD 1 = true)
             ∧ t.get (CHS_VI_CFG.TENANT vi) = s.get (CHS_VI_CFG.TENANT vi)
             ∧ (t.get (CHS_VI_CFG.QUOTA vi) = bits v.toNat 16 16
                 ∨ t.get (CHS_VI_CFG.QUOTA vi) = s.get (CHS_VI_CFG.QUOTA vi) ∧ t.flag CHS_POOL.QREFUSE = true))
         ∧ (vi < 4096 → en = true → v.getLsbD 0 = true → v.getLsbD 1 = true → v.getLsbD 2 = true → s.flag (CHS_VI_CFG.RINGFAULT vi) = false →
             (s.chs.cells.map Prod.fst).Nodup → Completes i s fun t => (∀ cell j, t.op? cell = some j → j.vi = vi → j.state ≠ .accepted)
               ∧ (∀ cell j, s.op? cell = some j → j.vi ≠ vi ∨ j.state ≠ .accepted → t.op? cell = some j)
               ∧ t.flag (CHS_VI_CFG.SUSPEND vi) = true)
         ∧ (vi < 4096 → en = true → v.getLsbD 0 = true → v.getLsbD 2 = false → s.flag (CHS_VI_CFG.RINGFAULT vi) = true → v.getLsbD 14 = true →
             Completes i s fun t => ∃ u, t = orWait (fun s => ringWrite s vi) u ∧ u = { s with regs := u.regs } ∧ u.flag (CHS_VI_CFG.RINGFAULT vi) = false))
     ∧ (∀ (s : State) (c : Nat) (v : Word),
         (96 ≤ c → Completes (.evqQuotaWrite c v) s (· = s))
         ∧ (c < 96 → Completes (.evqQuotaWrite c v) s fun t =>
             t = { s with regs := t.regs }
             ∧ (t.get (CHS_EVQ.QUOTA c) = bits v.toNat 0 12
                 ∨ t.get (CHS_EVQ.QUOTA c) = s.get (CHS_EVQ.QUOTA c) ∧ s.get (CHS_EVQ.QUOTA c) < bits v.toNat 0 12 ∧ t.flag CHS_POOL.QREFUSE = true)))
     ∧ ∀ (s : State) (v : Word),
         let u := hostWrite s CHS_CFG.off v
         (s.flag CHS_CFG.DCEN = false ∨ u.flag CHS_CFG.DCEN = true → Completes (.descriptorCacheEnable v) s (· = u))
         ∧ (s.flag CHS_CFG.DCEN = true → u.flag CHS_CFG.DCEN = false → (∀ e ∈ s.dir, e.2.st = .O → e.2.owner = 48 → 48 ∉ e.2.sharers) →
             Completes (.descriptorCacheEnable v) s fun t => t = { u with dir := t.dir, seq := t.seq }
               ∧ ∀ line, 48 ∉ (t.dirAt line).holders ∧ ∀ n, n ≠ 48 → (n ∈ (t.dirAt line).holders ↔ n ∈ (s.dirAt line).holders))
         ∧ (s.flag CHS_DCINV.BUSY = true ∨ v.getLsbD 0 = false → Completes (.dcInvalidate v) s fun t =>
             t = { s with regs := t.regs } ∧ ∀ off, t.rd off = s.rd off)
         ∧ (s.flag CHS_DCINV.BUSY = false → v.getLsbD 0 = true → Completes (.dcInvalidate v) s fun t =>
             t = { s with regs := t.regs } ∧ t.flag CHS_DCINV.BUSY = true ∧ ∀ off, off ≠ CHS_DCINV.off → t.rd off = s.rd off)
         ∧ (s.flag CHS_DCINV.BUSY = false → Completes .dcInvalidateDone s (· = s))
         ∧ (s.flag CHS_DCINV.BUSY = true → Completes .dcInvalidateDone s
             (· = { s.putFlag CHS_DCINV.BUSY false with chs := { s.chs with dc := [], grants := [] } })))

/-- (1) R206, R224, R230, R231, R241, R345: a Shuttle takes an operation of the highest priority among those it may work for; on a port that is disabled
or dark, or with no Shuttle left to serve it, the operation ends instead. R217, R264: a disable of the same fclk acts before the dispatch, a CANCEL after
it. In the last rclk of a run of beats a Shuttle saves its context in its data memory. (2) R233: a Shuttle that has halted, or is held in block reset,
restarts, at most three times in 60 s; then it is FAILED and its domain off, and what it held goes to another. Once restarted it runs from the start of
its firmware. -/
def Obligations.ShuttlesTakeWorkAndRestart : Prop :=
  ((∀ (s : State) (n : Nat), 32 ≤ n ∨ (s.shut n).saved = true ∨ nextOp (s.shut n).lastVi (dispatchable s n) = none →
     Completes (.shuttleDispatch { shuttle := n, port := none, cfg := none }) s (· = s))
   ∧ (∀ (s : State) (n cell : Nat) (j : JRec), n < 32 → (s.shut n).saved = false → nextOp (s.shut n).lastVi (dispatchable s n) = some cell →
       s.op? cell = some j →
       let p := opPort s j
       let d : JRec := { j with state := if j.state = .active then .active else .dispatched, shut := none }
       let takes : Instr := .shuttleDispatch { shuttle := n, port := none, cfg := none }
       (serverOf s (p / 4) j.subch = none → Completes takes s (· = endOp s cell d cst.PATH_LOST 0 false))
       ∧ (serverOf s (p / 4) j.subch ≠ none →
         (s.flag (CHP_CTL.DISABLE p) = true → Completes takes s (· = endOp s cell d cst.SUSPENDED 0 false))
         ∧ (s.flag (CHP_CTL.DISABLE p) = false → s.domOn (dom.quad (p / 4)) = false →
             Completes takes s (· = endOp s cell d cst.DARK 0 false))
         ∧ (s.flag (CHP_CTL.DISABLE p) = false → s.domOn (dom.quad (p / 4)) = true → s.domOn (dom.cluster n) = false →
             Completes takes s (· = doorbell s (dom.cluster n)))
         ∧ (s.flag (CHP_CTL.DISABLE p) = false → s.domOn (dom.quad (p / 4)) = true → s.domOn (dom.cluster n) = true →
             cell ∉ s.chs.poisonCells → j.comp ∉ s.chs.poisonCells →
             EndsOrWaits takes s (takeOp s n cell j)
             ∧ (j.xform = false ∨ j.xdone = true → j.dev ≠ .reading → Completes takes s fun t =>
                 t = { s with free := if j.state = .accepted then s.free + 1 else s.free, chs := t.chs }
                 ∧ t.chs = { s.chs with cells := t.chs.cells, shuts := t.chs.shuts }
                 ∧ t.op? cell = some { d with shut := some n, lba := if j.state = .accepted then (Config.freeWord s.free).toNat else j.lba }
                 ∧ (∀ k, k ≠ cell → t.op? k = s.op? k) ∧ t.shut n = { s.shut n with cell := some cell, lastVi := j.vi }))))
   ∧ (∀ (s : State) (n p vi : Nat) (w : Word),
       EndsOrWaits (.shuttleDispatch { shuttle := n, port := some (p, w), cfg := none }) s (doShuttleDispatch n (portCtl p w s))
       ∧ EndsOrWaits (.shuttleDispatch { shuttle := n, port := none, cfg := some (vi, w) }) s (viCfgWrite vi w (doShuttleDispatch n s)))
   ∧ (∀ (last cell : Nat) (xs : List (Nat × JRec)), nextOp last xs = some cell → ∃ j, (cell, j) ∈ xs ∧ ∀ x ∈ xs, j.prio ≤ x.2.prio)
   ∧ ∀ (s : State) (n : Nat),
       let ends : Prop := n < 32 ∧ s.get (CHS_SHUT.STATE n) = shutst.RUNNING ∧ s.closedWeave = true ∧ 190 ≤ s.since % 200
         ∧ lastOfRun s (32 + s.get (CHS_SHUT.QUAD n)) = true
       (¬ ends → Completes (.shuttleBeatStop n) s (· = s))
       ∧ (ends → Completes (.shuttleBeatStop n) s fun t =>
           t = { s with chs := { s.chs with shuts := t.chs.shuts } } ∧ (∀ k, k ≠ n → t.shut k = s.shut k)
           ∧ t.shut n = { s.shut n with saved := true, dmem := (t.shut n).dmem }
           ∧ ∃ base, base + 8 * 511 ≤ 0x20000
             ∧ (∀ i v j, (ctxBody (s.shut n).core)[i]? = some v → j < 8 →
                 mget (t.shut n).dmem (base + 8 * i + j) 0 = BitVec.ofNat 8 (v.toNat / 256 ^ j))
             ∧ ∀ k, k < base ∨ base + 8 * 511 ≤ k → mget (t.shut n).dmem k 0 = mget (s.shut n).dmem k 0))
  ∧ ((∀ (s : State) (n : Nat),
         let gone : Prop := (s.shut n).core.run = .halted ∨ dom.cluster n ∈ s.fcu.held
         let recent := (s.shut n).restarts.filter (fun t => s.time.now < t + 6000000000)
         let st := s.get (CHS_SHUT.STATE n)
         (32 ≤ n ∨ st = shutst.LOADING ∨ st = shutst.RESTARTING ∨ (st = shutst.RUNNING ∧ ¬ gone) → Completes (.shuttleRestart n) s (· = s))
         ∧ (n < 32 → st = shutst.OFF ∨ st = shutst.FAILED →
             EndsOrWaits (.shuttleRestart n) s ((heldBy s n).foldl (fun s c => resend (orphan s c) c) s))
         ∧ (n < 32 → s.get (CHS_SHUT.STATE n) = shutst.RUNNING → gone → recent.length < 3 → Completes (.shuttleRestart n) s fun t =>
             t = { s with regs := t.regs, chs := { s.chs with shuts := t.chs.shuts } }
             ∧ t.shut n = { s.shut n with restarts := s.time.now :: recent, core := Core.zero, saved := false, cell := none }
             ∧ (∀ k, k ≠ n → t.shut k = s.shut k) ∧ t.get (CHS_SHUT.STATE n) = shutst.RESTARTING
             ∧ t.get (CHS_SHUT.RESTARTS n) = min (s.get (CHS_SHUT.RESTARTS n) + 1) 255)
         ∧ (n < 32 → s.get (CHS_SHUT.STATE n) = shutst.RUNNING → gone → 3 ≤ recent.length →
             (∀ i, i < 4 → heldBy s (4 * (n / 4) + i) = []) → Completes (.shuttleRestart n) s fun t =>
             t = { s with regs := t.regs } ∧ t.get (CHS_SHUT.STATE n) = shutst.FAILED ∧ t.get (PWR_DOM.CUR (dom.cluster n)) = pst.OFF
             ∧ t.flag (FCU_SRC.FAILED (dom.cluster n)) = true
             ∧ ∀ m, m / 4 = n / 4 → m ≠ n → s.get (CHS_SHUT.STATE m) ≠ shutst.FAILED → t.get (CHS_SHUT.STATE m) = shutst.OFF))
     ∧ ∀ (s : State) (n : Nat),
         (32 ≤ n ∨ s.get (CHS_SHUT.STATE n) ≠ shutst.RESTARTING ∨ dom.cluster n ∈ s.fcu.held → Completes (.shuttleRestartDone n) s (· = s))
         ∧ (n < 32 → s.get (CHS_SHUT.STATE n) = shutst.RESTARTING → dom.cluster n ∉ s.fcu.held → heldBy s n = [] →
             Completes (.shuttleRestartDone n) s fun t =>
               t = { s with regs := t.regs, chs := { s.chs with shuts := t.chs.shuts } }
               ∧ (t.shut n).core = { Core.zero with lvl := .H, run := .running } ∧ (t.shut n).saved = false ∧ (t.shut n).cell = none
               ∧ (∀ k, k ≠ n → t.shut k = s.shut k) ∧ t.get (CHS_SHUT.STATE n) = shutst.RUNNING))

/-- (1) R211, R212, R214: one CCW of a program. A CCW of another code, or an operation that cannot run now, leaves all as it is; one that cannot be read,
or that a rule refuses, ends the program with its address; NOP goes on to the next CCW under CHC and ends the program without; JUMP goes to its
address, once; the others run the command that R212, R234 and R258 give. (2) R212, R234: a command of an NVMe port whose data have been laid out. With
the link UP, READ and WRITE of a namespace move whole blocks from the operation's block address on, one longer than the controller takes being cut into
several, and FLUSH goes to the device; LOCATE sets that address; a READ or WRITE of a part of a block, of no data or of another kind of subchannel, and
a CONTROL of an undefined MOD, end the program. -/
def Obligations.ChannelProgramsRunCcws : Prop :=
  (∀ (s : State) (cell : Nat) (j : JRec),
     let rows : List (Instr × Nat) := [(.ccwRead cell, 0x10), (.ccwWrite cell, 0x11), (.ccwControl cell, 0x12), (.ccwSense cell, 0x13)
       , (.ccwNop cell, 0x1E), (.ccwJump cell, 0x1F)]
     let src := 57 + opPort s j / 4 / 3
     (s.op? cell = none → ∀ r ∈ rows, Completes r.1 s (· = s))
     ∧ (s.op? cell = some j → opCanRun s cell j = false → ∀ r ∈ rows, Completes r.1 s (· = s))
     ∧ (s.op? cell = some j → opCanRun s cell j = true →
       (∀ s1 f x, ccwAt s src j.vi j.ccw j.ccwCount = (s1, .bad f x) → ∀ r ∈ rows,
         EndsOrWaits r.1 s (endOp s1 cell { j with run := x.toList, got := 0 } cst.BAD_PROGRAM f false))
       ∧ (∀ s1 f x, ccwAt s src j.vi j.ccw j.ccwCount = (s1, .poison f x) → ∀ r ∈ rows,
         EndsOrWaits r.1 s (poisonOp s1 cell { j with run := x.toList, got := 0 } f))
       ∧ ∀ s1 c n, ccwAt s src j.vi j.ccw j.ccwCount = (s1, .ok c) → j.shut = some n →
         let s2 := s1.modShut n (fun x => { x with cell := some cell })
         (∀ r ∈ rows, c.cmd ≠ r.2 → Completes r.1 s (· = s))
         ∧ (c.cmd = 0x1F → j.afterJump = false →
             EndsOrWaits (.ccwJump cell) s (s2.setOp cell { j with ccw := c.addr, afterJump := true, ccwCount := j.ccwCount + 1 }))
         ∧ (c.cmd = 0x1F → j.afterJump = true →
             EndsOrWaits (.ccwJump cell) s (endOp s2 cell { j with run := [c.ran], got := 0 } cst.BAD_PROGRAM c.at_ false))
         ∧ (∀ r ∈ rows, c.cmd = r.2 → c.cmd ≠ 0x1F → EndsOrWaits r.1 s (runCmd s s2 cell src j c))
         ∧ (wanting s s1 = false → c.cmd = 0x1E → c.chd = false → j.status = 0 → (c.chc = true ∨ j.xform = false ∨ j.xdone = true) →
             Completes (.ccwNop cell) s fun t => ∃ k, t.op? cell = some k ∧ k.ccwCount = j.ccwCount + 1 ∧ k.endCcw = c.at_ ∧ k.moved = j.moved
               ∧ (c.chc = true → k.state = j.state ∧ k.ccw = c.at_ + 16 ∧ k.run = [])
               ∧ (c.chc = false → k.state = .ending ∧ k.status = 0))))
  ∧ (∀ (old s : State) (cell src : Nat) (j : JRec) (c : Ccw) (total : Nat),
       let b := s.scb j.subch
       let p := opPort s j
       let bad : State := endOp s cell j cst.BAD_PROGRAM c.at_ false
       let sent (op : Nat) (xs : List (Nat × Nat)) (k : JRec) (t : State) : Prop :=
         t = { s.setOp cell { k with state := .active, dev := .sent, cmds := xs.length } with
           net := s.net ++ xs.map (fun x => .nvme p cell op x.1 x.2) }
       (∀ cmd op, (cmd, op) ∈ [(0x10, 2), (0x11, 1)] → j.cmd = cmd →
         (b.kind = 0 → total ≠ 0 → total % 2 ^ b.blk = 0 → linkUp s p = true →
           sent op (nvmeParts j.lba (total / 2 ^ b.blk) b.mdts) { j with lba := j.lba + total / 2 ^ b.blk } (runNvme old s cell src j c total))
         ∧ (b.kind = 0 → total ≠ 0 → total % 2 ^ b.blk = 0 → linkUp s p = false → runNvme old s cell src j c total = old)
         ∧ (b.kind ≠ 0 ∨ total = 0 ∨ total % 2 ^ b.blk ≠ 0 → runNvme old s cell src j c total = bad))
       ∧ (j.cmd = 0x12 →
         (j.md = 2 → total = 0 → linkUp s p = true → sent 0 [(0, 0)] j (runNvme old s cell src j c total))
         ∧ (j.md = 1 → total = 8 → ∀ s1 v, ctlData s src j 8 = (s1, .ok v) →
             runNvme old s cell src j c total = cmdDone s1 cell { j with lba := v, got := 8, skip := 8 } [])
         ∧ (j.md ∉ [1, 2, 3, 0xFF] → runNvme old s cell src j c total = bad)))
  ∧ ∀ lba n most, 0 < n →
      let xs := nvmeParts lba n most
      (xs.map Prod.snd).sum = n ∧ (most = 0 → xs = [(lba, n)])
      ∧ ∀ i x, xs[i]? = some x → x.1 = lba + i * most ∧ 0 < x.2 ∧ (most ≠ 0 → x.2 ≤ most)

/-- (1) R234, R216 to R218, R222: what a device answers. A command that succeeds ends as its program goes on; one that fails gives the operation a failing
status, with the device's status and the sense; an abort confirmed gives the status the abort was for. A timeout ends an operation that is not at its
device and aborts one that is; a final status of the same fclk stands (R217); a device silent for 100 ms after it loses the subchannel. (2) R216, R220, R221, R421: completion. A record whose status
is final becomes POSTED, is written into the VI's ring at HEAD in the order of posting while the ring has room, and retires once it is there, freeing
its cells and notifying the cord that its ORB names. A full ring or RINGFAULT holds it; software frees a slot by moving TAIL. -/
def Obligations.AnswersLeadToCompletions : Prop :=
  ((∀ (s : State) (cell : Nat) (c : NvmeEnd) (j : JRec),
       let at_ : Prop := j.state = .active ∧ (j.dev = .sent ∨ j.dev = .aborting) ∧ weftMode s (opPort s j) = false
       let ends (p : State → Prop) : Prop := Completes (.nvmeCompletion cell c) s p
       (s.op? cell = none → ends (· = s))
       ∧ (s.op? cell = some j → ¬ at_ → ends (· = s))
       ∧ (s.op? cell = some j → at_ → c.abort = true →
           (j.goal = none → ends (· = s))
           ∧ ∀ code, j.goal = some code → ends (· = endOp s cell { j with got := nvmeGot j c } code j.faddr false))
       ∧ (s.op? cell = some j → at_ → c.abort = false → j.sense = [] →
           (c.status = 0 → j.cmd ≠ 0x12 →
             (1 < j.cmds → ends (· = s.setOp cell { j with got := j.got + c.bytes, cmds := j.cmds - 1 }))
             ∧ (j.cmds ≤ 1 → EndsOrWaits (.nvmeCompletion cell c) s (cmdDone s cell { j with got := j.got + c.bytes } [c.cqe0, c.cqe1])))
           ∧ (c.status ≠ 0 → ends fun t => ∃ code k,
               (j.status ≠ 0 → code = j.status) ∧ (j.status = 0 → code ∈ [cst.BAD_PROGRAM, cst.DEVICE_LOST, cst.DATA_CHECK, cst.PATH_LOST])
               ∧ t.op? cell = some k ∧ k.status = code ∧ k.dstat = c.status ∧ k.faddr = j.faddr
               ∧ (1 < j.cmds → k.state = .active ∧ k.cmds = j.cmds - 1 ∧ k.sense = [c.cqe0, c.cqe1])
               ∧ (j.cmds ≤ 1 → k.state = .ending ∧ ((t.scb j.subch).sense.drop 1).take 2 = [c.cqe0, c.cqe1]))))
   ∧ (∀ (s : State) (cell : Nat) (j : JRec), s.op? cell = some j →
       let due : Prop := s.stopped = false ∧ (j.state = .accepted ∨ j.state = .dispatched ∨ j.state = .active) ∧ j.opened + j.tmo * 100000 ≤ s.time.now
       let times (p : State → Prop) : Prop := Completes (.operationTimeout ⟨cell, none⟩) s p
       let aborts : State := s.setOp cell { j with dev := .aborting, goal := some cst.TIMEOUT, faddr := 0, mark := s.time.now }
       (¬ due → times (· = s))
       ∧ (due → j.dev ≠ .sent → j.dev ≠ .aborting → times (· = endOp s cell j cst.TIMEOUT 0 false))
       ∧ (due → j.dev = .aborting → times (· = s))
       ∧ (due → j.dev = .sent →
           (weftMode s (opPort s j) = false → times (· = aborts.send (.nvmeAbort (opPort s j) cell)))
           ∧ (weftMode s (opPort s j) = true → times (· = abortOp s cell j cst.TIMEOUT 0))))
   ∧ (∀ (s : State) (cell : Nat) (x : FinalStatus),
       EndsOrWaits (.operationTimeout ⟨cell, some x⟩) s (doOperationTimeout cell (finalTake cell x s)))
   ∧ ∀ (s : State) (cell : Nat) (j : JRec), s.op? cell = some j →
       let due : Prop := s.stopped = false ∧ j.dev = .aborting ∧ j.mark + 10000000 ≤ s.time.now
       (¬ due → Completes (.abortConfirmTimeout cell) s (· = s))
       ∧ (due → Completes (.abortConfirmTimeout cell) s (· = loseSub
           (endOp s cell j (if j.goal = some cst.DATA_CHECK then cst.DATA_CHECK else cst.TIMEOUT) j.faddr false) j.subch cst.DEVICE_LOST)))
  ∧ ((∀ (s : State) (cell : Nat) (j : JRec), s.op? cell = some j →
         let may : Prop := s.stopped = false ∧ j.state = .ending ∧ xformBusy s cell = false ∧ s.replays (s.viTenant j.vi) = false
           ∧ awaited s (opWho cell) = false
         (¬ may → Completes (.operationPosted cell) s (· = s))
         ∧ (∀ o e, may → s.owed = [o] → o.who = opWho cell → o.cmp = some e → e ≠ .good → j.status = 0 → cell ∉ s.chs.poisonCells →
             j.comp ∉ s.chs.poisonCells → Completes (.operationPosted cell) s fun t =>
               t.owed = [] ∧ ∃ k, t.op? cell = some k ∧ k.state = .posted
                 ∧ k.status = if e = .failed then cst.DATA_CHECK else cst.BAD_PROGRAM)
         ∧ (may → (∀ o ∈ s.owed, o.who ≠ opWho cell) → cell ∉ s.chs.poisonCells → j.comp ∉ s.chs.poisonCells → s.recording = false → Completes (.operationPosted cell) s fun t =>
             t = { s with chs := t.chs, loom := { s.loom with acc := t.loom.acc } }
             ∧ t.chs = { s.chs with cells := t.chs.cells, posted := t.chs.posted }
             ∧ t.op? cell = some { j with state := .posted, dev := .none, shut := none, half := false, wrote := false }
             ∧ (∀ k, k ≠ cell → t.op? k = s.op? k) ∧ t.postedOf j.vi = s.postedOf j.vi ++ [cell]))
     ∧ (∀ (s : State) (vi : Nat), s.stopped = true ∨ s.flag (CHS_VI_CFG.RINGFAULT vi) = true → Completes (.completionRingWrite vi) s (· = s))
     ∧ (∀ (s : State) (vi cell : Nat) (rest : List Nat) (j : JRec), s.stopped = false → s.flag (CHS_VI_CFG.RINGFAULT vi) = false →
         s.postedOf vi = cell :: rest → s.op? cell = some j → j.wrote = false → j.vi = vi → j.slot = none → s.get (CHS_VI_RING.SIZE vi) ≤ 10 →
         let h := s.get (VI_CQHEAD.HEAD vi)
         let n := 2 ^ (s.get (CHS_VI_RING.SIZE vi) + 6)
         let lap := mget s.chs.laps vi 1
         ((h + 1) % n = s.get (VI_CQTAIL.TAIL vi) → Completes (.completionRingWrite vi) s (· = s))
         ∧ ((h + 1) % n ≠ s.get (VI_CQTAIL.TAIL vi) → ∃ s1 k,
             k = { j with slot := some h, phase := lap % 2 == 1 } ∧ s1.op? cell = some k
             ∧ s1.get (VI_CQHEAD.HEAD vi) = (h + 1) % n ∧ mget s1.chs.laps vi 1 = (if h + 1 = n then lap + 1 else lap)
             ∧ (s1.flag (VI_CQHEAD.PHASE vi) = true ↔ (if h + 1 = n then lap + 1 else lap) % 2 = 1)
             ∧ s1.mem = s.mem ∧ s1.cords = s.cords ∧ EndsOrWaits (.completionRingWrite vi) s (ringEntry s1 cell k h)))
     ∧ (∀ (s : State) (cell : Nat) (j : JRec), s.op? cell = some j →
         let may : Prop := s.stopped = false ∧ j.state = .posted ∧ j.wrote = true ∧ j.door = none ∧ awaited s (ringWho cell) = false
         let calm : Prop := ∀ o ∈ s.owed, o.who ≠ ringWho cell
         (¬ may → Completes (.operationRetire cell) s (· = s))
         ∧ (may → calm → s.get SPL_STAT.STATE ≠ 1 → j.notify = false → s.flag (CHP_CTL.DISABLE (s.scb j.subch).port) = false →
             Completes (.operationRetire cell) s fun t =>
               t = { s with regs := t.regs, chs := t.chs } ∧ t.op? cell = none ∧ (∀ k, k ≠ cell → t.op? k = s.op? k)
               ∧ t.postedOf j.vi = (s.postedOf j.vi).erase cell
               ∧ t.scb j.subch = { s.scb j.subch with opened := (s.scb j.subch).opened - 1 }
               ∧ t.get (CHS_VI_CFG.QUEUED j.vi) = s.get (CHS_VI_CFG.QUEUED j.vi) - 1)
         ∧ (may → calm → s.get SPL_STAT.STATE ≠ 1 → j.notify = true → Completes (.operationRetire cell) s
             (· = let u := freeOp s cell j
               evqNotice u (u.viTenant j.vi) j.ncord (BitVec.ofNat 64 (ringAddr u j.vi (j.slot.getD 0))) (evDesc ev.CHANNEL j.vi j.status))))
     ∧ ∀ (s : State) (vi : Nat) (v : Word) (w : Who),
         (pageOpen s vi w = true → Completes (.cqTailWrite vi v w) s (· = hostWrite s (VI_CQTAIL.off vi) v))
         ∧ (pageOpen s vi w = false → Completes (.cqTailWrite vi v w) s (· = s)))

/-- (1) R241: service of a port. A DISABLE while subchannels of the port have open operations is refused unless FORCE comes with it; with FORCE the port's
ACCEPTED operations end at once and those at a device are aborted; with none open the link is released and DOWN. A write of DISABLE 0 retrains the
link of a port that was disabled, and RETRAIN that of any; a quad that is off leaves the link DOWN. (2) R265, R267: PCIe. When DPC contains a channel
port or its device leaves, the link is DOWN, its subchannels are LOST with DEVICE_LOST and the quad reports UC; a ×8 port reports for its I/O domain
alone. Slot events are recorded. A device reads and writes only the data of its own operations, and behind a ×8 port memory as tenant 0. -/
def Obligations.PortsServeAndContain : Prop :=
  (∀ (s : State) (p : Nat) (v : Word), ∀ i ∈ [Instr.portDisable p v, .portDisableForce p v, .portEnable p v, .portRetrain p v],
     let w := taken s (CHP_CTL.off p) v
     let disable : Prop := w % 2 = 1
     let force : Prop := w / 2 % 2 = 1
     let opened : Prop := ∃ x ∈ subsOf s p, (s.scb x).opened ≠ 0
     let u := hostWrite s (CHP_CTL.off p) v
     let off : Prop := u.flag (PWR_DOM.PADLATCH (dom.quad (p / 4))) = true ∨ u.domOn (dom.quad (p / 4)) = false
     (48 ≤ p → Completes i s (· = s))
     ∧ (p < 48 → disable → opened → ¬ force → Completes i s (· = s.putFlag (CHP_STAT.REFUSED p) true))
     ∧ (p < 48 → disable → ¬ opened → ¬ force → s.get (CHP_STAT.LINK p) ≠ lnk.DOWN → u.flag (CHP_CTL.DISABLE p) = true →
         Completes i s fun t =>
           let x := s.port p
           let y : Port := { x with releasing := true, leftUp := none }
           let f : Flit := { kind := 2, fseq := x.txSeq, ackSeq := (x.rxSeq + 1023) % 1024, nak := x.nakDue, ackv := x.ackPending
                             credit := min x.freed 4095, corrected := 0, crcOk := true, body := [2] }
           t.get (CHP_STAT.LINK p) = lnk.DOWN ∧ t.get (CHP_STAT.WIDTH p) = 0 ∧ t.flag (CHP_STAT.DEAD p) = true
           ∧ (s.flag (CHP_CFG.MODE p) = false → t.port p = y ∧ t.net = s.net)
           ∧ (s.flag (CHP_CFG.MODE p) = true → t.net = s.net ++ [.flit p f.bytes] ∧ t.port p = { y with
               txSeq := (x.txSeq + 1) % 1024, replay := x.replay ++ [{ fseq := x.txSeq, at_ := s.time.now, kind := 2, body := [2] }]
               ackPending := false, nakDue := false, freed := x.freed - min x.freed 4095 })
           ∧ t = { s with regs := t.regs, locks := t.locks, net := t.net, ports := t.ports })
     ∧ (p < 48 → disable → force → Completes i s
         (· = portIdle ((opsWith u (fun j => opPort u j == p && opOpen j)).foldl (fun x c =>
           match x.op? c with
           | some j => if j.state = .accepted then endOp x c j cst.SUSPENDED 0 false else abortOp x c j cst.SUSPENDED 0
           | none => x) u) p))
     ∧ (p < 48 → ¬ disable → s.flag (CHP_CTL.DISABLE p) = false → w / 4 % 2 = 0 → Completes i s (· = u))
     ∧ (p < 48 → ¬ disable → s.flag (CHP_CTL.DISABLE p) = true ∨ w / 4 % 2 = 1 →
         Completes i s fun t => t = { u with regs := t.regs, ports := t.ports }
           ∧ (off → t.get (CHP_STAT.LINK p) = lnk.DOWN)
           ∧ (¬ off → t.get (CHP_STAT.LINK p) = if u.get (CHP_STAT.LINK p) = lnk.DOWN then lnk.TRAINING else lnk.RETRAIN)
           ∧ (t.port p).initSeen = false ∧ (t.port p).initAcked = false ∧ (t.port p).releasing = false
           ∧ (t.port p).replay = (u.port p).replay ∧ ∀ q, q ≠ p → t.port q = u.port q))
  ∧ (∀ (s : State) (p : Nat),
       let pcie : Prop := p < 48 ∧ s.flag (CHP_CFG.MODE p) = false
       let wide : Prop := 48 ≤ p ∧ p < 64 ∧ wideIo s p = true
       let gone (x t : State) : Prop := ∃ u, u.get (CHP_STAT.LINK p) = lnk.DOWN ∧ u.get (CHP_STAT.WIDTH p) = 0 ∧ u.flag (CHP_STAT.DEAD p) = true
         ∧ u = { x with regs := u.regs, ports := u.ports }
         ∧ t = report (losePort u p cst.DEVICE_LOST) { Report.of (dom.quad (p / 4)) .UC with info := BitVec.ofNat 64 p }
       (pcie → Completes (.dpcContainment p) s (gone s))
       ∧ (wide → Completes (.dpcContainment p) s
           (· = report s { Report.of (dom.mem (p - 32)) .UC with info := BitVec.ofNat 64 (p - 48) }))
       ∧ (¬ pcie → wideIo s p = false → Completes (.dpcContainment p) s (· = s) ∧ ∀ e, Completes (.pcieHotplugEvent p e) s (· = s))
       ∧ (pcie → Completes (.pcieHotplugEvent p (.presence true)) s (· = s.modPort p (fun x => { x with present := true }))
           ∧ Completes (.pcieHotplugEvent p .attention) s (· = s.modPort p (fun x => { x with attention := true }))
           ∧ (∀ b, Completes (.pcieHotplugEvent p (.power b)) s (· = s.modPort p (fun x => { x with powered := b })))
           ∧ ((s.port p).present = true → Completes (.pcieHotplugEvent p (.presence false)) s (gone (s.modPort p (fun x => { x with present := false }))))
           ∧ (s.get (CHP_STAT.LINK p) = lnk.UP → Completes (.pcieHotplugEvent p (.linkState false)) s (gone s))
           ∧ (s.get (CHP_STAT.LINK p) = lnk.TRAINING ∨ s.get (CHP_STAT.LINK p) = lnk.RETRAIN →
               Completes (.pcieHotplugEvent p (.linkState true)) s fun t => t.get (CHP_STAT.LINK p) = lnk.UP ∧ t.flag (CHP_STAT.DEAD p) = false
                 ∧ t.get (CHP_STAT.RATE p) ≤ s.get (CHP_CFG.MAXRATE p) ∧ t.get (CHP_STAT.WIDTH p) ∈ [1, 2, 4] ∧ (t.port p).leftUp = none))
       ∧ (∀ x bad, s.get (CHP_STAT.LINK p) ≠ lnk.UP → pcie → wideIo s p = false → Completes (.inboundTlp p ⟨x, bad⟩) s (· = s))
       ∧ (∀ a n bad, pcie → wideIo s p = false → tlpSpan s p a n false = none → Completes (.inboundTlp p ⟨.memRead a n, bad⟩) s (· = s))
       ∧ (∀ a bs ep bad, pcie → wideIo s p = false → tlpSpan s p a bs.length true = none → Completes (.inboundTlp p ⟨.memWrite a bs ep, bad⟩) s (· = s))
       ∧ (∀ a bs ep bad cell j x, pcie → wideIo s p = false → s.get (CHP_STAT.LINK p) = lnk.UP → tlpSpan s p a bs.length true = some (cell, j, x) →
           let n := bs.length
           let tpa := x.tpa + (a - x.pa)
           let may : Prop := n ≤ 4096 ∧ burstMay s p (s.viTenant j.vi) n true = true ∧ inTurn s p = true
           (¬ may → Completes (.inboundTlp p ⟨.memWrite a bs ep, bad⟩) s (· = s))
           ∧ (may → ∀ u ok, dmaIn (burstTaken s p (s.viTenant j.vi) n true) cell j tpa a n (ofBytes bs) ep bad = (u, ok) →
               EndsOrWaits (.inboundTlp p ⟨.memWrite a bs ep, bad⟩) s
                 (u.setOp cell (dataNoted { j with got := j.got + n } (if ok then none else some tpa) tpa bad))))
       ∧ (∀ a bs ep bad, wideIo s p = true → s.domOn (dom.mem (p - 32)) = true →
           EndsOrWaits (.inboundTlp p ⟨.memWrite a bs ep, bad⟩) s (writeBytes s 57 0 a bs.length (ofBytes bs) ep).1))

/-- (1) R246, R247, R250, R251: a Weft link. A training end repeats its INIT in a control flit; a received INIT of version 1 is acknowledged, sets the
credits and the flit from which the port resumes, and with the own INIT acknowledged the link is UP; an announced release is noted. A flit without an
acknowledgement for 200 rclk is sent again with every later one, and the fourth replay without progress retrains; a link away for HOLDMS is gone, and
its subchannels are LOST. (2) R248 to R250, R252, R253: flits received. Corrections are counted; a flit that fails its CRC or is of KIND 3 is dropped, as
is one out of order, and a NAK goes out; an idle flit only brings its ACK, NAK and CREDIT; the next one in order, stated for one in which no frame
ends, is accepted, its ACK taken and its own acknowledgement sent. -/
def Obligations.WeftLinkTakesFlitsInOrder : Prop :=
  let said (kind fseq rx : Nat) (nak ackv : Bool) (x : Port) (body : List Byte) : Flit :=
    { kind := kind, fseq := fseq, ackSeq := (rx + 1023) % 1024, nak := nak, ackv := ackv, credit := min x.freed 4095, corrected := 0
      crcOk := true, body := body }
  (∀ (s : State) (p : Nat),
     let x := s.port p
     let link := s.get (CHP_STAT.LINK p)
     let weft : Prop := p < 48 ∧ s.flag (CHP_CFG.MODE p) = true
     let trains : Prop := weft ∧ (link = lnk.TRAINING ∨ link = lnk.RETRAIN)
     (trains → x.replay.length < 512 → Completes (.initResend p) s fun t =>
         let body := initBytes { version := 1, credits := Config.weftCredits, fseq := x.rxSeq, kind := 1, mid := s.mid, ident := BitVec.ofNat 64 p }
         t = { s with ports := t.ports, net := s.net ++ [.flit p (said 2 x.txSeq x.rxSeq x.nakDue x.ackPending x body).bytes] }
         ∧ (∀ q, q ≠ p → t.port q = s.port q)
         ∧ t.port p = { x with
             inits := x.inits ++ [x.txSeq], txSeq := (x.txSeq + 1) % 1024
             replay := x.replay ++ [{ fseq := x.txSeq, at_ := s.time.now, kind := 2, body := body }]
             ackPending := false, nakDue := false, freed := x.freed - min x.freed 4095 })
     ∧ (¬ trains ∨ 512 ≤ x.replay.length → Completes (.initResend p) s (· = s))
     ∧ (weft → link = lnk.UP → Completes (.linkRelease p) s (· = s.modPort p (fun x => { x with released := true })))
     ∧ (¬ (weft ∧ link = lnk.UP) → Completes (.linkRelease p) s (· = s))
     ∧ (∀ m : InitMsg,
         let acked : Flit := said 0 0 ((x.rxSeq + 1) % 1024) x.nakDue true x []
         let good : Prop := m.version = 1 ∧ 34 ≤ m.credits
         (¬ weft ∨ link = lnk.DOWN → Completes (.init p m) s (· = s))
         ∧ ((weft ∧ link = lnk.UP ∧ x.released = false) ∨ (trains ∧ ¬ good) → Completes (.init p m) s fun t =>
             t = { s with ports := t.ports, net := s.net ++ [.flit p acked.bytes] } ∧ (∀ q, q ≠ p → t.port q = s.port q)
             ∧ t.port p = { x with rxSeq := (x.rxSeq + 1) % 1024, ackPending := false, nakDue := false, nakWait := false
                                   freed := x.freed - min x.freed 4095 })
         ∧ (trains → good → x.initAcked = false → Completes (.init p m) s fun t =>
             t = { s with ports := t.ports, net := t.net } ∧ (∀ q, q ≠ p → t.port q = s.port q)
             ∧ (t.port p).credits = m.credits ∧ (t.port p).initSeen = true ∧ (t.port p).rxSeq = (x.rxSeq + 1) % 1024
             ∧ (t.port p).ackPending = false
             ∧ ((∀ e ∈ x.replay, e.fseq ≠ m.fseq) → (t.port p).replay = [] ∧ (t.port p).txSeq = m.fseq % 1024
                 ∧ t.net = s.net ++ [.flit p acked.bytes])
             ∧ (∀ a e b, x.replay = a ++ e :: b → e.fseq = m.fseq → (∀ y ∈ a, y.fseq ≠ m.fseq) →
                 (t.port p).replay = (e :: b).map (fun y => { y with at_ := s.time.now }) ∧ (t.port p).txSeq = x.txSeq))
         ∧ (trains → good → x.initAcked = true → x.tx = [] → subsOf s p = [] →
             Completes (.init p m) s fun t =>
               t.get (CHP_STAT.LINK p) = lnk.UP ∧ t.get (CHP_STAT.RATE p) = 5 ∧ t.get (CHP_STAT.WIDTH p) = 4 ∧ t.flag (CHP_STAT.DEAD p) = false
               ∧ (t.port p).leftUp = none ∧ (t.port p).sessions = [] ∧ t = { s with regs := t.regs, ports := t.ports, net := t.net }))
     ∧ (p < 48 → ∀ e rest, x.replay = e :: rest →
         (link ≠ lnk.UP ∨ s.time.now < e.at_ + 200 → Completes (.replayTimeout p) s (· = s))
         ∧ (link = lnk.UP → e.at_ + 200 ≤ s.time.now → Completes (.replayTimeout p) s fun t =>
             t = { s with regs := t.regs, ports := t.ports, net := t.net }
             ∧ t.get (CHP_WERR.REPLAY p) = min (s.get (CHP_WERR.REPLAY p) + 1) (2 ^ (CHP_WERR.REPLAY p).w - 1)
             ∧ (t.port p).replay = x.replay.map (fun e => { e with at_ := s.time.now })
             ∧ (∃ ms, t.net = s.net ++ ms ∧ ms.length = x.replay.length
                 ∧ ms.head? = some (.flit p (said e.kind e.fseq x.rxSeq x.nakDue x.ackPending x e.body).bytes))
             ∧ (x.replays < 3 → t.get (CHP_STAT.LINK p) = lnk.UP ∧ (t.port p).replays = x.replays + 1)
             ∧ (3 ≤ x.replays → t.get (CHP_STAT.LINK p) = lnk.RETRAIN ∧ (t.port p).replays = 0
                 ∧ t.get (CHP_WERR.RETRAIN p) = min (s.get (CHP_WERR.RETRAIN p) + 1) (2 ^ (CHP_WERR.RETRAIN p).w - 1))))
     ∧ (x.replay = [] → Completes (.replayTimeout p) s (· = s))
     ∧ (let due : Prop := p < 48 ∧ link ≠ lnk.UP ∧ ∃ t, x.leftUp = some t ∧ t + s.get (CHP_CFG.HOLDMS p) * 100000 ≤ s.time.now
        (¬ due → Completes (.linkHoldExpiry p) s (· = s))
        ∧ (due → Completes (.linkHoldExpiry p) s fun t => ∃ u, u.get (CHP_STAT.LINK p) = lnk.DOWN ∧ u.flag (CHP_STAT.DEAD p) = true
             ∧ (u.port p).replay = [] ∧ u = { s with regs := u.regs, ports := u.ports }
             ∧ t = report (losePort u p cst.PATH_LOST) { Report.of (dom.quad (p / 4)) .UC with info := BitVec.ofNat 64 p })))
  ∧ (∀ (s : State) (p : Nat) (bytes : List Byte),
       let f := flitOf bytes
       let x := s.port p
       let dead : Prop := 48 ≤ p ∨ s.flag (CHP_CFG.MODE p) = false ∨ s.get (CHP_STAT.LINK p) = lnk.DOWN ∨ bytes.length ≠ 256
       let s1 := s.bump (CHP_WERR.FECCORR p) f.corrected
       let bad : Prop := f.crcOk = false ∨ f.kind = 3
       let next : Prop := f.fseq = x.rxSeq
       let sends (rx : Nat) (nak ackv : Bool) (t : State) : Prop :=
         t = { s1 with ports := t.ports, net := s.net ++ [.flit p (said 0 0 rx nak ackv x []).bytes] } ∧ ∀ q, q ≠ p → t.port q = s.port q
       let owes : Port := { x with ackPending := false, nakDue := false, freed := x.freed - min x.freed 4095 }
       let took : Port := { owes with rxSeq := (x.rxSeq + 1) % 1024, nakWait := false, credits := x.credits + f.credit }
       let gets (q : State → Prop) : Prop := Completes (.flitReceive p bytes) s q
       (dead → gets (· = s))
       ∧ (¬ dead → x.tx = [] →
         (bad ∨ ((f.kind = 1 ∨ (f.kind = 2 ∧ f.body.headD 0 ≠ 1)) ∧ ¬ next ∧ x.nakWait = false) → gets fun t =>
             sends x.rxSeq true x.ackPending t ∧ t.port p = { owes with nakWait := true })
         ∧ (¬ bad → f.kind = 1 ∨ (f.kind = 2 ∧ f.body.headD 0 ≠ 1) → ¬ next → x.nakWait = true → x.nakDue = false → x.ackPending = false →
             x.freed = 0 → gets fun t => t = { s1 with ports := t.ports } ∧ ∀ q, t.port q = s.port q)
         ∧ (¬ bad → s.get (CHP_STAT.LINK p) = lnk.UP →
           (f.kind = 0 → f.ackv = false → f.nak = false → x.nakDue = false → x.ackPending = false → x.freed = 0 →
             gets (· = s1.modPort p (fun x => { x with credits := x.credits + f.credit })))
           ∧ (f.kind = 2 → f.body.headD 0 = 2 → next → f.ackv = false → f.nak = false →
               gets fun t => sends ((x.rxSeq + 1) % 1024) x.nakDue true t ∧ t.port p = { took with released := true })
           ∧ (∀ a e b rest, f.kind = 1 → next → f.ackv = true → f.nak = false → x.replay = a ++ e :: b → e.fseq = f.ackSeq →
               (∀ y ∈ a, y.fseq ≠ f.ackSeq) → framesIn ((x.rxPart ++ f.body).length / 16 + 1) (x.rxPart ++ f.body) = ([], rest) →
               gets fun t => sends ((x.rxSeq + 1) % 1024) x.nakDue true t
                 ∧ t.port p = { took with
                     replay := b, replays := 0, rxPart := rest, initAcked := (t.port p).initAcked, inits := (t.port p).inits }))))

/-- (1) R255, R256: sessions. A control unit accepts a session, refuses it, whose subchannels are then LOST, or accepts it afresh, whose operations sent
then end DEVICE_LOST. A session that is closed is no longer open. (2) R242, R252, R255, R260 to R264: the frames of operations. Each gives its credits back. One that fails its CRC is counted
and its operation aborted to end DATA_CHECK; one that is malformed, or of a SEQ that was aborted, is counted in BADTYPE; DATA_IN moves data; STATUS
ends its command by its class; DUPACK and ABORT_DONE end the operation. (3) R245, R255: REG_RSP. One of eight bytes answers the cord whose load waits
for it, one of none performs the stores that wait for it, in a store buffer or in a flush claim. (4) R260: a command that was answered Busy is sent
again 100 µs later, when the link, its session and its window allow. -/
def Obligations.SessionsAndFramesHandled : Prop :=
  (∀ (s : State) (p session : Nat) (dstat : BitVec 16),
     let asked : Prop := p < 48 ∧ s.get (CHP_STAT.LINK p) = lnk.UP ∧ mget (s.port p).sessions session 0 = 1
     let subs := sessionSubs s p session
     (¬ asked ∨ 2 < dstat.toNat → Completes (.sessAccept p session dstat) s (· = s))
     ∧ (asked → dstat = 0 → (∀ e ∈ s.chs.cells, e.2.subch ∈ subs → e.2.state ≠ .active ∨ e.2.shut ≠ none) →
         Completes (.sessAccept p session dstat) s (· = setSession s p session 2))
     ∧ (asked → dstat = 1 → Completes (.sessAccept p session dstat) s
         (· = subs.foldl (fun x n => loseSub x n cst.DEVICE_LOST) (setSession s p session 3)))
     ∧ (asked → dstat = 2 → Completes (.sessAccept p session dstat) s
         (· = (opsWith s (fun j => subs.contains j.subch && j.state == .active)).foldl (fun x c => endIfOpen x c cst.DEVICE_LOST)
           (setSession s p session 2)))
     ∧ (p < 48 ∧ s.flag (CHP_CFG.MODE p) = true → Completes (.sessClose p session) s (· = setSession s p session 0))
     ∧ (¬ (p < 48 ∧ s.flag (CHP_CFG.MODE p) = true) → Completes (.sessClose p session) s (· = s))
     ∧ ∀ st, mget ((setSession s p session st).port p).sessions session 0 = st)
  ∧ (∀ (s : State) (p : Nat) (f : Frame) (bad : Option Nat),
       let live : Prop := p < 48 ∧ s.flag (CHP_CFG.MODE p) = true ∧ s.get (CHP_STAT.LINK p) = lnk.UP
       let s1 := s.modPort p (fun x => { x with rx := x.rx.erase f, freed := x.freed + frameCredits f })
       let stale : Prop := opTyp f.typ = true ∧ (f.subch, f.seq) ∈ (s.port p).aborted
       let good : Prop := f.crcOk = true ∧ frameGood f = true ∧ ¬ stale
       let rows : List Instr := [.status p f, .dupack p f, .abortDone p f, .regRsp p f]
       let ends (i : Instr) (t : State) : Prop := EndsOrWaits i s (flitReply t p)
       (¬ live → ∀ i ∈ rows, Completes i s (· = s))
       ∧ (live → f.crcOk = false → ∀ i ∈ rows, Completes i s (· = flitReply (frameCrcFail s1 p f) p))
       ∧ (live → f.crcOk = true → frameGood f = false ∨ stale → ∀ i ∈ rows, Completes i s (· = flitReply (s1.bump (CHP_WERR.BADTYPE p) 1) p))
       ∧ (f.crcOk = false → frameCrcFail s1 p f = match frameOp s1 p f with
           | some (cell, j) => abortOp (s1.bump (CHP_WERR.FRAMECRC p) 1) cell j cst.DATA_CHECK (if f.typ = 6 then spanAt f.count j.spans else 0)
           | none => s1.bump (CHP_WERR.FRAMECRC p) 1)
       ∧ (live → good → frameOp s1 p f = none →
           Completes (.status p f) s (· = flitReply s1 p) ∧ Completes (.dataIn p ⟨f, bad⟩) s (· = flitReply s1 p)
           ∧ (f.typ = 10 → Completes (.abortDone p f) s
               (· = flitReply (s1.modPort p (fun x => { x with aborted := x.aborted ++ [(f.subch, f.seq)] })) p))
           ∧ (f.typ = 8 → Completes (.dupack p f) s (· = flitReply (s1.bump (CHP_WERR.DUPACK p) 1) p)))
       ∧ (live → good → ∀ cell j, frameOp s1 p f = some (cell, j) →
           (f.typ = 8 → atDevice j = true → Completes (.dupack p f) s
             (· = flitReply (endOp (s1.bump (CHP_WERR.DUPACK p) 1) cell j cst.DUPLICATE_ACK 0 false) p))
           ∧ (f.typ = 10 →
             let s2 := s1.modPort p (fun x => { x with aborted := x.aborted ++ [(j.subch, j.seq)] })
             (j.dev ≠ .aborting → Completes (.abortDone p f) s (· = flitReply s2 p))
             ∧ ∀ code, j.dev = .aborting → j.goal = some code → Completes (.abortDone p f) s (· = flitReply (endOp s2 cell j code j.faddr false) p))
           ∧ (f.typ = 6 →
             let may : Prop := burstMay s p (s.viTenant j.vi) f.len true = true ∧ inTurn s p = true
             (¬ may → Completes (.dataIn p ⟨f, bad⟩) s fun t => t = { s with ports := t.ports } ∧ f ∈ (t.port p).rx)
             ∧ (may → j.cmd = 0x10 → atDevice j = true → ends (.dataIn p ⟨f, bad⟩) (dataMove s1 cell j f.count f.payload f.poison bad)))
           ∧ (f.typ = 7 → atDevice j = true → f.ccwno = j.ccwno →
               let cls := f.dstat.toNat % 256
               let sense := if f.dstat.toNat / 256 % 2 = 1 ∧ f.len = 56 then wordsOf f.payload 7 else ((s.scb f.subch).sense.drop 1).take 7
               let b := s.scb j.subch
               let s2 := s1.setScb j.subch { b with sense := (b.sense.take 1 ++ List.replicate (1 - b.sense.length) 0) ++ sense }
               let k : JRec := { j with dstat := f.dstat }
               (cls = 0 → ends (.status p f) (cmdDone s2 cell k sense))
               ∧ (cls = 1 → j.status = 0 → ends (.status p f) (endOpWith s2 cell k cst.BAD_PROGRAM 0 false sense))
               ∧ (cls = 3 → j.status = 0 → ends (.status p f) (endOpWith s2 cell k cst.DATA_CHECK 0 false sense))
               ∧ (cls = 4 → j.goal = none → ends (.status p f) (s2.setOp cell { k with dev := .none, mark := s.time.now, got := 0 }))
               ∧ (cls = 2 ∨ 5 ≤ cls → ends (.status p f)
                   (loseSub (endOpWith s2 cell k cst.DEVICE_LOST 0 false sense) j.subch cst.DEVICE_LOST)))))
  ∧ (∀ (s : State) (p : Nat) (f : Frame), p < 48 → s.flag (CHP_CFG.MODE p) = true → s.get (CHP_STAT.LINK p) = lnk.UP → f.crcOk = true →
       frameGood f = true →
       let s1 := s.modPort p (fun x => { x with rx := x.rx.erase f, freed := x.freed + frameCredits f })
       let ends (t : State) : Prop := Completes (.regRsp p f) s (· = flitReply t p)
       let badtype : State := s1.bump (CHP_WERR.BADTYPE p) 1
       (f.typ ≠ 13 → (opTyp f.typ = true → (f.subch, f.seq) ∉ (s.port p).aborted) → ends s1)
       ∧ (f.typ = 13 → ∀ c, loadWaiter s1 p f.seq = some c →
           (f.len = 8 → ends (loadAnswer s1 c (BitVec.ofNat 64 (ofBytes f.payload)))) ∧ (f.len = 0 → ends badtype))
       ∧ (f.typ = 13 → loadWaiter s1 p f.seq = none →
           (storeWaits s1 p f.seq = false → ends s1)
           ∧ (storeWaits s1 p f.seq = true → f.len = 8 → ends badtype)
           ∧ (storeWaits s1 p f.seq = true → f.len = 0 → (∀ t, s.claimsOf t = []) → Completes (.regRsp p f) s fun t => ∃ u,
               t = flitReply u p ∧ u = { s1 with regs := u.regs, cords := u.cords, loom := { s1.loom with claims := u.loom.claims } }
               ∧ (∀ off, u.rd off = s.rd off)
               ∧ ∀ c, (u.core (.cord c)).sbuf = (s.core (.cord c)).sbuf.filter (fun e => !(e.sent && e.port == p && e.seq == f.seq)))))
  ∧ ((∀ (s : State) (cell : Nat), s.op? cell = none → Completes (.busyRetry cell) s (· = s))
     ∧ ∀ (s : State) (cell : Nat) (j : JRec), s.op? cell = some j →
       let due : Prop := j.state = .active ∧ j.dev = .none ∧ j.run ≠ [] ∧ s.flag (CHP_CFG.MODE (opPort s j)) = true
         ∧ j.mark + 10000 ≤ s.time.now ∧ weftReady s j = true
       (¬ due → Completes (.busyRetry cell) s (· = s))
       ∧ (due → EndsOrWaits (.busyRetry cell) s (weftCmd s cell j)))

/-- (1) R270, R273, R277: an idle engine of a live domain takes work of the tenant it serves: a suspended job first, then its first XFORM job, then its
first ring with work. A job that passes its checks runs; one that fails them halts. (2) R273: a ring that halts records the slot and the reason in its
configuration, sets HALTED, and the engine reports CE; an operation's job that fails ends its operation BAD_PROGRAM. (3) R271, R284, R290: a job ends.
One with an end already settled ends so; one whose input is taken ends with the status that stopped it, or OK; an address that fails halts it. The end
writes words 9 to 15, then the context, then word 8 with DONE, then RSTAT with CONS one higher, and leaves the engine idle. (4) R277, R285: a job is
cut off only when its tenant has lost the engine. Its state goes into half 1 of its context and it waits as the tenant's suspended job; a job that
holds its output starts again. A command whose reads or writes of memory must wait is turned back (log 12). -/
def Obligations.EngineJobsRunAndEnd : Prop :=
  (∀ (s : State) (e : Nat),
     let idle : Prop := e < 8 ∧ s.domOn (dom.engine e) = true ∧ (s.engAt e).job = none ∧ s.fcu.safe = none
     (¬ idle ∨ engServes s e = none → Completes (.engineRingPoll e) s (· = s))
     ∧ (idle → ∀ t, engServes s e = some t →
       (∀ j, mget? (s.engAt e).susp t = some j → EndsOrWaits (.engineRingPoll e) s (restoreJob s e j))
       ∧ (mget? (s.engAt e).susp t = none →
         (∀ c rest, xformsOf s e t = c :: rest → EndsOrWaits (.engineRingPoll e) s (beginXform s e c))
         ∧ (xformsOf s e t = [] → ringsOf s e t = [] → Completes (.engineRingPoll e) s (· = s))
         ∧ (xformsOf s e t = [] → ∀ r rest, ringsOf s e t = r :: rest →
           (∀ s1, rest = [] → pollRing s e r = (s1, .empty) → EndsOrWaits (.engineRingPoll e) s s1)
           ∧ ∀ s1 cons, pollRing s e r = (s1, .job cons) →
             let a := ringBase s1 e r + 0x200 + cons % ringSlots s1 e r * 0x80
             let blank := jobAt s1 (ringVi s e r) a (some r) none []
             let next (x : State) : State := x.modEng e (fun g => { g with lastRing := r })
             (∀ s2, jobRead s1 e blank a 128 = (s2, none) → EndsOrWaits (.engineRingPoll e) s (haltJob (next s2) e blank 1))
             ∧ ∀ s2 g, jobRead s1 e blank a 128 = (s2, some g) →
               let j : Job := { blank with desc := wordsOf (bytesOf g.val 128) 16 }
               (g.poison ≠ none → EndsOrWaits (.engineRingPoll e) s (haltJob (next s2) e blank 2))
               ∧ (g.poison = none → ∀ s3,
                 (startJob s2 e j = (s3, .wait) → EndsOrWaits (.engineRingPoll e) s s3)
                 ∧ (∀ reason, startJob s2 e j = (s3, .halt reason) → EndsOrWaits (.engineRingPoll e) s (haltJob (next s3) e j reason))
                 ∧ ∀ k, startJob s2 e j = (s3, .go k) → ∃ u, EndsOrWaits (.engineRingPoll e) s u
                     ∧ u.engAt e = { s3.engAt e with job := some k, lastRing := r } ∧ (∀ f, f ≠ e → u.engAt f = s3.engAt f)
                     ∧ u.get (engStat e 0 2) = 1 ∧ u.get (engStat e 2 10) = k.tenant % 1024
                     ∧ u = { s3 with regs := u.regs, eng := { s3.eng with engs := u.eng.engs }, loom := u.loom })))))
  ∧ (∀ (s : State) (e : Nat) (j : Job) (reason : Nat),
       let u := engIdle s e
       (∀ cell k, j.ring = none → j.cell = some cell → s.op? cell = some k →
         haltJob s e j reason = endOp u cell { k with xdone := true } cst.BAD_PROGRAM j.slot true)
       ∧ (e < 8 → ∀ r, r < 64 → j.ring = some r → ∃ x y,
           haltJob s e j reason = raise y (dom.engine e) .CE
           ∧ x.get (ringCfg e r 32 16) = (j.slot - (ringBase s e r + 0x200)) / 0x80 % 2 ^ 16 ∧ x.get (ringCfg e r 8 4) = reason % 16
           ∧ x.get (ringCfg e r 1 1) = 1 ∧ x.get (engStat e 0 2) = 0 ∧ (x.engAt e).job = none
           ∧ x = { s with regs := x.regs, eng := { s.eng with engs := x.eng.engs } }
           ∧ y = (jobWrite (readCons x e r j).1 e j (ringBase (readCons x e r j).1 e r + 0x100) 8 (rstat (readCons x e r j).1 e r (readCons x e r j).2)).1))
  ∧ ((∀ (s : State) (e : Nat) (bad : EngBad),
       (8 ≤ e ∨ s.domOn (dom.engine e) = false ∨ (s.engAt e).job = none → Completes (.engineJobEnd e bad) s (· = s))
       ∧ (e < 8 → s.domOn (dom.engine e) = true → ∀ j, (s.engAt e).job = some j →
         (∀ st f, j.early = some (st, f) → EndsOrWaits (.engineJobEnd e bad) s (finishJob s e j st f 0))
         ∧ (j.early = none → j.revoked = false →
           (∀ s1, takeUpTo s e j j.srclen bad.inp = (s1, none) → EndsOrWaits (.engineJobEnd e bad) s (haltJob s1 e j 5))
           ∧ ∀ s1 w, takeUpTo s e j j.srclen bad.inp = (s1, some w) →
             (∀ st f, w.stop = some (st, f) → st ≠ 0 → w.job.hold = false →
               EndsOrWaits (.engineJobEnd e bad) s (finishJob s1 e w.job st f w.check))
             ∧ (w.stop = none → 4 ≤ e → bad.out = none → EndsOrWaits (.engineJobEnd e bad) s (finishJob s1 e w.job 0 0 w.check))
             ∧ (w.stop = none → e < 4 → w.job.final = false ∨ w.job.mode = 1 ∨ w.job.mode = 2 → bad.out = none →
                 EndsOrWaits (.engineJobEnd e bad) s (finishJob s1 e w.job 0 0 0)))))
     ∧ ∀ (s s0 s1 s2 s3 s4 : State) (e : Nat) (j : Job) (st f check : Nat), st ≠ cst.STATE_PARITY → scrubs e j st = false → e < 8 →
         jobWrite s e j j.msgDst 0 0 = (s0, true) →
         jobWrite s0 e j (j.slot + 72) 56 (ofBytes (bytesOfWords ([j.used, j.made, 0, 0, f, check % 2 ^ 32, 0].map (BitVec.ofNat 64)))) = (s1, true) →
         endContext s1 e j st false = (s2, true) →
         jobWrite s2 e j (j.slot + 64) 8 (st + boolNat j.ctxBad * 2 ^ 8 + boolNat j.released * 2 ^ 9 + 2 ^ 63) = (s3, true) →
         jobReport s3 e j st f = (s4, true) →
         let t := finishJob s e j st f check
         t.engAt e = { s4.engAt e with job := none } ∧ t.get (engStat e 0 2) = 0
           ∧ t.get (engStat e 16 32) = min (s4.get (engStat e 16 32) + 1) (2 ^ 32 - 1)
           ∧ t = { s4 with regs := t.regs, eng := { s4.eng with engs := t.eng.engs } })
  ∧ (∀ (s : State) (e upTo : Nat),
       ((s.engAt e).job = none → Completes (.jobSuspend e upTo) s (· = s))
       ∧ ∀ j, (s.engAt e).job = some j →
         let lost : Prop := e < 8 ∧ s.domOn (dom.engine e) = true ∧ engCutOff s e j = true
         let waits (x : State) (k : Job) : Prop := ∀ y, saveHalf x e k 1 = (y, true) → ∃ t, EndsOrWaits (.jobSuspend e upTo) s t
           ∧ t.engAt e = { y.engAt e with job := none, susp := mset (y.engAt e).susp k.tenant k } ∧ t.get (engStat e 0 2) = 0
           ∧ t = { y with regs := t.regs, eng := { y.eng with engs := t.eng.engs } }
         (¬ lost → Completes (.jobSuspend e upTo) s (· = s))
         ∧ (lost → s.closedWeave = true → j.early = none → j.revoked = false →
           (j.hold = true → waits s { j with used := 0, made := 0, rec_ := [] })
           ∧ (j.hold = false → upTo < j.srclen → ∀ s1 w, takeUpTo s e j (max j.used upTo) none = (s1, some w) → w.stop = none → w.job.hold = false →
               waits s1 w.job)))

/-- (1) R270, R273, R346: a write of a ring's configuration. EN wakes the engine's domain, RESTART clears HALTED. (2) R280, R283, R294: key slots and the
wrap key. LOAD and GENERATE make a slot LOADED with a new key and clear its counters, ERASE empties it; jobs that hold the slot lose their key. A
write while BUSY changes nothing; once the command is done BUSY clears and CIP_KSDATA reads zero. Taking the grant away also takes the key from the
jobs, and from an enabled descriptor cache its copy. (3) R292: a parity error of an engine is counted and reported CE, and its running job ends STATE_PARITY; a half being written is left not valid.
-/
def Obligations.EngineRegistersTakeWrites : Prop :=
  (∀ (s : State) (e r : Nat) (v : Word), ∀ i ∈ [Instr.ringEnable e r v, .ringRestart e r v],
     let off := (ringCfg e r 0 1).off
     let w := taken s off v
     let u := hostWrite s off v
     let x := if w / 4 % 2 = 1 then u.put (ringCfg e r 1 1) 0 else u
     (8 ≤ e ∨ 64 ≤ r → Completes i s (· = s))
     ∧ (e < 8 → r < 64 → w % 2 = 0 → Completes i s (· = x))
     ∧ (e < 8 → r < 64 → w % 2 = 1 → x.get (PWR_DOM.CUR (dom.engine e)) = pst.OFF → Completes i s (· = x))
     ∧ (e < 8 → r < 64 → w % 2 = 1 → x.get (PWR_DOM.CUR (dom.engine e)) ≠ pst.OFF → Completes i s (· = wakeDomain x (dom.engine e))))
  ∧ ((∀ (s : State) (v : Word), ∀ i ∈ [Instr.keyslotLoad v, .keyslotGenerate v, .keyslotErase v, .wrapKeyLoad v, .wrapKeyGenerate v],
       let op := taken s CIP_KSCMD.off v / 2 ^ 13 % 4
       let u := hostWrite s CIP_KSCMD.off v
       let k := u.get CIP_KSCMD.SLOT
       let ty := u.get CIP_KSCMD.KTYPE
       let frame (t : State) : Prop := t = { u with regs := t.regs, eng := t.eng } ∧ t.flag CIP_KSCMD.BUSY = true
       let lost (t : State) : Prop := ∀ e, e < 4 →
         (∀ j, (t.engAt e).job = some j → j.kslot = k → j.revoked = true) ∧ (∀ x ∈ (t.engAt e).susp, x.2.kslot = k → x.2.revoked = true)
       let fresh (t : State) : Prop := t.get (CIP_KS_CFG.STATE k) = 1 ∧ t.get (CIP_KS_CFG.KTYPE k) = ty ∧ t.get (CIP_KS_INVCNT.COUNT k) = 0
         ∧ t.get (CIP_KS_BYTCNT.COUNT k) = 0 ∧ lost t ∧ frame t
       (s.flag CIP_KSCMD.BUSY = true → Completes i s (· = s))
       ∧ (s.flag CIP_KSCMD.BUSY = false → op = 0 → Completes i s (· = u))
       ∧ (s.flag CIP_KSCMD.BUSY = false → u.flag CIP_KSCMD.TARGET = false →
           (op = 1 → Completes i s fun t => fresh t
             ∧ mget t.eng.keyVer k 0 = loadedVer (engKeyData u (keyWords ty) * 8 + ty) ∧ t.eng.wrapVer = u.eng.wrapVer)
           ∧ (op = 2 → Completes i s fun t => fresh t
             ∧ mget t.eng.keyVer k 0 = 2 * u.eng.nextVer ∧ t.eng.nextVer = u.eng.nextVer + 1)
           ∧ (op = 3 → Completes i s fun t => t.get (CIP_KS_CFG.STATE k) = 0 ∧ mget t.eng.keyVer k 0 = 0 ∧ lost t ∧ frame t))
       ∧ (s.flag CIP_KSCMD.BUSY = false → u.flag CIP_KSCMD.TARGET = true →
           (op = 1 → Completes i s fun t => frame t ∧ t.eng = { u.eng with wrapVer := loadedVer (engKeyData u [0, 1, 2, 3]) })
           ∧ (op = 2 → Completes i s fun t => frame t ∧ t.eng = { u.eng with wrapVer := 2 * u.eng.nextVer, nextVer := u.eng.nextVer + 1 })))
     ∧ (∀ s : State,
         (s.flag CIP_KSCMD.BUSY = false → Completes .kscmdDone s (· = s))
         ∧ (s.flag CIP_KSCMD.BUSY = true → Completes .kscmdDone s fun t =>
             t = { s with regs := t.regs } ∧ t.flag CIP_KSCMD.BUSY = false ∧ ∀ i, i < 8 → t.get (CIP_KSDATA.KEY i) = 0))
     ∧ ∀ (s : State) (k : Nat) (v : Word),
         let w := hostWrite s (CIP_KS_CFG.off k) v
         let u : State := if w.flag CHS_CFG.DCEN = true then { w with chs := { w.chs with grants := mdel w.chs.grants k } } else w
         (8192 ≤ k → Completes (.keyslotGrantWrite k v) s (· = s))
         ∧ (k < 8192 → u.flag (CIP_KS_CFG.GRANT k) = true → Completes (.keyslotGrantWrite k v) s (· = u))
         ∧ (k < 8192 → u.flag (CIP_KS_CFG.GRANT k) = false → Completes (.keyslotGrantWrite k v) s (· = revokeKey u k)))
  ∧ (∀ (s : State) (e : Nat) (half : Option Nat),
       let r := raise (s.bump (engStat e 48 8) 1) (dom.engine e) .CE
       (8 ≤ e ∨ s.domOn (dom.engine e) = false → Completes (.engineParityError e half) s (· = s))
       ∧ (e < 8 → s.domOn (dom.engine e) = true →
         ((r.engAt e).job = none → Completes (.engineParityError e half) s (· = r))
         ∧ ∀ j, (r.engAt e).job = some j →
           (half = none → EndsOrWaits (.engineParityError e half) s (finishJob r e j cst.STATE_PARITY 0 0))
           ∧ ∀ h, half = some h → EndsOrWaits (.engineParityError e half) s (finishJob (voidHalf r e j (h % 2)).1 e j cst.STATE_PARITY 0 0)))

/-- (1) R296 to R303, R307: a report. One of a source whose pairs are ignored or clamped is no report. A masked one is counted only. The first one while
VALID is 0 writes the record and its time; a later one is merged, and the first fault's values stand. Of several in one fclk the most severe one is
chosen, then the one with the lowest source. (2) R297, R305 to R308: reactions. A wire fault is a UC report whose source is then ignored. BLOCKRST
holds a domain in reset and, at the fourth reset within 60 s, turns it off instead. A UF forces the safe state of its reaction's kind, with FAULT_n
and SAFE_n low; every reaction from INTR on sends an event to the host's cord. (3) R203, R227, R233: what a report tells of the block. A single-bit error
of the pool is counted under SECDED, another poisons its cell; a failed handover marks its port's outward data (the model's choices, log 45). The
operations of a Shuttle that the reaction turned off go to another. -/
def Obligations.FaultsReportedAndReactedTo : Prop :=
  let rest (x : State) : State := (List.range 32).foldl shutLost x
  ((∀ (s : State) (rs : List Report), (∀ r ∈ rs, 316 ≤ r.src ∨ s.flag (FCU_SRC.WIRE r.src) = true ∨ (r.src < 260 ∧ s.domOn r.src = false)) →
     (∀ r ∈ rs, r.src < 316 → blockInput s r = s) → Completes (.faultReport rs) s (· = rest s))
   ∧ (∀ x : State, (∀ n, n < 32 → x.get (CHS_SHUT.STATE n) = shutst.FAILED ∨ x.get (CHS_SHUT.STATE n) = shutst.OFF → heldBy x n = []) → rest x = x)
   ∧ (∀ (s : State) (r : Report),
       let cell := r.info.toNat % 2 ^ 18
       let quad (p : Nat) : Prop := r.src = 244 + p / 4 ∧ r.sev = .CE ∧ r.info.toNat = 2 ^ 63 + p
       (r.src ≠ 295 → (∀ p, p < 48 → ¬ quad p) → blockInput s r = s)
       ∧ (∀ p, p < 48 → quad p → blockInput s r = s.modPort p (fun x => { x with badOut := true }))
       ∧ (r.src = 295 → r.sev = .CE → blockInput s r = if s.flag CHS_CFG.POOLPROT = true then s.bump CHS_POOLERR.CECOUNT 1 else s)
       ∧ (r.src = 295 → r.sev = .DE → cell ∈ usedCells s → ∃ t, blockInput s r = t ∧ t = { s with chs := { s.chs with poisonCells := t.chs.poisonCells } }
           ∧ ∀ c, c ∈ t.chs.poisonCells ↔ c = cell ∨ c ∈ s.chs.poisonCells)
       ∧ (r.src = 295 → r.sev = .UC ∨ r.sev = .UF → blockInput s r = s))
   ∧ (∀ (s₀ : State) (r : Report),
       let s := blockInput s₀ r
       let sev := sevCode r.sev
       let count : Fld := [FCU_CNT.CE r.src, FCU_CNT.DE r.src, FCU_CNT.UC r.src, FCU_CNT.UF r.src].getD sev (FCU_CNT.UF r.src)
       let reaction := bits (s.rd (FCU_SRC.off r.src)) (3 * sev) 3
       r.src < 316 → r.far < 512 → r.rails = .fault → bitAt (caps r.src) sev = true → s.flag (FCU_SRC.WIRE r.src) = false →
       (260 ≤ r.src ∨ s.domOn r.src = true) → r.sev ≠ .UF →
       (s.flag (FCU_SRC.MASK r.src) = true → sev < 2 → Completes (.faultReport [r]) s₀ (· = rest (s.bump count 1)))
       ∧ (s.flag (FCU_SRC.MASK r.src) = false ∨ sev = 2 → s.flag FCU_REC.VALID = false → consequential s r = false → reaction = react.LOG →
           ∃ t, Completes (.faultReport [r]) s₀ (· = rest t) ∧ t = { s with regs := t.regs }
             ∧ t.flag FCU_REC.VALID = true ∧ t.get FCU_REC.SRC = r.src ∧ t.get FCU_REC.SEV = sev ∧ t.get FCU_REC.MAXSEV = sev
             ∧ t.get FCU_REC.WIRE = 0 ∧ t.get FCU_REC.INJ = 0 ∧ t.get FCU_REC.FAR = r.far ∧ t.get FCU_REC.REACT = 0
             ∧ t.get FCU_REC.MERGED = 0 ∧ t.get FCU_REC.CONSEQ = 0 ∧ t.get FCU_RECINFO.INFO = r.info.toNat
             ∧ (s.time.loom = true → t.get FCU_RECTIME.PICK = s.pick ∧ t.get FCU_RECTIME.RCLK = s.since % 2 ^ 14 ∧ t.get FCU_RECTIME.PREPICK = 0)
             ∧ (s.time.loom = false → t.get FCU_RECTIME.PREPICK = 1)
             ∧ t.get count = min (s.get count + 1) (2 ^ count.w - 1))
       ∧ (s.flag (FCU_SRC.MASK r.src) = false ∨ sev = 2 → s.flag FCU_REC.VALID = true → consequential s r = true ∨ reaction = react.LOG →
           ∃ t, Completes (.faultReport [r]) s₀ (· = rest t) ∧ t = { s with regs := t.regs }
             ∧ t.get FCU_REC.MERGED = min (s.get FCU_REC.MERGED + 1) 65535 ∧ t.get FCU_REC.MAXSEV = max (s.get FCU_REC.MAXSEV) sev
             ∧ t.get FCU_REC.CONSEQ = (if consequential s r = true then min (s.get FCU_REC.CONSEQ + 1) 255 else s.get FCU_REC.CONSEQ)
             ∧ t.get FCU_REC.SRC = s.get FCU_REC.SRC ∧ t.get FCU_REC.SEV = s.get FCU_REC.SEV ∧ t.get FCU_REC.FAR = s.get FCU_REC.FAR
             ∧ t.rd FCU_RECINFO.off = s.rd FCU_RECINFO.off ∧ t.rd FCU_RECTIME.off = s.rd FCU_RECTIME.off
             ∧ t.get { off := FCU_ALSO.off (r.src / 64), lsb := r.src % 64, w := 1 } = 1
             ∧ t.get count = min (s.get count + 1) (2 ^ count.w - 1)))
   ∧ ∀ (xs : List Taken) (y : Taken), chosen xs = some y → y ∈ xs ∧ ∀ x ∈ xs, x.sev < y.sev ∨ (x.sev = y.sev ∧ y.rep.src ≤ x.rep.src))
  ∧ ((∀ (s₀ : State) (r : Report),
       let s := blockInput s₀ r
       let sev := sevCode r.sev
       let d := r.src
       let notice (n : Nat) (u t : State) : Prop :=
         t = evqSend u 0 (u.get FCU_CFG.HCORD) (BitVec.ofNat 64 (d + n * 1024)) (evDesc ev.SIGNAL 0xFFFF 0) none
       d < 316 → s.flag (FCU_SRC.WIRE d) = false → (260 ≤ d ∨ s.domOn d = true) → consequential s r = false →
       (r.rails ≠ .fault ∨ bitAt (caps d) sev = false → bitAt (caps d) 2 = false ∨ bits (s.rd (FCU_SRC.off d)) 6 3 = react.INTR →
         ∃ t, Completes (.faultReport [r]) s₀ (· = rest t) ∧ ∃ u, u = { s with regs := u.regs } ∧ notice 2 u t ∧ u.flag (FCU_SRC.WIRE d) = true
           ∧ u.get (FCU_CNT.UC d) = min (s.get (FCU_CNT.UC d) + 1) 4095
           ∧ (s.flag FCU_REC.VALID = false → r.far < 512 → u.flag FCU_REC.WIRE = true ∧ u.get FCU_REC.SEV = 2 ∧ u.get FCU_REC.SRC = d))
       ∧ (r.rails = .fault → bitAt (caps d) sev = true → s.flag (FCU_SRC.MASK d) = false ∨ 2 ≤ sev →
         (r.sev ≠ .UF → bits (s.rd (FCU_SRC.off d)) (3 * sev) 3 = react.BLOCKRST →
           ((recentResets s d).length < 3 → ∃ t, Completes (.faultReport [r]) s₀ (· = rest t) ∧ ∃ u, notice sev u t
             ∧ u = { s with regs := u.regs, fcu := { s.fcu with held := u.fcu.held, resets := u.fcu.resets, windows := u.fcu.windows } }
             ∧ d ∈ u.fcu.held ∧ Scope.domain d ∈ u.fcu.windows ∧ mget u.fcu.resets d [] = s.time.now :: recentResets s d)
           ∧ (3 ≤ (recentResets s d).length → ∃ t, Completes (.faultReport [r]) s₀ (· = rest t) ∧ ∃ u, notice sev u t
             ∧ u = { s with regs := u.regs } ∧ u.get (PWR_DOM.CUR d) = pst.OFF ∧ u.flag (FCU_SRC.FAILED d) = true))
         ∧ (r.sev = .UF →
           (s.fcu.safe = none → ∃ t, Completes (.faultReport [r]) s₀ (· = rest t) ∧ ∃ u, notice 3 u t
             ∧ u.fcu.safe = some (if s.get (FCU_SRC.RUF d) = react.FENCE then .fence else .safe) ∧ u.fcu.safeDone = false ∧ u.fcu.windows = [.all]
             ∧ u.pins = { s.pins with fault := false, safe := false } ∧ u.get PWR_MODSTAT.LIFE = life.SAFE
             ∧ u = { s with regs := u.regs, fcu := { s.fcu with safe := u.fcu.safe, safeDone := false, windows := [.all] }, pins := u.pins }))))
     ∧ ∀ (s₀ : State) (r : Report) (k : SafeKind), let s := blockInput s₀ r
         r.src < 316 → s.flag (FCU_SRC.WIRE r.src) = false → (260 ≤ r.src ∨ s.domOn r.src = true) →
         r.rails = .fault → bitAt (caps r.src) 3 = true → r.sev = .UF → consequential s r = true → s.fcu.safe = some k →
         ∃ t, Completes (.faultReport [r]) s₀ (· = rest t) ∧ t = { s with regs := t.regs, fcu := { s.fcu with safe := t.fcu.safe } }
           ∧ t.fcu.safe = some (if s.get (FCU_SRC.RUF r.src) = react.FENCE then .fence else k))

/-- (1) R306, R307, R308: what follows a reaction. A block is released 100 rclk after its reset, with the work that the reset gives it; a window closes
once its condition holds, and that of the safe state never. The safe state is complete with every link idle and the buffers and caches lost. (2) R297,
R302, R310: writes to the FCU. VALID written 1 ends the record with its counts, and a report of the same fclk then writes a new one (with it, as with any report, the
operations of Shuttles turned off go to others, R233); WIRE is a plain
W1C field; an injection is a report of the source named, marked as injected, and only GO gives it. -/
def Obligations.FaultWindowsCloseAndRecover : Prop :=
  ((∀ (s : State) (d : Nat),
       let due : Prop := d ∈ s.fcu.held ∧ lastReset s d + 100 ≤ s.time.now
       let u : State := { s with fcu := { s.fcu with held := s.fcu.held.erase d } }
       (¬ due → Completes (.blockResetRelease d) s (· = s))
       ∧ (due → d < 196 ∨ 212 ≤ d ∧ d < 244 ∨ 260 ≤ d → Completes (.blockResetRelease d) s (· = u))
       ∧ (due → 196 ≤ d → d < 204 → EndsOrWaits (.blockResetRelease d) s ((List.range 4).foldl (fun x i =>
           if x.get (CHS_SHUT.STATE (4 * (d - 196) + i)) = shutst.RUNNING then shutRestart x (4 * (d - 196) + i) else x) u))
       ∧ (due → 204 ≤ d → d < 212 →
           ((s.engAt (d - 204)).job = none → Completes (.blockResetRelease d) s (· = u))
           ∧ ∀ j, (s.engAt (d - 204)).job = some j → EndsOrWaits (.blockResetRelease d) s (finishJob u (d - 204) j cst.STATE_PARITY 0 0))
       ∧ (due → 244 ≤ d → d < 256 → EndsOrWaits (.blockResetRelease d) s (quadReset u (d - 244)))
       ∧ (due → 244 ≤ d → d < 256 → (∀ i, i < 4 → s.flag (CHP_CFG.MODE (4 * (d - 244) + i)) = true
             ∧ s.get (CHP_STAT.LINK (4 * (d - 244) + i)) = lnk.UP) → Completes (.blockResetRelease d) s fun t =>
           t = { u with regs := t.regs, ports := t.ports } ∧ ∀ i, i < 4 → t.get (CHP_STAT.LINK (4 * (d - 244) + i)) = lnk.RETRAIN
             ∧ (t.port (4 * (d - 244) + i)).replay = (s.port (4 * (d - 244) + i)).replay)
       ∧ (due → 256 ≤ d → d < 260 → Completes (.blockResetRelease d) s
           (· = { u with spl := { s.spl with upLinks := s.spl.upLinks.filter (fun l => l / 4 ≠ d - 256) } })))
   ∧ (∀ (s : State) (i : Nat),
       (s.fcu.windows.length ≤ i → Completes (.conseqWindowClose i) s (· = s))
       ∧ ∀ w, s.fcu.windows[i]? = some w →
         let closed : Prop := match w with
           | .triad t => (s.triad t).mig = none ∧ ∀ k ∈ s.places, retriesNow s t k = 0 ∨ s.flag (TRI_STAT.halt t k) = true
           | .domain d => d ∉ s.fcu.held ∧ lastReset s d + 2100 ≤ s.time.now
           | .all => False
         (¬ closed → Completes (.conseqWindowClose i) s (· = s))
         ∧ (closed → Completes (.conseqWindowClose i) s (· = { s with fcu := { s.fcu with windows := s.fcu.windows.erase w } })))
   ∧ ∀ s : State,
       (s.fcu.safe = none ∨ s.fcu.safeDone = true → Completes .safeStateComplete s (· = s))
       ∧ (s.fcu.safe ≠ none → s.fcu.safeDone = false → Completes .safeStateComplete s fun t =>
           t.fcu = { s.fcu with safeDone := true } ∧ t.l2 = [] ∧ t.ev = [] ∧ t.warp = [] ∧ t.dir = [] ∧ t.txns = [] ∧ t.snoops = [] ∧ t.mem = s.mem
           ∧ t.evPend = [] ∧ t.chs = { s.chs with dc := [], grants := [] } ∧ t.spl = { s.spl with upLinks := [] } ∧ t.net = s.spl.upLinks.map Msg.fenceSet
           ∧ (∀ p, p < 48 → t.get (CHP_STAT.LINK p) = lnk.DOWN) ∧ (∀ c, c < 96 → (t.core (.cord c)).sbuf = [])
           ∧ (∀ h, h < 32 → (t.ctl h).merge = [])))
  ∧ (∀ (s : State) (v : Word),
       let u := hostWrite s FCU_REC.off v
       let j := hostWrite s FCU_INJ.off v
       let rest (x : State) : State := (List.range 32).foldl shutLost x
       (taken s FCU_REC.off v / 2 ^ 63 % 2 = 0 → Completes (.fcuRecordClear v []) s (· = rest u))
       ∧ (taken s FCU_REC.off v / 2 ^ 63 % 2 = 1 → Completes (.fcuRecordClear v []) s (· = rest ((u.put FCU_REC.MERGED 0).put FCU_REC.CONSEQ 0)))
       ∧ (∀ same, taken s FCU_REC.off v / 2 ^ 63 % 2 = 1 → Completes (.fcuRecordClear v same) s
           (· = reportsWith ((u.put FCU_REC.MERGED 0).put FCU_REC.CONSEQ 0) same))
       ∧ (∀ k, k < 1024 → Completes (.fcuWireClear k v) s (· = hostWrite s (FCU_SRC.off k) v))
       ∧ (∀ k, 1024 ≤ k → Completes (.fcuWireClear k v) s (· = s))
       ∧ (taken s FCU_INJ.off v / 2 ^ 63 % 2 = 0 → Completes (.faultInject v) s (· = j))
       ∧ (taken s FCU_INJ.off v / 2 ^ 63 % 2 = 1 → Completes (.faultInject v) s (· = reports j true [{
             src := j.get FCU_INJ.SRC
             sev := if j.get FCU_INJ.SEV = 0 then .CE else if j.get FCU_INJ.SEV = 1 then .DE else if j.get FCU_INJ.SEV = 2 then .UC else .UF
             rails := if j.get FCU_INJ.PATTERN = 1 then .bothLow else if j.get FCU_INJ.PATTERN = 2 then .bothHigh else .fault
             far := j.get FCU_INJ.FAR, info := 0, cord := none, line := none }])))

/-- (1) R312, R313, R336: warp links. A link that is UP joins the list that its peer's messages use; one that is DOWN leaves it and is reported with the
peer's MID, what waits for its beats moves to another link to the peer, and the peer is lost when no other link that is UP leads to it. (2) R336: a lost module. Its MID is dead, every cached line that it serves
is poisoned and its dirty data discarded, the fills of such lines are over, what waited in the eviction buffers for it is gone, and UC is reported on the source of its last link.
FENCED makes a member lost that is not already dead. -/
def Obligations.WarpLinksLeadToLosses : Prop :=
  (∀ (s : State) (link : Nat),
     let off : Prop := s.stopped = true ∨ 16 ≤ link ∨ s.role = 0
     (∀ peer, off ∨ s.domOn (dom.link link) = false → Completes (.warpLinkUp link peer) s (· = s))
     ∧ (∀ peer, ¬ off → s.domOn (dom.link link) = true → Completes (.warpLinkUp link peer) s fun t =>
         t = { s with spl := { s.spl with upLinks := t.spl.upLinks, peers := t.spl.peers, rejected := t.spl.rejected } }
         ∧ (∀ l, l ∈ t.spl.upLinks ↔ l = link ∨ l ∈ s.spl.upLinks) ∧ (∀ l, l ∈ t.spl.rejected ↔ l ≠ link ∧ l ∈ s.spl.rejected)
         ∧ mget? t.spl.peers link = (if peer < 16 then some peer else none) ∧ ∀ l, l ≠ link → mget? t.spl.peers l = mget? s.spl.peers l)
     ∧ (off → Completes (.warpLinkDown link) s (· = s))
     ∧ (let u : State := { s with spl := { s.spl with upLinks := s.spl.upLinks.filter (· ≠ link) } }
        (¬ off → mget? s.spl.peers link = none → Completes (.warpLinkDown link) s (· = u))
        ∧ (¬ off → ∀ m, mget? s.spl.peers link = some m →
           let r := linkMoved (report u { Report.of (dom.link link) .UC with info := BitVec.ofNat 64 m }) link m
           let other : Prop := ∃ l ∈ r.spl.upLinks, mget? r.spl.peers l = some m
           let member : Prop := r.boltBit SPL_BOLT.MEMBERS m = true ∧ r.boltBit SPL_BOLT.DEAD m = false
           (other ∨ ¬ member → Completes (.warpLinkDown link) s (· = r))
           ∧ (¬ other → member → Completes (.warpLinkDown link) s (· = lostMember r m link)))))
  ∧ ((∀ (s : State) (link m : Nat), let t := linkMoved s link m
        t = { s with loom := { s.loom with waiting := t.loom.waiting } }
        ∧ ∀ w ∈ s.loom.waiting,
          (w.table ≠ table.link link → w ∈ t.loom.waiting)
          ∧ ∀ l, w.table = table.link link → linkFor s m w.line = some l → { w with table := table.link l } ∈ t.loom.waiting)
     ∧ (∀ (s : State) (m link : Nat), m < 16 → s.txns = [] → s.dir = [] → s.owed = [] →
         let d := s.put SPL_BOLT.DEAD (setBit (s.get SPL_BOLT.DEAD) m true)
         let u : State := { d with
           l2 := (s.l2.filter (fun e => ¬ (servedBy d (e.1 % 2 ^ 44 / 2 ^ 40 % 16) = m ∧ e.2.st = .I))).map (fun e =>
             if servedBy d (e.1 % 2 ^ 44 / 2 ^ 40 % 16) = m then (e.1, { e.2 with poison := e.2.valid, dirty := 0 }) else e)
           chs := { s.chs with dc := s.chs.dc.map (fun e => if servedBy d (e.1 / 2 ^ 40 % 16) = m then (e.1, { e.2 with poison := 15 }) else e) }
           ev := s.ev.filter (fun e => servedBy d (e.2.line / 2 ^ 40 % 16) != m) }
         ∀ r, r = report u { Report.of (dom.link link) .UC with info := BitVec.ofNat 64 m } → r.spl.rejoining = false →
           u.boltBit SPL_BOLT.DEAD m = true ∧ (∀ k, k < 16 → k ≠ m → u.boltBit SPL_BOLT.DEAD k = s.boltBit SPL_BOLT.DEAD k)
           ∧ lostMember s m link = { r with spl := { r.spl with awaiting := r.spl.awaiting.filter (· ≠ m) } })
     ∧ ∀ (s : State) (m : Nat),
         let no : Prop := s.stopped = true ∨ s.role = 0 ∨ 16 ≤ m ∨ m = s.mid ∨ s.boltBit SPL_BOLT.DEAD m = true
         (no → Completes (.fenced m) s (· = s)) ∧ (¬ no → Completes (.fenced m) s (· = lostMember s m (lastLink s m))))

/-- (1) R314 to R316: admission at the manager. An announcement is shown with its identity while no other waits, and else waits; the nonce goes to the
candidate shown, whose signature completes the identity; ADMIT gives it a MID and makes it a member, in STANDBY or not, and REJECT keeps it from being
shown again. (2) R316, R318: an admission that arrives. A worker that awaits one takes its MID and the members, and the pick at the next edge; a
standby twin turns every domain off and waits; a member marks the module as one. -/
def Obligations.AdmissionGivesMembership : Prop :=
  ((∀ (s : State) (a : Announcement),
       let known : Prop := a.link ∈ s.spl.rejected ∨ ∃ b ∈ s.spl.announces, b.link = a.link ∧ b.ident = a.ident
       let manager : Prop := s.stopped = false ∧ s.role = 1 ∧ awaitsAdmission s = false
       (¬ manager ∨ known → Completes (.admissionAnnounce (some a)) s (· = s))
       ∧ (manager → ¬ known → s.spl.announces = [] → Completes (.admissionAnnounce (some a)) s fun t =>
           t = { s with regs := t.regs, spl := { s.spl with announces := [a], nonceSent := false } }
           ∧ t.flag SPL_ADMIT.PENDING = true ∧ t.flag SPL_ADMIT.SIGV = false ∧ t.get SPL_ADMIT.LINK = a.link % 16
           ∧ ∀ j, j < 20 → t.rd (SPL_IDENT.off j) = (a.ident.getD j 0).toNat)
       ∧ (manager → ¬ known → s.spl.announces ≠ [] → Completes (.admissionAnnounce (some a)) s
           (· = { s with spl := { s.spl with announces := s.spl.announces.filter (fun b => b.link != a.link) ++ [a] } })))
   ∧ (∀ s : State,
       let due : Prop := s.stopped = false ∧ awaitsAdmission s = true ∧ s.boot.stage = .ready
       (¬ due → Completes (.admissionAnnounce none) s (· = s))
       ∧ (due → Completes (.admissionAnnounce none) s (· = { s with net := s.net ++ s.spl.upLinks.map (fun l => Msg.announce l (identityWords s)) })))
   ∧ (∀ (s : State) (v : Word),
       let u := hostWrite s (SPL_NONCE.off 3) v
       (u.role = 1 ∧ u.flag SPL_ADMIT.PENDING = true → Completes (.nonceSend v) s
         (· = { u with net := u.net ++ [.nonce (u.get SPL_ADMIT.LINK) ((List.range 4).map (fun j => BitVec.ofNat 64 (u.rd (SPL_NONCE.off j))))], spl := { u.spl with nonceSent := true } }))
       ∧ (¬ (u.role = 1 ∧ u.flag SPL_ADMIT.PENDING = true) → Completes (.nonceSend v) s (· = u)))
   ∧ (∀ (s : State) (link : Nat) (sig : List Word),
       let asked : Prop := s.flag SPL_ADMIT.PENDING = true ∧ s.spl.nonceSent = true ∧ s.get SPL_ADMIT.LINK = link
       (¬ asked → Completes (.signatureReceived link sig) s (· = s))
       ∧ (asked → Completes (.signatureReceived link sig) s fun t => t = { s with regs := t.regs } ∧ t.flag SPL_ADMIT.SIGV = true
           ∧ (∀ j, j < 12 → t.rd (SPL_IDENT.off (20 + j)) = (sig.getD j 0).toNat) ∧ ∀ j, j < 20 → t.rd (SPL_IDENT.off j) = s.rd (SPL_IDENT.off j)))
   ∧ ∀ (s : State) (v : Word),
       let u := hostWrite s SPL_ADMIT.off v
       let m := u.get SPL_ADMIT.MID
       let op := v.toNat / 2 ^ 12 % 4
       let rows : List (Instr × Nat) := [(.admitModule v, 1), (.admitStandby v, 2), (.reject v, 3)]
       (∀ r ∈ rows, op ≠ r.2 → Completes r.1 s (· = s))
       ∧ (∀ r ∈ rows, op = r.2 → s.role ≠ 1 → Completes r.1 s (· = u))
       ∧ (taken s SPL_ADMIT.off v / 2 ^ 12 % 4 = op → s.role = 1 →
         (∀ r ∈ [(Instr.admitModule v, 1), (.admitStandby v, 2)], op = r.2 →
           (admitResult u ≠ 0 → Completes r.1 s (· = u.put SPL_ADMIT.RESULT (admitResult u)))
           ∧ (admitResult u = 0 → ∀ a, u.spl.announces = [a] → Completes r.1 s fun t =>
               t.boltBit SPL_BOLT.MEMBERS m = true ∧ t.boltBit SPL_BOLT.DEAD m = false
               ∧ (r.2 = 2 → t.boltBit SPL_BOLT.STANDBYS m = true) ∧ (r.2 = 1 → t.boltBit SPL_BOLT.STANDBYS m = false)
               ∧ t.get SPL_ADMIT.RESULT = 0 ∧ t.flag SPL_ADMIT.PENDING = false ∧ t.net = u.net ++ [.admission a.link m (t.get SPL_BOLT.MEMBERS) u.pick (r.2 == 2)]
               ∧ mget? t.spl.peers a.link = some m ∧ t.spl.announces = [] ∧ t = { u with regs := t.regs, net := t.net, spl := t.spl }))
         ∧ (op = 3 → u.flag SPL_ADMIT.PENDING = false → Completes (.reject v) s (· = u.put SPL_ADMIT.RESULT 2))
         ∧ (op = 3 → u.flag SPL_ADMIT.PENDING = true → ∀ a, u.spl.announces = [a] → Completes (.reject v) s fun t =>
             t.net = u.net ++ [.reject a.link] ∧ a.link ∈ t.spl.rejected ∧ t.spl.announces = [] ∧ t.get SPL_ADMIT.RESULT = 0
             ∧ t.flag SPL_ADMIT.PENDING = false ∧ t = { u with regs := t.regs, net := t.net, spl := t.spl })))
  ∧ (∀ (s : State) (mid : Nat) (members : BitVec 16) (pick : Nat) (standby : Bool),
       let no : Prop := s.stopped = true ∨ s.role = 0 ∨ 16 ≤ mid ∨ (awaitsAdmission s = true ∧ s.boot.stage ≠ .ready)
         ∨ (awaitsAdmission s = false ∧ mid = s.mid)
       let i := Instr.admissionReceived mid members pick standby
       (no → Completes i s (· = s))
       ∧ (¬ no → awaitsAdmission s = true → Completes i s fun t =>
           (standby = false → t = { s with regs := t.regs, loom := { s.loom with admitPick := some pick } }
             ∧ t.get SPL_BOLT.MID = mid ∧ t.flag SPL_BOLT.ADMITTED = true ∧ t.boltBit SPL_BOLT.MEMBERS mid = true
             ∧ ∀ m, m < 16 → m ≠ mid → t.boltBit SPL_BOLT.MEMBERS m = members.getLsbD m)
           ∧ (standby = true → s.l2 = [] → s.warp = [] → s.ctls = [] → s.loom.waiting = [] → t = { s with regs := t.regs, ports := t.ports, spl := t.spl, pwr := t.pwr }
             ∧ t.get SPL_BOLT.MID = mid ∧ t.flag SPL_BOLT.ADMITTED = true ∧ t.boltBit SPL_BOLT.MEMBERS mid = true
             ∧ t.get SPL_STAT.STATE = 2 ∧ t.get PWR_MODSTAT.LIFE = life.STANDBY ∧ t.flag PWR_STBY.LP = true ∧ ∀ d, d < 260 → t.get (PWR_DOM.CUR d) = pst.OFF))
       ∧ (¬ no → awaitsAdmission s = false → Completes i s fun t => t = { s with regs := t.regs }
           ∧ t.boltBit SPL_BOLT.MEMBERS mid = true ∧ t.boltBit SPL_BOLT.DEAD mid = false
           ∧ (standby = true → t.boltBit SPL_BOLT.STANDBYS mid = true) ∧ ∀ off, off ≠ SPL_BOLT.off → t.rd off = s.rd off))

/-- (1) R324, R327, R328, R334: checkpoints, heartbeats and the decision. A commit makes the capture's epoch the committed one, once the
write-throughs issued before the capture are made; the last capture before a
switchover is followed by a heartbeat with YIELD and the fence. A heartbeat of the watched pair clears MISSED, and one with YIELD decides; a pick
without one by rclk 12,750 is missed, and the third in a row decides. A decision drives FENCE_OUT_n low for 100 rclk. (2) R329: what the decision does
to a module. An active one raises UF and takes the safe state of the FENCE kind; a standby whose FENCE_IN_n has been low for 50 rclk wakes to take
over, and then ignores the pin until it has been high for 1 ms. -/
def Obligations.HeartbeatsLeadToDecisions : Prop :=
  ((∀ s : State,
       (s.spl.capture = none ∨ s.stopped = true ∨ s.get SPL_STAT.STATE ≠ spst.ACTIVE ∨ captureWaits s = true → Completes .checkpointCommit s (· = s))
       ∧ (∀ e, s.spl.capture = some e → s.stopped = false → s.get SPL_STAT.STATE = spst.ACTIVE → captureWaits s = false →
           let w := ((writeCommit s e).put SPL_STAT.EPOCH e).put SPL_STAT.CKFAIL 0
           let u : State := { w with
             spl := { w.spl with capture := none, image := none, saved := w.spl.image, ckFail := false, undo := w.spl.undo.filter (fun u => e ≤ u.epoch) }
             chs := { w.chs with retired := w.chs.retired.filter (fun r => e ≤ r.2.2) } }
           u.get SPL_STAT.EPOCH = e % 2 ^ 48 ∧ u.get SPL_STAT.CKFAIL = 0
           ∧ (w.spl.final ≠ some e → Completes .checkpointCommit s (· = u))
           ∧ (w.spl.final = some e → Completes .checkpointCommit s (· = fenceSelf
               (u.send (.heartbeat { mid := u.mid, pick := u.pick, epoch := u.get SPL_STAT.EPOCH, yields := true }))))))
   ∧ (∀ (s : State) (b : Beat),
       let watches : Prop := s.stopped = false ∧ s.flag SPL_CFG.ARBEN = true ∧ (b.mid = s.get SPL_CFG.ARBA ∨ b.mid = s.get SPL_CFG.ARBB)
       (¬ watches → Completes (.heartbeat b) s (· = s))
       ∧ (watches → ∃ u, u = { s with regs := u.regs, spl := { s.spl with heard := true, lastFrom := some b.mid } }
           ∧ u.get SPL_ARB.MISSED = 0 ∧ u.get SPL_ARB.LASTPICK = b.pick % 2 ^ 48 ∧ u.get SPL_ARB.DECIDED = s.get SPL_ARB.DECIDED
           ∧ (b.yields = false ∨ s.boltBit SPL_BOLT.DEAD b.mid = true → Completes (.heartbeat b) s (· = u))
           ∧ (b.yields = true → s.boltBit SPL_BOLT.DEAD b.mid = false → Completes (.heartbeat b) s (· = decideTakeover u))))
   ∧ (∀ s : State,
       let due : Prop := s.stopped = false ∧ s.flag SPL_CFG.ARBEN = true ∧ s.time.loom = true ∧ 12750 ≤ s.since ∧ s.spl.checked = false
         ∧ s.spl.lastFrom ≠ none
       let u : State := { s with spl := { s.spl with checked := true } }
       let r := raise (u.put SPL_ARB.MISSED (min 3 (s.get SPL_ARB.MISSED + 1))) src.splice .UC
       (¬ due → Completes .heartbeatCheck s (· = s))
       ∧ (due → s.spl.heard = true → Completes .heartbeatCheck s (· = u))
       ∧ (due → s.spl.heard = false → s.get SPL_ARB.MISSED ≠ 2 ∨ r.boltBit SPL_BOLT.DEAD (watched r) = true → Completes .heartbeatCheck s (· = r))
       ∧ (due → s.spl.heard = false → s.get SPL_ARB.MISSED = 2 → r.boltBit SPL_BOLT.DEAD (watched r) = false →
           Completes .heartbeatCheck s (· = decideTakeover r)))
   ∧ (∀ s : State, ∃ u, decideTakeover s = lostMember u (watched s) (lastLink u (watched s)) ∧ u.pins = { s.pins with fenceOut := false }
       ∧ u.spl = { s.spl with fenceOutAt := s.time.now } ∧ u.net = s.net ++ [.fenceCmd (watched s), .fenced (watched s)]
       ∧ u.flag SPL_ARB.DECIDED = true ∧ u = { s with regs := u.regs, pins := u.pins, spl := u.spl, net := u.net })
   ∧ (∀ s : State,
       (s.pins.fenceOut = true ∨ s.time.now < s.spl.fenceOutAt + 100 → Completes .fenceOutRelease s (· = s))
       ∧ (s.pins.fenceOut = false → s.spl.fenceOutAt + 100 ≤ s.time.now → Completes .fenceOutRelease s
           (· = { s with pins := { s.pins with fenceOut := true } })))
   ∧ ∀ (s : State) (v : Word),
       let w := taken s SPL_CTL.off v
       let u := hostWrite s SPL_CTL.off v
       let x : State := if w % 2 = 1 ∧ u.get SPL_STAT.STATE = spst.ACTIVE ∧ u.spl.refusing = false then
         { u with spl := { u.spl with refusing := true, final := none } } else u
       let go : Prop := w / 2 % 2 = 1 ∧ x.flag SPL_CFG.ARBEN = true
       (v.getLsbD 0 = false → Completes (.plannedSwitchover v) s (· = s)) ∧ (v.getLsbD 1 = false → Completes (.splDecide v) s (· = s))
       ∧ (v.getLsbD 0 = true → (¬ go → Completes (.plannedSwitchover v) s (· = x)) ∧ (go → Completes (.plannedSwitchover v) s (· = decideTakeover x)))
       ∧ (v.getLsbD 1 = true → (¬ go → Completes (.splDecide v) s (· = x)) ∧ (go → Completes (.splDecide v) s (· = decideTakeover x))))
  ∧ ((∀ s : State, fenceSelf s = safeEntry (raise (s.put SPL_STAT.STATE spst.FENCED) src.splice .UF) .fence)
     ∧ (∀ s : State,
         (s.get SPL_STAT.STATE = spst.ACTIVE → s.stopped = false → Completes .warpFence s (· = fenceSelf s))
         ∧ (s.get SPL_STAT.STATE ≠ spst.ACTIVE ∨ s.stopped = true → Completes .warpFence s (· = s)))
     ∧ ∀ (s : State) (low : Nat),
         let no : Prop := low = 0 ∨ s.stopped = true
         let ignored : Prop := ∃ t, s.spl.fenceLow = some t ∧ s.time.now - low < t + 100000
         let noted (x : State) : State := { x with spl := { s.spl with fenceLow := some s.time.now } }
         (no → Completes (.fenceIn low) s (· = s))
         ∧ (¬ no → ignored → Completes (.fenceIn low) s (· = noted s))
         ∧ (¬ no → ¬ ignored → s.get SPL_STAT.STATE = spst.ACTIVE → Completes (.fenceIn low) s (· = fenceSelf s))
         ∧ (¬ no → ¬ ignored → s.get SPL_STAT.STATE = spst.STANDBY → 50 ≤ low → Completes (.fenceIn low) s
             (· = noted (((lowPower s false).put SPL_STAT.STATE spst.TAKEOVER).put PWR_MODSTAT.LIFE life.TAKEOVER)))
         ∧ (¬ no → ¬ ignored → s.get SPL_STAT.STATE ≠ spst.ACTIVE → s.get SPL_STAT.STATE ≠ spst.STANDBY ∨ low < 50 →
             Completes (.fenceIn low) s (· = s)))

/-- (1) R330 to R333: a takeover. The twin wakes every domain and writes its claim word; two picks later it loads the checkpoint with the higher epoch of
the valid commit words; then it sends REJOIN, and once every member has answered or is lost it serves the alias. A member accepts a REJOIN only from a
standby for a dead MID, and routes that MID to the twin; any other is reported. (2) R335: a worker leaves. The write is refused while it has assigned
cords, enabled VIs or rings, or is the manager; once drained it announces that it leaves and rests in QUIESCE. At the others its MEMBERS bit goes. -/
def Obligations.TakeoversLoadAndLeaversDrain : Prop :=
  ((∀ s : State,
       let due : Prop := s.stopped = false ∧ s.get SPL_STAT.STATE = spst.TAKEOVER ∧ s.spl.claimAt = none
       (¬ due → Completes .takeoverWakeDone s (· = s))
       ∧ (due → (∀ d, d < 260 → s.get (PWR_DOM.CUR d) = pst.ON ∧ s.flag (PWR_DOM.PADLATCH d) = false) → Completes .takeoverWakeDone s fun t =>
           ∃ u, (∀ off, u.rd off = s.rd off) ∧ u = { s with regs := u.regs }
             ∧ t = { writeClaim u with spl := { (writeClaim u).spl with claimAt := some (writeClaim u).time.now } }))
   ∧ (∀ (s : State) (ck : Checkpoint),
       let due : Prop := s.stopped = false ∧ s.get SPL_STAT.STATE = spst.TAKEOVER ∧ s.spl.loaded = none
         ∧ ∃ t, s.spl.claimAt = some t ∧ t + 25600 ≤ s.time.now
       let good (w : CommitWord) : Prop := w.valid = true ∧ w.crcOk = true
       (¬ due ∨ (¬ good ck.wordA ∧ ¬ good ck.wordB) → Completes (.claimWaitExpiry ck) s (· = s))
       ∧ (due → good ck.wordA → good ck.wordB → Completes (.claimWaitExpiry ck) s
           (· = loadCheckpoint s (max ck.wordA.epoch ck.wordB.epoch) ck))
       ∧ (due → good ck.wordA → ¬ good ck.wordB → Completes (.claimWaitExpiry ck) s (· = loadCheckpoint s ck.wordA.epoch ck))
       ∧ (due → ¬ good ck.wordA → good ck.wordB → Completes (.claimWaitExpiry ck) s (· = loadCheckpoint s ck.wordB.epoch ck)))
   ∧ (∀ s : State,
       let due : Prop := s.stopped = false ∧ s.get SPL_STAT.STATE = spst.TAKEOVER ∧ s.spl.rejoining = false ∧ s.flag SPL_BOLT.ALIASV = false
       let twin := s.get SPL_CFG.TWINMID
       let dests := (otherMembers s).filter (fun m => m ≠ twin ∧ s.boltBit SPL_BOLT.DEAD m = false ∧ s.boltBit SPL_BOLT.STANDBYS m = false)
       (s.spl.loaded = none ∨ ¬ due → Completes .checkpointLoadDone s (· = s))
       ∧ (∀ c, s.spl.loaded = some c → due → dests ≠ [] → Completes .checkpointLoadDone s
           (· = { s with net := s.net ++ [.rejoin s.mid twin c], spl := { s.spl with rejoining := true, awaiting := dests } }))
       ∧ (∀ c, s.spl.loaded = some c → due → dests = [] → Completes .checkpointLoadDone s fun t =>
           t = { s with regs := t.regs, net := s.net ++ [.rejoin s.mid twin c], spl := { s.spl with rejoining := false, awaiting := [], release := true } }
           ∧ t.flag SPL_BOLT.ALIASV = true ∧ t.get SPL_BOLT.ALIAS = twin))
   ∧ (∀ (s : State) (twin served epoch : Nat),
       let no : Prop := s.stopped = true ∨ s.role = 0 ∨ 16 ≤ twin ∨ 16 ≤ served
       let fit : Prop := s.boltBit SPL_BOLT.STANDBYS twin = true ∧ s.boltBit SPL_BOLT.DEAD served = true
       (no → Completes (.rejoin twin served epoch) s (· = s))
       ∧ (¬ no → ¬ fit → Completes (.rejoin twin served epoch) s (· = raise s src.splice .UC))
       ∧ (¬ no → fit → Completes (.rejoin twin served epoch) s fun t =>
           t = { s with regs := t.regs, net := s.net ++ [.rejoinAck s.mid], spl := { s.spl with routes := t.spl.routes } }
           ∧ t.boltBit SPL_BOLT.DEAD served = false ∧ t.boltBit SPL_BOLT.STANDBYS twin = false ∧ mget? t.spl.routes served = some twin
           ∧ ∀ off, off ≠ SPL_BOLT.off → t.rd off = s.rd off))
   ∧ ∀ (s : State) (m : Nat),
       let rest := s.spl.awaiting.filter (· ≠ m)
       (s.stopped = true ∨ s.spl.rejoining = false → Completes (.rejoinAck m) s (· = s))
       ∧ (s.stopped = false → s.spl.rejoining = true → rest ≠ [] → Completes (.rejoinAck m) s (· = { s with spl := { s.spl with awaiting := rest } }))
       ∧ (s.stopped = false → s.spl.rejoining = true → rest = [] → Completes (.rejoinAck m) s fun t =>
           t = { s with regs := t.regs, spl := { s.spl with awaiting := [], rejoining := false, release := true } }
           ∧ t.flag SPL_BOLT.ALIASV = true ∧ t.get SPL_BOLT.ALIAS = s.get SPL_CFG.TWINMID))
  ∧ ((∀ (s : State) (v : Word),
         let go : Prop := taken s SPL_LEAVE.off v % 2 = 1
         let u := hostWrite s SPL_LEAVE.off v
         (¬ go → Completes (.leave v) s (· = u))
         ∧ (go → u.role ≠ 2 ∨ (∃ c, c < u.cordCount ∧ u.assigned c = true) ∨ enabledVis u ≠ [] ∨ (∃ e, e < 8 ∧ ringsEnabled u e = true) →
             Completes (.leave v) s (· = u.putFlag SPL_LEAVE.REFUSED true))
         ∧ (go → u.role = 2 → (∀ c, c < u.cordCount → u.assigned c = false) → enabledVis u = [] → (∀ e, e < 8 → ringsEnabled u e = false) →
             Completes (.leave v) s (· = u.putFlag SPL_LEAVE.BUSY true)))
     ∧ (∀ s : State,
         let due : Prop := s.stopped = false ∧ s.flag SPL_LEAVE.BUSY = true
         (¬ due → Completes .leaveDrainDone s (· = s))
         ∧ (let r := recallRemote (returnRemote s)
            due → recalled r = false ∨ returned r = false → Completes .leaveDrainDone s (· = r))
         ∧ (due → s.l2 = [] → s.ev = [] → s.dir = [] → s.txns = [] → s.loom.claims = [] → s.loom.waiting = [] → Completes .leaveDrainDone s fun t =>
             t = { s with regs := t.regs, net := s.net ++ [.leave s.mid], spl := { s.spl with upLinks := [] } }
             ∧ t.flag SPL_LEAVE.BUSY = false ∧ t.flag SPL_LEAVE.DONE = true ∧ t.get PWR_MODSTAT.LIFE = life.QUIESCE))
     ∧ ∀ (s : State) (m : Nat),
         let no : Prop := s.stopped = true ∨ 16 ≤ m ∨ m = s.mid ∨ s.boltBit SPL_BOLT.DEAD m = true
         (no → Completes (.leaveMessage m) s (· = s))
         ∧ (¬ no → Completes (.leaveMessage m) s fun t => t = { s with regs := t.regs } ∧ t.boltBit SPL_BOLT.MEMBERS m = false
             ∧ (∀ k, k ≠ m → t.boltBit SPL_BOLT.MEMBERS k = s.boltBit SPL_BOLT.MEMBERS k) ∧ ∀ off, off ≠ SPL_BOLT.off → t.rd off = s.rd off))

/-- (1) R340 to R343: transitions of a domain. A request takes effect unless the module manages the domain itself or a transition has begun; an entry
begins unless a refuser of R343 holds; a step that misses its bound refuses the entry; at its end the domain is in its new state. A refusal is
recorded and counted, and the domain stays as it was. (2) R358: pads. A release with GO opens the latched pads of the I/O domains that it names and
that are ON; every other latch stays. -/
def Obligations.PowerDomainsChangeState : Prop :=
  ((∀ (s : State) (d : Nat) (v : Word),
       let blocked : Prop := managed s d = true ∨ ∃ x, s.transOf d = some x ∧ x.begun = true
       let dst := domTarget d (v.toNat % 4)
       (260 ≤ d → Completes (.domainRequest d v) s (· = s))
       ∧ (d < 260 → blocked → Completes (.domainRequest d v) s fun t => t = { s with regs := t.regs, locks := t.locks }
           ∧ t.get (PWR_DOM.REQ d) = s.get (PWR_DOM.REQ d) ∧ t.get (PWR_DOM.CUR d) = s.get (PWR_DOM.CUR d))
       ∧ (d < 260 → ¬ blocked → dst ≠ s.get (PWR_DOM.CUR d) ∨ s.transOf d ≠ none → Completes (.domainRequest d v) s fun t =>
           t = { s with regs := t.regs, locks := t.locks, pwr := { s.pwr with trans := t.pwr.trans } }
           ∧ t.transOf d = some { src := s.get (PWR_DOM.CUR d), dst := dst, begun := false, wake := false }
           ∧ t.flag (PWR_DOM.BUSY d) = true ∧ t.get (PWR_DOM.CUR d) = s.get (PWR_DOM.CUR d)))
   ∧ (∀ (s : State) (d code : Nat), d < 260 → code < 16 →
       let t := refuseEntry s d code
       t.get (PWR_DOM.LASTREF d) = code ∧ t.get PWR_REFLAST.REFUSER = code ∧ t.get PWR_REFLAST.DOMAIN = d ∧ t.flag PWR_REFLAST.VALID = true
       ∧ t.get (PWR_REFCNT.COUNT code) = min (s.get (PWR_REFCNT.COUNT code) + 1) (2 ^ 32 - 1) ∧ t.flag (PWR_DOM.BUSY d) = false
       ∧ t.transOf d = none ∧ t.get (PWR_DOM.CUR d) = s.get (PWR_DOM.CUR d)
       ∧ t = { s with regs := t.regs, pwr := { s.pwr with trans := t.pwr.trans } })
   ∧ (∀ (s : State) (d : Nat),
       (s.transOf d = none → Completes (.domainTransitionStart d) s (· = s) ∧ Completes (.domainDrainTimeout d) s (· = s)
         ∧ ∀ b, Completes (.domainTransitionDone d b) s (· = s))
       ∧ ∀ x, s.transOf d = some x →
         (x.begun = true → Completes (.domainTransitionStart d) s (· = s))
         ∧ (let now := if x.src = pst.ON then [ref.KNOT, ref.LOOM_PIN, ref.ENGINE_RING, ref.ROLE] else [ref.LOOM_PIN]
            let refusal := now.find? (refuserHolds s d)
            (x.begun = false → x.dst = pst.ON ∨ refusal = none → Completes (.domainTransitionStart d) s (· = s.setTrans d (some { x with begun := true })))
            ∧ ∀ code, x.begun = false → x.dst ≠ pst.ON → refusal = some code → Completes (.domainTransitionStart d) s (· = refuseEntry s d code))
         ∧ (let late := [ref.STORE_BUFFER, ref.CHANNEL_OP, ref.ORDER].find? (refuserHolds s d)
            let bounded : Prop := (144 ≤ d ∧ d < 196 ∨ 212 ≤ d ∧ d < 244) ∧ refuserHolds s d ref.ORDER = false
            let leaves : Prop := x.begun = true ∧ x.src = pst.ON ∧ x.dst ≠ pst.ON
            (¬ leaves → Completes (.domainDrainTimeout d) s (· = s))
            ∧ (leaves → bounded → Completes (.domainDrainTimeout d) s (· = refuseEntry s d ref.BUFFERS))
            ∧ (∀ code, leaves → ¬ bounded → late = some code → Completes (.domainDrainTimeout d) s (· = refuseEntry s d code))
            ∧ (leaves → ¬ bounded → late = none → Completes (.domainDrainTimeout d) s (· = s))
            ∧ ∀ b, let done := Instr.domainTransitionDone d b
              let low (u : State) : State := (setDom (latchPads u d x.dst) d x.dst).setTrans d none
              (x.begun = false → Completes done s (· = s))
              ∧ (x.begun = true → x.dst = pst.ON → Completes done s (· = dozeCheck ((returnOn s d x.src b).setTrans d none)))
              ∧ (leaves → late ≠ none → Completes done s (· = s))
              ∧ (leaves → late = none → (low (leaveOn s d)).flag (PWR_DOM.PINNED d) = false → Completes done s (· = dozeCheck (low (leaveOn s d))))
              ∧ (let u := if x.src = pst.OFF then restartDomain s d else if x.src = pst.RETAIN ∧ x.dst = pst.GATED ∧ b = false then sealFail s d else s
                 x.begun = true → x.src ≠ pst.ON → x.dst ≠ pst.ON → (low u).flag (PWR_DOM.PINNED d) = false →
                   Completes done s (· = dozeCheck (low u)))))
   ∧ ∀ (s : State) (d cur : Nat), d < 260 → cur < 4 →
       let t := dozeCheck ((setDom s d cur).setTrans d none)
       t.get (PWR_DOM.CUR d) = cur ∧ t.flag (PWR_DOM.BUSY d) = false ∧ t.transOf d = none)
  ∧ (∀ (s : State) (v : Word),
       let w := taken s PWR_PADREL.off v
       let u := hostWrite s PWR_PADREL.off v
       (w / 2 ^ 63 % 2 = 0 → Completes (.padRelease v) s (· = u))
       ∧ (w / 2 ^ 63 % 2 = 1 → Completes (.padRelease v) s fun t => t = { u with regs := t.regs, ports := t.ports }
           ∧ ∀ d, d < 260 → (t.flag (PWR_DOM.PADLATCH d) = true ↔ u.flag (PWR_DOM.PADLATCH d) = true
               ∧ ¬ (228 ≤ d ∧ (w / 2 ^ 9 % 2 = 1 ∨ w % 2 ^ 9 = d) ∧ u.get (PWR_DOM.CUR d) = pst.ON))))

/-- (1) R347, R348: the lifecycle RETAIN. The request is refused with an open knot, an open operation or a role; the entry is refused late with a store
buffer, an operation or an engine at work; then every domain is in RETAIN, or OFF where it was or REQ names it, and the standing regulator in low
power. The wake brings every domain back and the cords are released at the next boundary. (2) R351, R353, R412: clocks, rails and sensors. A frequency
error beyond 300 ppm is CE, a lost clock UF. A rail warning of an armed monitor is CE, is counted, and halves the tiles that it concerns for sixteen
pick boundaries, or for their time before the first pick. A tile sensor at 95 °C halves its tile, and any sensor at 100 °C is UF. A halving that has
run its time ends, for heat only with every sensor of the tile at 92 °C or less. -/
def Obligations.RetainAndSuppliesReact : Prop :=
  ((∀ (s : State) (v : Word),
       let u := hostWrite s PWR_MODCMD.off v
       let may : Prop := taken s PWR_MODCMD.off v % 4 = 1 ∧ u.flag PWR_MODCMD.BUSY = false ∧ (u.lifecycle = life.RUN ∨ u.lifecycle = life.DOZE)
       (¬ may → Completes (.lifecycleRetain v) s (· = u))
       ∧ (may → (∃ c, c < u.cordCount ∧ (u.cord c).knot ≠ none) → Completes (.lifecycleRetain v) s (· = refused u 0x1FF ref.KNOT))
       ∧ (may → (∀ c, c < u.cordCount → (u.cord c).knot = none) →
           (u.chs.cells ≠ [] → Completes (.lifecycleRetain v) s (· = refused u 0x1FF ref.CHANNEL_OP))
           ∧ (u.chs.cells = [] → u.role ≠ 0 → Completes (.lifecycleRetain v) s (· = refused u 0x1FF ref.ROLE))
           ∧ (u.chs.cells = [] → u.role = 0 → Completes (.lifecycleRetain v) s
               (· = { u.putFlag PWR_MODCMD.BUSY true with pwr := { u.pwr with retain := 1 } }))))
   ∧ (∀ s : State,
       let buffers : Prop := ∃ c, c < s.cordCount ∧ (s.cord c).sbuf ≠ []
       let rings : Prop := ∃ e, e < 8 ∧ engineBusy s e = true
       let stays (code : Nat) (t : State) : Prop :=
         t = { (refused s 0x1FF code).putFlag PWR_MODCMD.BUSY false with pwr := { (refused s 0x1FF code).pwr with retain := 3 } }
       (s.pwr.retain ≠ 2 → Completes .retainEntered s (· = s))
       ∧ (s.pwr.retain = 2 → buffers → Completes .retainEntered s (stays ref.STORE_BUFFER))
       ∧ (s.pwr.retain = 2 → ¬ buffers → s.chs.cells ≠ [] → Completes .retainEntered s (stays ref.CHANNEL_OP))
       ∧ (s.pwr.retain = 2 → ¬ buffers → s.chs.cells = [] → rings → Completes .retainEntered s (stays ref.ENGINE_RING))
       ∧ (s.pwr.retain = 2 → ¬ buffers → s.chs.cells = [] → ¬ rings → s.l2 = [] → s.warp = [] → s.ctls = [] → s.loom.waiting = [] → Completes .retainEntered s fun t =>
           t = { s with regs := t.regs, ports := t.ports, spl := t.spl, pwr := t.pwr } ∧ t.get PWR_MODSTAT.LIFE = life.RETAIN
           ∧ t.flag PWR_STBY.LP = true ∧ t.flag PWR_MODCMD.BUSY = false ∧ t.pwr.retained = true ∧ (∀ k, k < 4 → t.flag (PWR_RAIL.ARMED k) = false)
           ∧ ∀ d, d < 260 → mget t.pwr.before d 0 = s.get (PWR_DOM.CUR d)
             ∧ t.get (PWR_DOM.CUR d) = if s.get (PWR_DOM.REQ d) = pst.OFF ∨ s.get (PWR_DOM.CUR d) = pst.OFF then pst.OFF else pst.RETAIN))
   ∧ ∀ (s : State) (bad : List Nat),
       (s.lifecycle ≠ life.RETAIN → Completes (.retainWake bad) s (· = s))
       ∧ (s.lifecycle = life.RETAIN → bad = [] → s.pwr.stalled = [] → (∀ d, d < 260 → s.get (PWR_DOM.CUR d) = pst.RETAIN ∧ s.flag (PWR_DOM.LOST d) = false
             ∧ mget s.pwr.before d pst.ON = pst.ON) → Completes (.retainWake bad) s fun t =>
           t = { s with regs := t.regs, ports := t.ports, pwr := t.pwr } ∧ t.get PWR_MODSTAT.LIFE = life.RUN ∧ t.flag PWR_STBY.LP = false
           ∧ (∀ k, k < 4 → t.flag (PWR_RAIL.ARMED k) = true) ∧ t.pwr.retain = 3 ∧ t.pwr.retained = false ∧ ∀ d, d < 260 → t.get (PWR_DOM.CUR d) = pst.ON))
  ∧ ((∀ (s : State) (ppm : Int),
         (-300 ≤ ppm → ppm ≤ 300 → Completes (.rclkFreqError ppm) s (· = s))
         ∧ (ppm < -300 ∨ 300 < ppm → Completes (.rclkFreqError ppm) s (· = raise s src.clock .CE))
         ∧ ∀ pll, Completes (.clockLoss pll) s (· = raise s src.clock .UF))
     ∧ (∀ (s : State) (k : Nat),
         let r := raise ((s.bump (PWR_RAIL.WARNCNT k) 1).putFlag (PWR_RAIL.BELOW k) true) (src.rail k) .CE
         (10 ≤ k ∨ s.flag (PWR_RAIL.ARMED k) = false → Completes (.supplyWarn k) s (· = s))
         ∧ (k < 10 → s.flag (PWR_RAIL.ARMED k) = true → Completes (.supplyWarn k) s fun t =>
             t = { r with regs := t.regs, pwr := { r.pwr with railHalf := t.pwr.railHalf, railUntil := t.pwr.railUntil } }
             ∧ (∀ i, i < 4 → k = i ∨ 4 ≤ k → t.flag { off := PWR_CLK.off, lsb := 12 + i, w := 1 } = true
                 ∧ (r.time.loom = true → mget? t.pwr.railHalf i = some 16 ∧ mget? t.pwr.railUntil i = none)
                 ∧ (r.time.loom = false → mget? t.pwr.railUntil i = some (r.time.now + 204800)))
             ∧ ∀ i, i ≠ k → k < 4 → mget? t.pwr.railHalf i = mget? r.pwr.railHalf i ∧ mget? t.pwr.railUntil i = mget? r.pwr.railUntil i))
     ∧ (∀ (s : State) (k : Nat),
         let ended : Prop := mget? s.pwr.railHalf k = some 0
           ∨ (mget? s.pwr.railHalf k = none ∧ ∃ t, mget? s.pwr.railUntil k = some t ∧ t ≤ s.time.now)
         (4 ≤ k ∨ ¬ ended → Completes (.halvingExpiry k) s (· = s))
         ∧ (k < 4 → ended → Completes (.halvingExpiry k) s fun t => t = { s with regs := t.regs, pwr := { s.pwr with
               railHalf := mdel s.pwr.railHalf k, railUntil := mdel s.pwr.railUntil k } }
             ∧ t.flag { off := PWR_CLK.off, lsb := 12 + k, w := 1 } = false))
     ∧ (∀ (s : State) (n c : Nat),
         let u := ({ s with pwr := { s.pwr with sensors := mset s.pwr.sensors n c } } : State).put PWR_THERM.TMAX
           (min 125 ((mset s.pwr.sensors n c).foldl (fun m e => max m e.2) 0))
         let hot := raise u src.thermal .CE
         (c < 95 → Completes (.thermalThrottle n c) s (· = u))
         ∧ (95 ≤ c → 16 ≤ n → Completes (.thermalThrottle n c) s (· = hot))
         ∧ (95 ≤ c → n < 16 → Completes (.thermalThrottle n c) s fun t =>
             t = { hot with regs := t.regs, pwr := { hot.pwr with thermHalf := t.pwr.thermHalf, thermUntil := t.pwr.thermUntil } }
             ∧ t.flag { off := PWR_THERM.off, lsb := 8 + n / 4, w := 1 } = true
             ∧ (hot.time.loom = true → mget? t.pwr.thermHalf (n / 4) = some 16)
             ∧ (hot.time.loom = false → mget? t.pwr.thermUntil (n / 4) = some (hot.time.now + 204800))
             ∧ (hot.flag { off := PWR_THERM.off, lsb := 8 + n / 4, w := 1 } = true → t.get PWR_THERM.THRCNT = hot.get PWR_THERM.THRCNT)
             ∧ (hot.flag { off := PWR_THERM.off, lsb := 8 + n / 4, w := 1 } = false →
                 t.get PWR_THERM.THRCNT = min (hot.get PWR_THERM.THRCNT + 1) 65535))
         ∧ (c < 100 → Completes (.thermalTrip n c) s (· = u)) ∧ (100 ≤ c → Completes (.thermalTrip n c) s (· = raise u src.thermal .UF)))
     ∧ ∀ (s : State) (k : Nat),
         let ended : Prop := s.time.loom = false ∧ (∃ t, mget? s.pwr.thermUntil k = some t ∧ t ≤ s.time.now)
           ∧ ∀ i, i < 4 → mget s.pwr.sensors (4 * k + i) 0 ≤ 92
         (¬ ended → Completes (.thermalHalvingExpiry k) s (· = s))
         ∧ (ended → k < 4 → Completes (.thermalHalvingExpiry k) s fun t =>
             t = { s with regs := t.regs, pwr := { s.pwr with thermHalf := mdel s.pwr.thermHalf k, thermUntil := mdel s.pwr.thermUntil k } }
             ∧ t.flag { off := PWR_THERM.off, lsb := 8 + k, w := 1 } = false))

/-- (1) R353, R356, R360, R373: cold resets. Everything is at reset but memory, the fuses and, unless the standing domain is cleared too, PROF_SEL and
BOOT_CAUSE, which names the kind, the rail, whether a safe state ended and the profile before. A monitor that is not armed resets nothing. (2) R309,
R360, R361, R372: warm resets, by RESET_n low for 100 rclk or by command. The safe state of the FENCE kind ignores them; a reset is promoted where the
lifecycle state or the copy asks for it, or where the profile selected has another mode. One that takes effect loses caches, directories, cords and
what is under way, and its release writes BOOT_CAUSE. -/
def Obligations.ResetsKeepAndClear : Prop :=
  ((∀ s : State, s.boot.warm = none →
     let after (k rail : Nat) (gone : Bool) (t : State) : Prop :=
       t.get BOOT_CAUSE.KIND = k ∧ t.get BOOT_CAUSE.RAIL = rail ∧ t.flag BOOT_CAUSE.SAFE = s.stopped ∧ t.flag BOOT_CAUSE.RETLOST = gone
       ∧ t.get BOOT_CAUSE.PREVPROF = s.get MOD_MODE.PROFILE ∧ t.get BOOT_CAUSE.WARMCNT = (if gone then 0 else s.get BOOT_CAUSE.WARMCNT)
       ∧ t.rd PROF_SEL.off = (if gone then resetWord PROF_SEL.off else s.rd PROF_SEL.off)
       ∧ (∀ off, off ≠ BOOT_CAUSE.off → off ≠ PROF_SEL.off → t.rd off = resetWord off)
       ∧ t.mem = s.mem ∧ t.sec = { State.reset.sec with gen := s.sec.gen, salt := s.sec.salt, hash := s.sec.hash }
       ∧ t.cords = [] ∧ t.triads = [] ∧ t.l2 = [] ∧ t.warp = [] ∧ t.dir = [] ∧ t.loom = Loom.zero ∧ t.chs = Chs.zero ∧ t.keys = [] ∧ t.locks = []
       ∧ t.boot = Boot.zero ∧ t.fcu = State.reset.fcu ∧ t.spl = Spl.zero ∧ t.rpl = Rpl.zero ∧ t.pwr = Power.zero
       ∧ t.pins.fault = (k != kind.RAIL) ∧ t.pins.safe = true ∧ t.pins.fenceOut = true
     Completes .pwrgoodFall s (fun t => after kind.PWRGOOD 0 false t ∧ t.pins.pwrgood = false)
     ∧ Completes .standingBrownout s (after kind.STANDING 0 true)
     ∧ (∀ k, k < 10 → s.flag (PWR_RAIL.ARMED k) = true → Completes (.railReset k) s (after kind.RAIL k (k == 9)))
     ∧ (∀ v, taken s MOD_RST.off v = 2 → Completes (.modRstCold v) s (after kind.COLD 0 false))
     ∧ (s.i3c.addr ≠ none → Completes .i3cColdReset s (after kind.COLD 0 false)))
   ∧ ∀ s : State,
       Completes .powerOn s (fun t => t.get BOOT_CAUSE.KIND = kind.POWER_ON ∧ t.rd PROF_SEL.off = resetWord PROF_SEL.off
         ∧ (∀ off, off ≠ BOOT_CAUSE.off → t.rd off = resetWord off) ∧ t.pins.pwrgood = false ∧ t.mem = s.mem ∧ t.boot = Boot.zero ∧ t.chs = Chs.zero)
       ∧ (∀ k, 10 ≤ k ∨ s.flag (PWR_RAIL.ARMED k) = false → Completes (.railReset k) s (· = s))
       ∧ (∀ v, taken s MOD_RST.off v ≠ 2 → Completes (.modRstCold v) s (· = s)) ∧ (s.i3c.addr = none → Completes .i3cColdReset s (· = s)))
  ∧ ((∀ (s : State) (r : ResetInputs),
         let ask (x : State) (k : Nat) (held : Bool) : State → Prop := fun t =>
           (warmCan x = false ∨ x.fcu.safe = some .fence → t = x)
           ∧ (warmCan x = true → x.fcu.safe ≠ some .fence → promotes x r = true → t = coldNow x kind.PROMOTED 0)
           ∧ (warmCan x = true → x.fcu.safe ≠ some .fence → promotes x r = false →
               t = if held then warmStart plainWrite x k r true else warmRelease (warmStart plainWrite x k r false))
         let low : State := { s with pins := { s.pins with resetN := false } }
         (∀ n, n < 100 → Completes (.warmReset n r) s (· = s))
         ∧ (∀ n, 100 ≤ n → (∀ w, s.boot.warm = some w → w.held = false) → Completes (.warmReset n r) s (ask low kind.WARM_PIN true))
         ∧ (∀ n w, 100 ≤ n → s.boot.warm = some w → w.held = true → Completes (.warmReset n r) s (· = low))
         ∧ (∀ v, taken s MOD_RST.off v = 1 → Completes (.modRstWarm v r) s (ask s kind.WARM false))
         ∧ (∀ v, taken s MOD_RST.off v ≠ 1 → Completes (.modRstWarm v r) s (· = s))
         ∧ (s.i3c.addr ≠ none → Completes (.i3cWarmReset r) s (ask s kind.WARM false))
         ∧ (s.i3c.addr = none → Completes (.i3cWarmReset r) s (· = s)))
     ∧ (∀ (s : State) (k : Nat) (r : ResetInputs) (held : Bool),
         let t := warmStart plainWrite s k r held
         t.cords = [] ∧ t.triads = [] ∧ t.tlb = [] ∧ t.l2 = [] ∧ t.ev = [] ∧ t.warp = [] ∧ t.dir = [] ∧ t.txns = [] ∧ t.net = [] ∧ t.chs.shuts = []
           ∧ t.chs.dc = [] ∧ t.fcu.safe = none ∧ t.fcu.windows = [] ∧ t.boot.stage = .profile ∧ t.time.loom = false ∧ t.rpl = Rpl.zero ∧ t.sec.chal = [])
     ∧ ∀ s : State,
         let u : State := { s with pins := { s.pins with resetN := true } }
         ((∀ w, s.boot.warm = some w → w.held = false) → Completes .warmResetRelease s (· = u))
         ∧ ∀ w c, s.boot.stage = .profile → s.boot.warm = some w → w.held = true → s.boot.copy = some c →
           let p := if s.flag PROF_SEL.EN then s.get PROF_SEL.PROFILE else w.inp.prof.toNat
           (recOf c recType.PROFILE p = none ∨ modeOf c p ≠ w.mode → Completes .warmResetRelease s (· = coldReset u kind.PROMOTED 0 w.prof w.safe))
           ∧ (recOf c recType.PROFILE p ≠ none → modeOf c p = w.mode → w.kind < 16 → w.prof < 4 → Completes .warmResetRelease s fun t =>
               t.get BOOT_CAUSE.KIND = w.kind ∧ t.get BOOT_CAUSE.PROF = p ∧ t.get BOOT_CAUSE.PREVPROF = w.prof
               ∧ t.get BOOT_CAUSE.WARMCNT = min (s.get BOOT_CAUSE.WARMCNT + 1) 65535 ∧ t.get PROF_SEL.PINS = w.inp.prof.toNat
               ∧ t.boot = { s.boot with warm := some { w with held := false } }
               ∧ (s.flag PROF_SEL.EN = true → s.flag PROF_SEL.ONCE = true → t.flag PROF_SEL.EN = false)
               ∧ t = { s with regs := t.regs, time := { s.time with resetAt := s.time.now }, boot := t.boot
                              pins := { s.pins with resetN := true, prof := w.inp.prof } }))

/-- (1) R363, R369, R372, R409: the cold boot. PROF is sampled and the profile chosen, at once or after the rails have settled; the first copy that passes
is used, and with none the module stays with FAULT_n low; then the profile, the self-test, training, Fill, the invalidation and HOSTCODE follow. (2)
R314, R338, R364, R365: the boot cord's release. It waits for the boot, and on a worker or a standby twin for the admission; a claim word of another
module keeps it back for good, with UC. The cord starts at level H with the values of the HOSTCODE record, and the module enters RUN, or FACTORY where
that access is open. (3) R373: I3C. ENTDAA gives the target its address once. A read returns the word of a register that I3C reaches and that answers
in the lifecycle state, and zero of any other; a write of any other is ignored. -/
def Obligations.BootStagesInOrder : Prop :=
  ((∀ (s : State) (b : BootInputs),
       let u : State := { s with
         pins := { s.pins with pwrgood := true, prof := b.prof, fault := true, safe := true }
         boot := { s.boot with inputs := some b }, time := { s.time with resetAt := s.time.now } }
       (s.boot.stage ≠ .off → Completes (.coldBoot b) s (· = s))
       ∧ (s.boot.stage = .off → b.railLow = true → Completes (.coldBoot b) s (· = { u with boot := { u.boot with stage := .railWait } }))
       ∧ (s.boot.stage = .off → b.railLow = false → Completes (.coldBoot b) s fun t =>
           t = { u with regs := t.regs, boot := { u.boot with stage := .image } } ∧ t.get PROF_SEL.PINS = b.prof.toNat
           ∧ t.get BOOT_CAUSE.PROF = (if s.flag PROF_SEL.EN then s.get PROF_SEL.PROFILE else b.prof.toNat)
           ∧ t.flag BOOT_CAUSE.BYSEL = s.flag PROF_SEL.EN))
   ∧ (∀ s : State,
       (s.boot.stage ≠ .railWait ∨ s.boot.inputs = none → Completes .railWaitDone s (· = s))
       ∧ ∀ b, s.boot.stage = .railWait → s.boot.inputs = some b → Completes .railWaitDone s
           (· = { takeProfile s b.prof with boot := { (takeProfile s b.prof).boot with stage := .image } }))
   ∧ ∀ (s : State) (r : StageResult),
       let go : Prop := s.stopped = false ∧ ∀ w, s.boot.warm = some w → w.held = false
       let done := Instr.bootStageDone r
       (¬ go → Completes done s (· = s))
       ∧ (s.boot.stage ∈ [Stage.off, .railWait, .ready, .released, .stuck] → Completes done s (· = s))
       ∧ (go → s.boot.stage = .image → ∀ b, s.boot.inputs = some b →
           let a := copyReason b.copyA (s.get BOOT_CAUSE.PROF)
           let c := copyReason b.copyB (s.get BOOT_CAUSE.PROF)
           (a = 0 → Completes done s fun t => t = { s with regs := t.regs, boot := { s.boot with copy := some b.copyA, stage := .profile } }
             ∧ t.get MOD_BOOTSTAT.COPY = 1)
           ∧ (a ≠ 0 → c = 0 → Completes done s fun t => t = { s with regs := t.regs, boot := { s.boot with copy := some b.copyB, stage := .profile } }
             ∧ t.get MOD_BOOTSTAT.COPY = 2 ∧ t.get MOD_BOOTSTAT.AFAIL = a)
           ∧ (a ≠ 0 → c ≠ 0 → Completes done s fun t =>
               t = { s with regs := t.regs, boot := { s.boot with stage := .stuck }, pins := { s.pins with fault := false } }
               ∧ t.get MOD_BOOTSTAT.AFAIL = a ∧ t.get MOD_BOOTSTAT.BFAIL = c))
       ∧ (go → s.boot.stage = .profile → Completes done s (· = bootProfile s))
       ∧ (go → s.boot.stage = .selfTest → Completes done s fun t =>
           let x := (List.range 48).foldl (fun x n => selfTestDone x n []) s
           t = { x with boot := { x.boot with stage := if x.boot.warm ≠ none ∧ filled x = true then .invalidate else .training } })
       ∧ (go → s.boot.stage = .training → Completes done s fun t => t.boot.stage = .fill ∧ t.get PWR_MODSTAT.LIFE = life.FILL)
       ∧ (go → s.boot.stage = .fill → filled s = false → Completes done s (· = s))
       ∧ (go → s.boot.stage = .fill → filled s = true → Completes done s fun t =>
           t = { s with regs := t.regs, free := s.free + 1, boot := { s.boot with stage := .invalidate } } ∧ ∀ h, h < 32 → t.flag (MEM_FILLSTAT.DONE h) = true)
       ∧ (go → s.boot.stage = .invalidate → Completes done s (· = { s with boot := { s.boot with stage := .hostcode } }))
       ∧ (go → s.boot.stage = .hostcode → Completes done s fun t => t.boot.stage = .ready
           ∧ ∀ n k, n < Config.heddleTables → k < 16 → t.rd (LOOM_HEDA.off n k) = t.rd (LOOM_HEDS.off n k)))
  ∧ (∀ s : State,
       let due : Prop := s.boot.stage = .ready ∧ s.stopped = false ∧ awaitsAdmission s = false ∧ s.time.loom = false
       let x := loomStart s 0
       (¬ due → Completes .bootCordRelease s (· = s))
       ∧ (due → claimTaken s = true → Completes .bootCordRelease s fun t =>
           t = { raise (s.put SPL_STAT.STATE spst.FENCED) src.splice .UC with
                 boot := { (raise (s.put SPL_STAT.STATE spst.FENCED) src.splice .UC).boot with stage := .released } })
       ∧ (due → claimTaken s = false → s.role = 0 → x.flag SPL_CFG.SPLICED = false → ∀ c k rec_, bootCord x = some c → x.boot.copy = some k →
           recOf k recType.HOSTCODE 0 = some rec_ → Completes .bootCordRelease s fun t => ∃ u, t = dozeCheck (applyPins u)
             ∧ u.core (.cord c) = { Core.zero with
                 lvl := .H, run := .running, pc := rec_.body.getD 1 0
                 stkH := { sp := rec_.body.getD 2 0, sb := rec_.body.getD 2 0, sl := rec_.body.getD 3 0 }
                 trH := { TrapRegs.zero with tvec := rec_.body.getD 4 0 } }
             ∧ u.get MOD_BOOTSTAT.CORD = c % 128 ∧ u.boot.stage = .released
             ∧ u.get PWR_MODSTAT.LIFE = (if x.get SEC_STAT.ACCESS = 2 then life.FACTORY else life.RUN)
             ∧ u = { x with regs := u.regs, cords := u.cords, boot := u.boot }))
  ∧ (∀ s : State,
       let awake : Prop := s.lifecycle ≠ life.RETAIN ∧ s.lifecycle ≠ life.STANDBY ∧ ¬ (s.lifecycle = life.BOOT ∧ beforeProfile s = true)
       let answers (off : Nat) : Prop := i3cReaches off = true ∧ (off ∈ [PROF_SEL.off, BOOT_CAUSE.off, PWR_WAKE.off] ∨ awake)
       (∀ a, s.i3c.addr = none → Completes (.i3cEntdaa a) s (· = { s with i3c := { s.i3c with addr := some a } }))
       ∧ (∀ a, s.i3c.addr ≠ none → Completes (.i3cEntdaa a) s (· = s))
       ∧ (∀ off, s.i3c.addr = none → Completes (.i3cRead off) s (· = s) ∧ ∀ v, Completes (.i3cWrite off v) s (· = s))
       ∧ (s.i3c.addr ≠ none → ∀ off,
           let r : State := { s with i3c := { s.i3c with read := some off } }
           (answers off → Completes (.i3cRead off) s (· = hostRead r off))
           ∧ (¬ answers off → Completes (.i3cRead off) s (· = { r with resp := [0] }) ∧ ∀ v, Completes (.i3cWrite off v) s (· = s))
           ∧ (answers off → off ≠ SEC_CMD.off → ∀ v, Completes (.i3cWrite off v) s (· = plainWrite s { level := .H, tenant := 0 } off v))
           ∧ (answers SEC_CMD.off → ∀ v, Completes (.i3cWrite SEC_CMD.off v) s
               (· = secCommand (hostWrite s SEC_CMD.off v) (taken s SEC_CMD.off v) false))))

/-- R374 to R379: access. A command ends with its RESULT and leaves SEC_AUTH zero; within 1 s of a mismatch every one ends BAD_AUTH. OWNER_OPEN needs the
password, and FACTORY the signature over the challenge, which it uses up; both zeroize before access opens, and end with TENANTS_ACTIVE while a tenant
is active. -/
def Obligations.AccessCommandsAuthenticate : Prop :=
  (∀ (s : State) (n : Nat), let t := secEnd s n
      t = { s with regs := t.regs } ∧ t.get SEC_STAT.RESULT = n % 8 ∧ ∀ j, j < 12 → t.rd (SEC_AUTH.off j) = 0)
  ∧ (∀ s : State, ∀ i ∈ [Instr.ownerOpen, .challenge, .factory, .seal, .setPassword],
      (s.flag SEC_STAT.BUSY = true → Completes i s (· = s))
      ∧ (s.flag SEC_STAT.BUSY = false → s.sec.delayed = true → Completes i s (· = secEnd s secres.BAD_AUTH)))
  ∧ (∀ s : State, s.flag SEC_STAT.BUSY = false → s.sec.delayed = false →
      let opens (u : State) (go : State → State) (t : State) : Prop :=
        (tenantsActive u = true → t = secEnd u secres.TENANTS_ACTIVE) ∧ (tenantsActive u = false → t = secEnd (go (zeroize u)) secres.OK)
      let right : Prop := Config.sha384 (bytesOf s.sec.salt 16 ++ bytesOfWords (authWords s 4)) = s.sec.hash
      (s.sec.gen = 0 → Completes .ownerOpen s (· = secEnd s secres.NO_PASSWORD))
      ∧ (s.sec.gen ≠ 0 → s.flag SEC_STAT.LOCKOUT = true → Completes .ownerOpen s (· = secEnd s secres.LOCKED_OUT))
      ∧ (s.sec.gen ≠ 0 → s.flag SEC_STAT.LOCKOUT = false → ¬ right → Completes .ownerOpen s fun t => ∃ u, t = secEnd u secres.BAD_AUTH
          ∧ u = { s with regs := u.regs, sec := { s.sec with delayed := true } } ∧ u.get SEC_STAT.FAILS = min (s.get SEC_STAT.FAILS + 1) 16
          ∧ (u.flag SEC_STAT.LOCKOUT = true ↔ 15 ≤ s.get SEC_STAT.FAILS))
      ∧ (s.sec.gen ≠ 0 → s.flag SEC_STAT.LOCKOUT = false → right → Completes .ownerOpen s
          (opens s (fun x => if x.get SEC_STAT.ACCESS = 2 then x else x.put SEC_STAT.ACCESS 1)))
      ∧ Completes .challenge s (fun t => t.sec.chal = (List.range 4).map (fun i => Config.freeWord (s.free + i)) ∧ t.flag SEC_STAT.CHALV = true
          ∧ (∀ j, j < 4 → BitVec.ofNat 64 (t.rd (SEC_CHAL.off j)) = Config.freeWord (s.free + j)) ∧ t.get SEC_STAT.RESULT = 0
          ∧ t = { s with regs := t.regs, free := s.free + 4, sec := { s.sec with chal := t.sec.chal } })
      ∧ (s.flag SEC_STAT.CHALV = false → Completes .factory s (· = secEnd s secres.NO_CHALLENGE))
      ∧ (s.flag SEC_STAT.CHALV = true →
          let good := Config.ecdsaP384 Config.debugKey s.sec.chal (authWords s 12)
          let u := challengeGone s
          (good = false → Completes .factory s (· = secEnd u secres.BAD_AUTH))
          ∧ (good = true → Completes .factory s (opens u (fun x => (x.put SEC_STAT.ACCESS 2).put PWR_MODSTAT.LIFE life.FACTORY))))
      ∧ (s.get SEC_STAT.ACCESS = 1 → Completes .seal s (· = secEnd (s.put SEC_STAT.ACCESS 0) secres.OK))
      ∧ (s.get SEC_STAT.ACCESS ≠ 1 → Completes .seal s (· = secEnd s secres.WRONG_STATE))
      ∧ (s.sec.gen = 4 ∨ (s.sec.gen ≠ 0 ∧ s.get SEC_STAT.ACCESS ≠ 1) → Completes .setPassword s (· = secEnd s secres.WRONG_STATE))
      ∧ (s.sec.gen ≠ 4 → s.sec.gen = 0 ∨ s.get SEC_STAT.ACCESS = 1 → Completes .setPassword s fun t => t.get SEC_STAT.RESULT = 0
          ∧ t = { s with regs := t.regs, free := s.free + 2, sec := { s.sec with gen := s.sec.gen + 1, salt := t.sec.salt, hash := t.sec.hash } }
          ∧ t.sec.salt = (Config.freeWord s.free).toNat + (Config.freeWord (s.free + 1)).toNat * 2 ^ 64
          ∧ t.sec.hash = Config.sha384 (bytesOf t.sec.salt 16 ++ bytesOfWords (authWords s 4))))
  ∧ (∀ s : State, let t := zeroize s
      t.flag SEC_STAT.REPROV = true ∧ t.eng.keyVer = [] ∧ t.chs.dc = [] ∧ (∀ e ∈ t.keys, e.1 = 0)
        ∧ ∀ h r, h < 32 → r < 64 → t.get (MEM_RGN_LO.OWNER h r) ≠ 0 → t.flag (MEM_RGN_LO.EN h r) = false)
  ∧ ∀ s : State,
      (s.flag SEC_STAT.CHALV = false → Completes .challengeExpiry s (· = s))
      ∧ (s.flag SEC_STAT.CHALV = true → Completes .challengeExpiry s fun t => t = { s with regs := t.regs, sec := { s.sec with chal := [] } }
          ∧ t.flag SEC_STAT.CHALV = false ∧ ∀ j, j < 4 → t.rd (SEC_CHAL.off j) = 0)
      ∧ Completes .authDelayExpiry s (· = { s with sec := { s.sec with delayed := false } })

/-- (1) R387, R389: RPL_CMD. A write whose OP is not the row's is none of it, and one while BUSY reads 1 does nothing. RECORD in IDLE is refused with
NOT_QUIET while a recorded tenant's VI or ring works; RELEASE in HELD, STOP from RECORDING on and REPLAY in IDLE wait, like it, for their pick
boundary with BUSY 1. REPLAY is refused with NO_START or CONFIG. At its boundary RELEASE stages START and lets the held cords go. (2) R391, R392:
divergence. The first is written to RPL_DIV, RPL_DIVEXP and RPL_DIVOBS with CE on the record and replay source; a later one is counted in DIVCNT, and
replaces the report when it is a lower cord's of the same pick. (3) R390, R391: the inputs of a replay. The first record of the journal whose time or
retire count has come is applied; a GAP at its head is a divergence that ends the replay. An EVENT or a SLIP at another retire count than the recorded
one is an ORDER divergence; a RECOVERY pauses its cord for the recorded time; a COMPLETION of no open operation is an INPUT divergence. -/
def Obligations.RecordAndReplayCheckRuns : Prop :=
  ((∀ (s : State) (v : Word),
     let u := hostWrite s RPL_CMD.off v
     let op := v.toNat % 8
     let st := s.get RPL_STAT.STATE
     let waits (x : State) (w : RplWait) (t : State) : Prop :=
       t = { x with regs := t.regs, rpl := { x.rpl with wait := w, waitAt := x.time.now } } ∧ t.flag RPL_CMD.BUSY = true
       ∧ ∀ off, off ≠ RPL_CMD.off → t.rd off = x.rd off
     let rows : List (Instr × Nat) := [(.record v, 1), (.release v, 2), (.stop v, 3), (.replay v, 4)]
     (∀ r ∈ rows, op ≠ r.2 → Completes r.1 s (· = s))
     ∧ (∀ r ∈ rows, op = r.2 → s.flag RPL_CMD.BUSY = true → Completes r.1 s (· = u))
     ∧ (taken s RPL_CMD.off v % 8 = op → s.flag RPL_CMD.BUSY = false →
       (op = 1 → st ≠ 0 → Completes (.record v) s (· = u))
       ∧ (op = 1 → st = 0 → notQuiet u = true → Completes (.record v) s (· = u.put RPL_STAT.REASON 2))
       ∧ (op = 1 → st = 0 → notQuiet u = false → Completes (.record v) s (waits u .record))
       ∧ (op = 2 → st ≠ 1 → Completes (.release v) s (· = u))
       ∧ (op = 2 → st = 1 → Completes (.release v) s (waits u .release))
       ∧ (op = 3 → st < 2 → Completes (.stop v) s (· = u))
       ∧ (op = 3 → 2 ≤ st → Completes (.stop v) s (waits u .stop))
       ∧ (op = 4 → st ≠ 0 → Completes (.replay v) s (· = u))
       ∧ (op = 4 → st = 0 → ∀ x rs, rplRecords u (rplTail u) (rplUsed u / 32) (rplUsed u / 32) = (x, rs) →
           ((∀ r, rs.head? = some r → jr.typ r ≠ rplType.START) → EndsOrWaits (.replay v) s (x.put RPL_STAT.REASON 4))
           ∧ ∀ r, rs.head? = some r → jr.typ r = rplType.START →
             (configDigest x (startCords r) ≠ jr.value r → EndsOrWaits (.replay v) s (x.put RPL_STAT.REASON 1))
             ∧ (configDigest x (startCords r) = jr.value r → ∃ t, EndsOrWaits (.replay v) s t
                 ∧ waits { x.wr RPL_CFG.off (jr.body r 2 % 2 ^ 13) with rpl := { x.rpl with cords := startCords r, journal := rs } } .replay t))))
   ∧ ∀ s : State, s.rpl.wait = .release →
       let u : State := { s.putFlag RPL_CMD.BUSY false with rpl := { s.rpl with wait := .none } }
       let t := rplCommand s
       t = { s with regs := t.regs, cords := t.cords, rpl := t.rpl }
       ∧ t.rpl = { s.rpl with wait := .none, staged := s.rpl.staged ++ [startRecord u], lend := [] }
       ∧ t.get RPL_STAT.STATE = rst.RECORDING ∧ t.get RPL_STAT.REASON = 0 ∧ t.flag RPL_CMD.BUSY = false
       ∧ ∀ c ∈ s.rpl.cords, (s.cord c).run = .held → triadRuns s (s.triadOf c) = true → (t.cord c).run = .running ∧ (t.cord c).digest = 0)
  ∧ (∀ (s : State) (kind c exp obs : Nat), kind < 16 → c < 128 → exp < 2 ^ 64 → obs < 2 ^ 64 →
       let written (x r : State) : Prop :=
         r = { x with regs := r.regs, rpl := { x.rpl with divCord := some c, divNow := true } }
         ∧ r.flag RPL_DIV.VALID = true ∧ r.get RPL_DIV.KIND = kind ∧ r.get RPL_DIV.CORD = c ∧ r.get RPL_DIV.PICK = s.replayPick % 2 ^ 48
         ∧ r.get RPL_DIVEXP.VALUE = exp ∧ r.get RPL_DIVOBS.VALUE = obs
         ∧ ∀ off, off ∉ [RPL_DIV.off, RPL_DIVEXP.off, RPL_DIVOBS.off] → r.rd off = x.rd off
       (s.rpl.divCord = none → ∃ r, written s r ∧ diverge s kind c exp obs = raise r src.record .CE)
       ∧ ∀ d, s.rpl.divCord = some d →
           let n := s.put RPL_STAT.DIVCNT (min (s.get RPL_STAT.DIVCNT + 1) 65535)
           (¬ (s.rpl.divNow = true ∧ c < d) → diverge s kind c exp obs = n)
           ∧ (s.rpl.divNow = true → c < d → written n (diverge s kind c exp obs)))
  ∧ ((∀ s : State,
       let go : Prop := s.stopped = false ∧ s.replaying = true
       (¬ go ∨ s.rpl.journal = [] → Completes .replayApplyInput s (· = s))
       ∧ (go → ∀ g rest, s.rpl.journal = g :: rest →
         (jr.typ g = rplType.GAP → Completes .replayApplyInput s fun t =>
           let d := diverge s dvk.GAP 0x7F 0 (jr.value g)
           t = { d with rpl := { d.rpl with journal := rest, gap := true } })
         ∧ (jr.typ g ≠ rplType.GAP → (∀ r ∈ s.rpl.journal, recordDue s r = false) → Completes .replayApplyInput s (· = s))
         ∧ (jr.typ g ≠ rplType.GAP → ∀ before r later, s.rpl.journal = before ++ r :: later → (∀ x ∈ before, recordDue s x = false) →
             recordDue s r = true → EndsOrWaits .replayApplyInput s (applyRecord s r))))
     ∧ ∀ (s : State) (r : List Word),
         let gone : State := { s with rpl := { s.rpl with journal := s.rpl.journal.erase r } }
         let n := (s.cord (jr.cord r)).retire.toNat
         let checked : State := if jr.retire r = n then gone else diverge gone dvk.ORDER (jr.cord r) (jr.retire r) n
         (jr.typ r = rplType.EVENT → applyRecord s r
           = evqQueue checked (jr.tenant r) (jr.cord r) (BitVec.ofNat 64 (jr.value r)) (BitVec.ofNat 64 (jr.body r 0)))
         ∧ (jr.typ r = rplType.SLIP → jr.retire r = n → ∀ kn, (s.cord (jr.cord r)).knot = some kn →
             let t := applyRecord s r
             (t.cord (jr.cord r)).knot = none ∧ (t.cord (jr.cord r)).pc = kn.handler ∧ (∀ c, c ≠ jr.cord r → t.cord c = s.cord c)
             ∧ t = { gone with cords := t.cords })
         ∧ (jr.typ r = rplType.RECOVERY → jr.retire r = n → ∃ t, applyRecord s r = t ∧ t = { gone with rpl := t.rpl }
             ∧ mget? t.rpl.paused (jr.cord r) = some (s.time.now + jr.value r % 2 ^ 32)
             ∧ t.rpl = { gone.rpl with paused := t.rpl.paused } ∧ ∀ c, c ≠ jr.cord r → mget? t.rpl.paused c = mget? s.rpl.paused c)
         ∧ (jr.typ r = rplType.COMPLETION →
             (∀ e ∈ s.chs.cells, ¬ (e.2.seq = jr.body r 1 % 2 ^ 48 ∧ e.2.orb = jr.body r 2 ∧ e.2.subch = jr.body r 0 / 2 ^ 16 % 2 ^ 16)) →
               applyRecord s r = diverge gone dvk.INPUT 0x7F (jr.body r 1 % 2 ^ 48) 0))

/-- (1) R45, R46, R50: a comparison. In the safe state, in Split execution, and while the cord or the triad cannot run there is none. Agreement goes
forward and ends a retry, which is counted with CE. One strand out of three starts a resynchronisation: its L1s are empty and the majority's result
goes forward. Otherwise the group is retried twice; then the cord halts, and the suspect strand is fenced or the pair fails. (2) R48, R418: a cord
halts: HALT is set, its checkpoint goes to its context slot unless the copy fails its ECC, CTXV tells whether the save is complete, and UC is
reported. A save that its timeout finds incomplete leaves CTXV at 0 and is reported with the address. (3) R46, R48, R49: the majority strands stop
once their last group has retired (how many they still retire: log 43): an open knot slips, the reservation goes and the cord pauses. At the restart
the strand is counted, with the minute's number of its resynchronisations, and the cord goes on. A strand over RSLIM is fenced and the triad
DEGRADED; a checkpoint copy that fails its ECC halts the cord. -/
def Obligations.VotesRetryResyncOrHalt : Prop :=
  (∀ (s : State) (t : Nat) (cmp : Comparison),
     let three : Prop := s.get (TRI_STAT.TSTATE t) = tst.VOTED3
     let compared : Prop := t < 48 ∧ s.voted = true ∧ (three ∨ s.get (TRI_STAT.TSTATE t) = tst.DEGRADED) ∧ (s.cord t).run.live = true
       ∧ (s.cord t).paused = false ∧ s.fcu.safe = none
     let alone : Prop := three ∧ (s.triad t).resync = none
     let split : Prop := cmp.result = .noMajority ∨ (¬ alone ∧ ∃ x, cmp.result = .oneOut x)
     let old := mget (s.triad t).detected 0 []
     let seen := old ++ cmp.detected.filter (fun x => x < 3 && !old.contains x)
     let kind := cmpCode cmp.kind
     let i := Instr.retireGroupVote t cmp
     (¬ compared → Completes i s (· = s))
     ∧ (compared → cmp.result = .agree → retriesNow s t 0 = 0 → Completes i s (· = s))
     ∧ (compared → cmp.result = .agree → retriesNow s t 0 ≠ 0 → Completes i s fun u => ∃ r, u = raise r (src.triad t) .CE
         ∧ r = { s with regs := r.regs, triads := r.triads }
         ∧ r.triad t = { s.triad t with retries := mdel (s.triad t).retries 0, detected := mdel (s.triad t).detected 0 }
         ∧ (∀ j, j ≠ t → r.triad j = s.triad j)
         ∧ r.get (TRI_CNT.RETRY t) = min (s.get (TRI_CNT.RETRY t) + 1) 255
         ∧ (mget (s.triad t).kinds 0 0 < 4 → r.get (TRI_LASTDIS.RETIRE t) = (s.cord t).retire.toNat % 2 ^ 32
             ∧ r.get (TRI_LASTDIS.KIND t) = mget (s.triad t).kinds 0 0 ∧ r.get (TRI_LASTDIS.OUTCOME t) = 1 ∧ r.get (TRI_LASTDIS.VALID t) = 1))
     ∧ (compared → alone → ∀ x, 3 ≤ x → cmp.result = .oneOut x → Completes i s (· = s))
     ∧ (compared → alone → ∀ x, x < 3 → cmp.result = .oneOut x → retriesNow s t 0 = 0 → Completes i s fun u => ∃ d r,
         d = { s with regs := d.regs } ∧ (∀ off, off ≠ TRI_LASTDIS.off t → d.rd off = s.rd off)
         ∧ d.rd (TRI_LASTDIS.off t) = (s.cord t).retire.toNat % 2 ^ 32 + 2 ^ (32 + x) + kind * 2 ^ 35 + 2 ^ 63
         ∧ r = raise d (dom.strand t x) .CE
         ∧ u = { r with l2 := u.l2, triads := u.triads, loom := { r.loom with recover := t :: r.loom.recover } }
         ∧ u.triad t = { r.triad t with resync := some { strand := x, opened := r.time.now, left := if kind = 0 then 2 else 1 } }
         ∧ ∀ e ∈ u.l2, e.1 / 2 ^ 44 = t → e.2.l1d.getLsbD x = false ∧ e.2.l1i.getLsbD x = false)
     ∧ (compared → split → retriesNow s t 0 < 2 → (s.triad t).copyBad 0 = false → Completes i s fun u =>
         u = { s with cords := u.cords, triads := u.triads } ∧ retriesNow u t 0 = retriesNow s t 0 + 1
         ∧ mget (u.triad t).detected 0 [] = seen ∧ mget (u.triad t).kinds 0 0 = kind
         ∧ u.cord t = { s.cord t with resv := none } ∧ (∀ c, c ≠ t → u.cord c = s.cord c) ∧ ∀ j, j ≠ t → u.triad j = s.triad j)
     ∧ (compared → split → retriesNow s t 0 < 2 → (s.triad t).copyBad 0 = true → Completes i s
         (· = haltCord (s.setTriad t { s.triad t with
            detected := mset (s.triad t).detected 0 seen, kinds := mset (s.triad t).kinds 0 kind }) t 0))
     ∧ (compared → split → 2 ≤ retriesNow s t 0 → Completes i s fun u => ∃ d h, d = { s with regs := d.regs }
         ∧ d.get (TRI_CNT.FAILRETRY t) = min (s.get (TRI_CNT.FAILRETRY t) + 1) 255 ∧ d.get (TRI_LASTDIS.OUTCOME t) = 2
         ∧ h = (haltCord d t 0).modTriad t (fun x => { x with detected := mdel x.detected 0, retries := mdel x.retries 0 })
         ∧ (three → u = { h with regs := u.regs } ∧ u.get (TRI_STAT.TSTATE t) = tst.DEGRADED
             ∧ u.flag (TRI_STAT.fenced t (suspect h t seen)) = true ∧ u.get (PWR_DOM.CUR (dom.strand t (suspect h t seen))) = pst.OFF)
         ∧ (¬ three → u = h.put (TRI_STAT.TSTATE t) tst.FAILED)))
  ∧ ((∀ (s : State) (t k : Nat), let c := s.cordOf t k
       (s.cord c).knot = none →
         let w := (s.putFlag (TRI_STAT.halt t k) true).setCord c { s.cord c with run := .halted, paused := false }
         let v := if s.voted = true then w.modTriad t (fun x => { x with resync := none }) else w
         ((s.triad t).copyBad k = true → haltCord s t k = report0 (v.putFlag (TRI_STAT.ctxv t k) false) (Report.of (src.triad t) .UC))
         ∧ ((s.triad t).copyBad k = false → haltCord s t k
             = report0 ((saveContext v c).1.putFlag (TRI_STAT.ctxv t k) (saveContext v c).2) (Report.of (src.triad t) .UC)))
     ∧ ∀ (s : State) (c addr : Nat),
         let t := s.triadOf c
         let k := s.shareOf c
         let told (x : State) : State := report0 x { Report.of (src.triad t) .UC with info := BitVec.ofNat 64 addr }
         (s.cordCount ≤ c → Completes (.contextSaveTimeout c addr) s (· = s))
         ∧ (c < s.cordCount → s.flag (TRI_STAT.halt t k) = false → Completes (.contextSaveTimeout c addr) s (· = told s))
         ∧ (c < s.cordCount → s.flag (TRI_STAT.halt t k) = true → Completes (.contextSaveTimeout c addr) s fun u => ∃ d, u = told d
             ∧ d = { s with regs := d.regs } ∧ d.flag (TRI_STAT.ctxv t k) = false ∧ ∀ off, off ≠ TRI_STAT.off t → d.rd off = s.rd off))
  ∧ ((∀ (s : State) (c : Nat) (r : Resync), (s.triad (s.triadOf c)).resync = some r →
       (r.left ≠ 1 → groupEnds s c = s.modTriad (s.triadOf c) (fun x => { x with resync := some { r with left := r.left - 1 } }))
       ∧ (r.left = 1 → groupEnds s c = resyncStop s (s.triadOf c) r))
     ∧ (∀ (s : State) (t : Nat) (r : Resync), let c := s.cordOf t 0
         let u := resyncStop s t r
         u = { s with cords := u.cords, triads := u.triads } ∧ u.triad t = { s.triad t with resync := some { r with left := 0 } }
         ∧ (u.cord c).paused = true ∧ (u.cord c).resv = none ∧ (u.cord c).knot = none
         ∧ (∀ x, x ≠ c → u.cord x = s.cord x) ∧ (∀ j, j ≠ t → u.triad j = s.triad j)
         ∧ ((s.cord c).knot = none → u.cord c = { s.cord c with paused := true, resv := none })
         ∧ ∀ kn, (s.cord c).knot = some kn → (u.cord c).pc = kn.handler)
     ∧ ∀ (s₀ : State) (t : Nat),
       let c := s₀.cordOf t 0
       let i := Instr.resyncRestart t
       (48 ≤ t ∨ (s₀.triad t).resync = none → Completes i s₀ (· = s₀))
       ∧ ∀ r, t < 48 → (s₀.triad t).resync = some r → r.strand < 3 →
           let s := if r.left = 0 then s₀ else resyncStop s₀ t r
           let n := mget (s.triad t).counts r.strand 0 + 1
           let ended (d : State) : Prop := (d.triad t).resync = none ∧ mget (d.triad t).counts r.strand 0 = n
             ∧ d.get (TRI_CNT.ce t r.strand) = min (s.get (TRI_CNT.ce t r.strand) + 1) 65535
             ∧ (∀ off, off ≠ TRI_CNT.off t → d.rd off = s.rd off) ∧ ∀ j, j ≠ t → d.triad j = s.triad j
           let goesOn (d : State) : Prop := d = { s with regs := d.regs, cords := d.cords, triads := d.triads }
             ∧ d.cord c = { s.cord c with paused := false } ∧ ∀ x, x ≠ c → d.cord x = s.cord x
           let beyond : Prop := s.get (TRI_CFG.RSLIM t) ≠ 0 ∧ s.get (TRI_CFG.RSLIM t) < n ∧ s.get (TRI_STAT.TSTATE t) = tst.VOTED3
           ((s.triad t).copyBad 0 = true → Completes i s₀ fun u => ∃ d, u = haltCord d t 0 ∧ d = { s with regs := d.regs, triads := d.triads } ∧ ended d)
           ∧ ((s.triad t).copyBad 0 = false → s.recorded c = false → ¬ beyond → Completes i s₀ fun u => ended u ∧ goesOn u)
           ∧ ((s.triad t).copyBad 0 = false → s.recorded c = false → beyond → Completes i s₀ fun u => ∃ d r', ended d ∧ goesOn d
               ∧ r' = raise d (dom.strand t r.strand) .CE ∧ u = { r' with regs := u.regs } ∧ u.flag (TRI_STAT.fenced t r.strand) = true
               ∧ u.get (TRI_STAT.TSTATE t) = tst.DEGRADED ∧ u.get (PWR_DOM.CUR (dom.strand t r.strand)) = pst.OFF))

/-- R47: the suspect strand, which a persistent no-majority of three strands fences and powers off. Among the three, one that a detection named goes
before one that none did; then the one with more resynchronisations in the minute; then the latest-lettered. -/
def Obligations.SuspectStrandFenced : Prop :=
  (∀ (s : State) (t : Nat) (seen : List Nat),
    let q := suspect s t seen
    let n (k : Nat) : Nat := mget (s.triad t).counts k 0
    q < 3 ∧ ∀ k, k < 3 → k ≠ q → (k ∈ seen → q ∈ seen) ∧ ((k ∈ seen ↔ q ∈ seen) → n k < n q ∨ (n k = n q ∧ k < q)))
  ∧ ∀ (s : State) (t : Nat) (cmp : Comparison), t < 48 → s.voted = true → s.get (TRI_STAT.TSTATE t) = tst.VOTED3 →
      (s.cord t).run.live = true → (s.cord t).paused = false → s.fcu.safe = none → cmp.result = .noMajority → 2 ≤ retriesNow s t 0 →
      Completes (.retireGroupVote t cmp) s fun u => ∃ h,
        let old := mget (s.triad t).detected 0 []
        let k := suspect h t (old ++ cmp.detected.filter (fun x => x < 3 && !old.contains x))
        u = (fenceStrand h t k).put (TRI_STAT.TSTATE t) tst.DEGRADED
        ∧ u.flag (TRI_STAT.fenced t k) = true ∧ u.get (PWR_DOM.CUR (dom.strand t k)) = pst.OFF

/-- (1) R51 to R53: Split execution. A single-bit error is counted with CE; another one retries the strand's group twice, and is then a hard fault: the
cord migrates to a free spare or halts. Of two at once cord 2t takes the spare and cord 2t + 1 halts. An uncorrectable error of the checkpoint halts
the cord with CTXV 0. (2) R53: a migration. The failing strand's stores drain, those that failed their ECC with DE; the spare is powered with empty
L1s; the checkpoint is copied, with empty TLBs; then the failing strand is fenced with CE and the cord goes on. A stage that is not the next one does
nothing. (3) R57, R60: TRI_CTL asks for the restart of a halted cord whose context is valid, on a triad that runs and for a tenant that holds it; any
other RESUME is ignored. The voter self-test records the first unexpected outcome, by lane, polarity and pattern, and makes the triad UNUSABLE with
UC. -/
def Obligations.SplitStrandsRetryAndMigrate : Prop :=
  (∀ (s : State) (t : Nat) (e : StrandError),
     let i := Instr.strandCheckError t e
     let on : Prop := s.voted = false ∧ t < 48 ∧ s.fcu.safe = none
     (¬ on ∨ (∀ k, k < 2 → s.strandOf t k ≠ e.strand) → Completes i s (· = s))
     ∧ ∀ k, on → k < 2 → s.strandOf t k = e.strand → (k = 0 ∨ s.strandOf t 0 ≠ e.strand) →
         let c := 2 * t + k
         let detects : Prop := e.kind = .residueOrParity ∨ e.kind = .uncorrectable
         let marked (d : State) (outcome : Nat) : Prop := d = { s with regs := d.regs, triads := d.triads }
           ∧ d.get (TRI_LASTDIS.OUTCOME t) = outcome ∧ d.get (TRI_LASTDIS.KIND t) = 3 ∧ d.get (TRI_LASTDIS.DIFF t) = 2 ^ e.strand
           ∧ d.get (TRI_LASTDIS.RETIRE t) = (s.cord c).retire.toNat % 2 ^ 32 ∧ ∀ off, off ≠ TRI_LASTDIS.off t → d.rd off = s.rd off
         ((s.cord c).run.live = false ∨ (s.cord c).paused = true → Completes i s (· = s))
         ∧ ((s.cord c).run.live = true → (s.cord c).paused = false →
           (e.kind = .singleBit → Completes i s fun u => ∃ d, u = raise d (dom.strand t e.strand) .CE ∧ d = { s with regs := d.regs }
             ∧ d.get (TRI_CNT.ce t e.strand) = min (s.get (TRI_CNT.ce t e.strand) + 1) 65535 ∧ ∀ off, off ≠ TRI_CNT.off t → d.rd off = s.rd off)
           ∧ (detects → retriesNow s t k < 2 → (s.triad t).copyBad k = false → Completes i s fun u =>
               u = { s with cords := u.cords, triads := u.triads } ∧ retriesNow u t k = retriesNow s t k + 1
               ∧ u.cord c = { s.cord c with resv := none } ∧ ∀ x, x ≠ c → u.cord x = s.cord x)
           ∧ (detects → retriesNow s t k < 2 → (s.triad t).copyBad k = true → Completes i s
               (· = haltCord (s.setTriad t { s.triad t with
                  detected := mset (s.triad t).detected k [e.strand], kinds := mset (s.triad t).kinds k 3 }) t k))
           ∧ (detects → 2 ≤ retriesNow s t k → e.bothHard = false → spareFree s t = true → (s.cord c).knot = none → Completes i s fun u => ∃ d,
               marked d 3 ∧ u = { d with cords := u.cords, triads := u.triads, loom := { s.loom with recover := c :: s.loom.recover } }
               ∧ (u.triad t).mig = some { cord := k, strand := e.strand, phase := .drain, opened := s.time.now }
               ∧ u.cord c = { s.cord c with paused := true, resv := none } ∧ ∀ x, x ≠ c → u.cord x = s.cord x)
           ∧ (detects → 2 ≤ retriesNow s t k → e.bothHard = false → spareFree s t = false → Completes i s fun u => ∃ d, marked d 2 ∧ u = haltCord d t k)
           ∧ (detects → 2 ≤ retriesNow s t k → e.bothHard = true → spareFree s t = true → (s.cord (2 * t)).knot = none → Completes i s fun u => ∃ d,
               u = haltCord d t 1 ∧ d.get (TRI_LASTDIS.OUTCOME t) = 2 ∧ (d.cord (2 * t)).paused = true ∧ (∀ x, x ≠ 2 * t → d.cord x = s.cord x)
               ∧ ∃ m, (d.triad t).mig = some m ∧ m.cord = 0 ∧ m.strand = s.strandOf t 0 ∧ m.phase = .drain)
           ∧ (e.kind = .checkpointUncorrectable → Completes i s fun u => ∃ d, marked d 2 ∧ (k, e.word % 512) ∈ (d.triad t).ckptBad ∧ u = haltCord d t k)))
  ∧ (∀ (s : State) (t : Nat), t < 48 →
       let none_ (p : MigPhase) : Prop := ∀ m, (s.triad t).mig = some m → m.phase ≠ p
       (∀ bad, none_ .drain → Completes (.migrationStoresDrained t bad) s (· = s))
       ∧ (none_ .power → Completes (.migrationSpareOn t) s (· = s))
       ∧ (none_ .copy → Completes (.migrationStateCopied t) s (· = s))
       ∧ (none_ .finish → Completes (.migrationComplete t) s (· = s))
       ∧ ∀ m, (s.triad t).mig = some m → m.cord < 2 → m.strand < 3 →
           let c := s.cordOf t m.cord
           let next (p : MigPhase) : Triad := { s.triad t with mig := some { m with phase := p } }
           (m.phase = .drain → ∀ bad,
             let es := (s.cord c).sbuf
             let tags := bad.filterMap (fun i => (es[i]?).map SbEnt.tag)
             let y := drainList regWrite c tags es s
             let x := (tags.filter (fun g => !((y.cord c).sbuf.map SbEnt.tag).contains g)).foldl (fun x _ => raise x (dom.strand t m.strand) .DE) y
             ((x.cord c).sbuf.all SbEnt.sent = true → Completes (.migrationStoresDrained t bad) s
               (· = x.setTriad t { x.triad t with mig := some { m with phase := .power } }))
             ∧ ((x.cord c).sbuf.all SbEnt.sent = false → Completes (.migrationStoresDrained t bad) s (· = x))
             ∧ (es = [] → Completes (.migrationStoresDrained t bad) s (· = s.setTriad t (next .power))))
           ∧ (m.phase = .power → Completes (.migrationSpareOn t) s fun u => u = { s with regs := u.regs, l2 := u.l2, triads := u.triads }
               ∧ u.get (PWR_DOM.CUR (dom.strand t 2)) = pst.ON ∧ u.triad t = next .copy
               ∧ ∀ e ∈ u.l2, e.1 / 2 ^ 44 = t → e.2.l1d.getLsbD 2 = false ∧ e.2.l1i.getLsbD 2 = false)
           ∧ (m.phase = .copy → (s.triad t).copyBad m.cord = false → Completes (.migrationStateCopied t) s
               (· = { s with tlb := s.tlb.filter (fun e => e.cord ≠ c), triads := (s.setTriad t (next .finish)).triads }))
           ∧ (m.phase = .copy → (s.triad t).copyBad m.cord = true → Completes (.migrationStateCopied t) s
               (· = (haltCord s t m.cord).modTriad t (fun x => { x with mig := none })))
           ∧ (m.phase = .finish → Completes (.migrationComplete t) s fun u => ∃ r,
               r = raise (s.setTriad t { s.triad t with mig := none }) (dom.strand t m.strand) .CE
               ∧ (r.recorded c = false → u = { r with regs := u.regs, cords := u.cords } ∧ u.flag (TRI_STAT.fenced t m.strand) = true
                 ∧ u.get (PWR_DOM.CUR (dom.strand t m.strand)) = pst.OFF ∧ u.get (TRI_STAT.SPARE t) = m.cord + 1
                 ∧ u.get (TRI_STAT.TSTATE t) = tst.SPARED
                 ∧ u.cord c = { r.cord c with paused := false })))
  ∧ ((∀ (s : State) (t : Nat) (v : Word),
       let u := hostWrite s (TRI_CTL.off t) v
       (48 ≤ t → Completes (.triResume t v) s (· = s))
       ∧ (t < 48 → Completes (.triResume t v) s fun x => x = { u with triads := x.triads } ∧ (∀ j, j ≠ t → x.triad j = s.triad j)
           ∧ x.triad t = { s.triad t with resume := (x.triad t).resume }
           ∧ ∀ k, (k ∈ s.places ∧ taken s (TRI_CTL.off t) v / 2 ^ k % 2 = 1 ∧ u.flag (TRI_STAT.halt t k) = true ∧ u.flag (TRI_STAT.ctxv t k) = true
                   ∧ u.get (TRI_STAT.TSTATE t) ≠ tst.FAILED ∧ u.get (TRI_STAT.TSTATE t) ≠ tst.UNUSABLE
                   ∧ u.get (LOOM_CORDA.STATE (u.cordOf t k)) ≠ 0 →
                     mget? (x.triad t).resume k = some ((mget? (s.triad t).resume k).getD s.time.now))
             ∧ (k ∉ s.places ∨ taken s (TRI_CTL.off t) v / 2 ^ k % 2 = 0 ∨ u.flag (TRI_STAT.halt t k) = false ∨ u.flag (TRI_STAT.ctxv t k) = false
                   ∨ u.get (TRI_STAT.TSTATE t) = tst.FAILED ∨ u.get (TRI_STAT.TSTATE t) = tst.UNUSABLE
                   ∨ u.get (LOOM_CORDA.STATE (u.cordOf t k)) = 0 → mget? (x.triad t).resume k = mget? (s.triad t).resume k)))
     ∧ ∀ (s : State) (t : Nat) (bad : List LaneFail), t < 48 →
         let i := Instr.voterSelfTestDone t bad
         let order (f : LaneFail) : Nat := f.lane * 10 + (if f.pol then 5 else 0) + f.pattern
         let ended (u : State) : Prop := (u.triad t).selfTest = false ∧ ∀ j, j ≠ t → u.triad j = s.triad j
         ((s.triad t).selfTest = false → Completes i s (· = s))
         ∧ ((s.triad t).selfTest = true → (∀ f ∈ bad, ¬ (f.lane < 38 ∧ f.pattern < 5)) → Completes i s fun u =>
             u = { s with regs := u.regs, triads := u.triads } ∧ ended u ∧ u.rd (TRI_VSTEST.off t) = 3 ∧ ∀ off, off ≠ TRI_VSTEST.off t → u.rd off = s.rd off)
         ∧ ∀ f ∈ bad, (s.triad t).selfTest = true → f.lane < 38 → f.pattern < 5 →
             (∀ g ∈ bad, g.lane < 38 → g.pattern < 5 → order f ≤ order g) → Completes i s fun u => ∃ d, u = raise d (src.triad t) .UC
               ∧ d = { s with regs := d.regs, triads := d.triads } ∧ ended d ∧ d.get (TRI_STAT.TSTATE t) = tst.UNUSABLE
               ∧ d.flag (TRI_VSTEST.DONE t) = true ∧ d.flag (TRI_VSTEST.PASS t) = false ∧ d.get (TRI_VSTEST.LANE t) = f.lane
               ∧ d.get (TRI_VSTEST.PATTERN t) = f.pattern ∧ d.flag (TRI_VSTEST.POL t) = f.pol)

/-- (1) R61, R62, R146, R374: debug commands. They are taken while access is OWNER_OPEN or FACTORY and the module runs. HALT stops the cord, and an open
knot slips; the others act on a cord so stopped, and each is logged in its triad's log of 32 with the retire count. (2) R61, R374: what the debugger
reads: the program counter, a control register, a word of an address generator, a stack entry, a breakpoint, or eight bytes of memory; nothing where
there is none. The log's entries come oldest first, each with its retire count. -/
def Obligations.DebuggerActsOnStoppedCords : Prop :=
  (∀ (s : State) (c : Nat),
     let open_ : Prop := 1 ≤ s.get SEC_STAT.ACCESS ∧ c < s.cordCount ∧ s.stopped = false
     let held : Prop := open_ ∧ (s.cord c).run = .debug
     let between : Prop := (s.cord c).run ∈ [Run.running, .waitEvent, .waitTlb, .waitCinch] ∧ (s.cord c).answers = [] ∧ (s.cord c).paused = false
     let logged (x : DbgAction) (t : State) : Prop :=
       (∀ j, j ≠ s.triadOf c → t.triad j = s.triad j) ∧ ∃ old, t.triad (s.triadOf c) = { s.triad (s.triadOf c) with log := old ++ [((s.cord c).retire, x)] }
         ∧ old = (s.triad (s.triadOf c)).log.drop ((s.triad (s.triadOf c)).log.length - 31)
     let changes (x : DbgAction) (k : Core) (t : State) : Prop :=
       t = { s with cords := t.cords, triads := t.triads } ∧ logged x t ∧ t.cord c = k ∧ ∀ d, d ≠ c → t.cord d = s.cord d
     (¬ (open_ ∧ between) → Completes (.debugHalt c) s (· = s))
     ∧ (open_ → between → Completes (.debugHalt c) s fun t => t = { s with cords := t.cords } ∧ (∀ d, d ≠ c → t.cord d = s.cord d)
         ∧ (t.cord c).run = .debug ∧ (t.cord c).dbg = true ∧ (t.cord c).knot = none
         ∧ ((s.cord c).knot = none → t.cord c = { s.cord c with run := .debug, dbg := true })
         ∧ ∀ kn, (s.cord c).knot = some kn → (t.cord c).pc = kn.handler)
     ∧ (¬ held → ∀ i ∈ [Instr.debugResume c, .debugStep c], Completes i s (· = s))
     ∧ (¬ held → ∀ what v, Completes (.debugStateWrite c what v) s (· = s))
     ∧ (¬ held → ∀ addr bytes, Completes (.debugMemoryWrite c addr bytes) s (· = s))
     ∧ (held → Completes (.debugResume c) s (changes .resume { s.cord c with run := .running, dbg := false }))
     ∧ (held → ∀ v, Completes (.debugStateWrite c .pc v) s (changes (.stateWrite .pc v) { s.cord c with pc := v &&& epcMask }))
     ∧ (held → ∀ n v, Completes (.debugStateWrite c (.cr n) v) s (changes (.stateWrite (.cr n) v) (debugCr (s.cord c) (s.tenantOf c) n v)))
     ∧ (held → ∀ i part v, 8 ≤ i ∨ 4 < part ∨ (part = 4 ∧ 32 < v.toNat) →
         Completes (.debugStateWrite c (.ag i part) v) s (changes (.stateWrite (.ag i part) v) (s.cord c)))
     ∧ (held → ∀ i part v, i < 8 → part < 4 ∨ (part = 4 ∧ v.toNat ≤ 32) →
         Completes (.debugStateWrite c (.ag i part) v) s
           (changes (.stateWrite (.ag i part) v) ((s.cord c).setAg i (((s.cord c).ag i).setPart part v))))
     ∧ (held → ∀ i v, Completes (.debugStateWrite c (.stack i) v) s fun t => t = { s with cords := t.cords, triads := t.triads }
         ∧ logged (.stateWrite (.stack i) v) t ∧ t.cord c = { s.cord c with cache := (t.cord c).cache }
         ∧ (t.cord c).cache.length = (s.cord c).cache.length
         ∧ (∀ j, j ≠ i → (t.cord c).cache[j]? = (s.cord c).cache[j]?)
         ∧ ∀ e, (s.cord c).cache[i]? = some e → (t.cord c).cache[i]? = some { e with val := v })
     ∧ (held → ∀ i v, Completes (.debugStateWrite c (.brk i true) v) s
         (changes (.stateWrite (.brk i true) v) { s.cord c with brks := mset (s.cord c).brks i v }))
     ∧ (held → ∀ i v, Completes (.debugStateWrite c (.brk i false) v) s
         (changes (.stateWrite (.brk i false) v) { s.cord c with brks := mdel (s.cord c).brks i }))
     ∧ (held → ∀ addr, Completes (.debugMemoryWrite c addr []) s (changes (.memoryWrite addr) (s.cord c)))
     ∧ (held → ∀ addr bytes u ok, debugStores c (debugEntries s addr bytes) s = (u, ok) →
         Completes (.debugMemoryWrite c addr bytes) s (· = if ok = true then u.logDebug c (.memoryWrite addr) else u))
     ∧ (let go (u : State) : State :=
          let x := (drainCord regWrite u c).modCord c (fun k => { k with run := .running })
          let n := tryNext x c
          let y := if (x.cord c).fpDue = true then doFpImpreciseDelivery c x else if wanting x n = true then turnBack x n else n
          y.modCord c (fun k => { k with run := if k.run ≠ .running then k.run else if k.dbg = true then .debug else .running })
        held →
          (stepped (s.cord c) ((go s).cord c) = true → Completes (.debugStep c) s fun t => ∃ u, logged .step u ∧ u = { s with triads := u.triads } ∧ t = go u)
          ∧ (stepped (s.cord c) ((go s).cord c) = false → Completes (.debugStep c) s (· = go s))))
  ∧ ((∀ (s : State) (c : Nat),
       let open_ : Prop := 1 ≤ s.get SEC_STAT.ACCESS ∧ c < s.cordCount ∧ s.stopped = false
       let answers (what : DebugReg) (ws : List Word) : Prop := Completes (.debugStateRead c what) s (· = { s with resp := ws })
       (¬ open_ → ∀ what, Completes (.debugStateRead c what) s (· = s))
       ∧ (open_ → answers .pc [(s.cord c).pc])
       ∧ (open_ → ∀ n x, crValue s (.cord c) n = some x → answers (.cr n) [x])
       ∧ (open_ → ∀ i part, i < 8 → part < 5 → answers (.ag i part) [((s.cord c).ag i).part part])
       ∧ (open_ → ∀ i part, 8 ≤ i ∨ 5 ≤ part → answers (.ag i part) [])
       ∧ (open_ → ∀ i e, (s.cord c).cache[i]? = some e → answers (.stack i) [e.val])
       ∧ (open_ → ∀ i, (s.cord c).cache.length ≤ i → answers (.stack i) [])
       ∧ (open_ → ∀ i on v, mget? (s.cord c).brks i = some v → answers (.brk i on) [v])
       ∧ (open_ → ∀ i on, mget? (s.cord c).brks i = none → answers (.brk i on) [])
       ∧ (open_ → ∀ addr x b, readBytes s rplSrc 0 addr 8 = (x, b) → EndsOrWaits (.debugStateRead c (.mem addr)) s
           { x with resp := if b.reach = .ok ∧ b.poison = false then [BitVec.ofNat 64 b.val] else [] }))
     ∧ ∀ (s : State) (t : Nat),
         let open_ : Prop := t < 48 ∧ 1 ≤ s.get SEC_STAT.ACCESS ∧ s.stopped = false
         (¬ open_ → Completes (.debugLogRead t) s (· = s))
         ∧ (open_ → Completes (.debugLogRead t) s (· = { s with resp := (s.triad t).log.flatMap (fun e => match e.2 with
             | .stateWrite _ v => [e.1, 1, v]
             | .memoryWrite addr => [e.1, 2, BitVec.ofNat 64 addr]
             | .step => [e.1, 3, 0]
             | .breakpoint pc => [e.1, 4, pc]
             | .resume => [e.1, 5, 0]) })))
end

