-- ==== Sys2Proof/Laws/Flit.lean ====
section
/-! SUPPORT. Flits as they were sent: an interleave without an error is read as it is, and a flit as it was built. -/

namespace Sys2Proof.Machine

/-- Check bytes that fit leave an interleave alone. -/
theorem fecFix_fitting (bs : List Byte) : fecFix bs (fecCheck bs) = (bs, false) := by
  simp [fecFix]

/-- Byte j of interleave k of bytes numbered from n. -/
theorem lane_getD (l : List Byte) (n k j : Nat) (hk : k < 3) :
    (((l.zipIdx n).filter (fun e => e.2 % 3 == k)).map (·.1)).getD j 0 = l.getD (3 * j + (k + 2 * n) % 3) 0 := by
  induction l generalizing n j with
  | nil => simp
  | cons x t ih =>
    rw [List.zipIdx_cons]
    by_cases h : n % 3 = k
    · cases j with
      | zero =>
        have : (k + 2 * n) % 3 = 0 := by omega
        simp [h, this]
      | succ j =>
        have e : 3 * (j + 1) + (k + 2 * n) % 3 = (3 * j + (k + 2 * (n + 1)) % 3) + 1 := by omega
        simpa [h, e] using ih (n + 1) j
    · have e : 3 * j + (k + 2 * n) % 3 = (3 * j + (k + 2 * (n + 1)) % 3) + 1 := by omega
      simpa [h, e] using ih (n + 1) j

/-- The interleaves of 250 bytes hold them all. -/
theorem lanes_whole (b : List Byte) (h : b.length = 250) :
    (List.range 250).map (fun i => (laneOf b (i % 3)).getD (i / 3) 0) = b := by
  refine List.ext_getElem (by simp [h]) (fun i h1 h2 => ?_)
  have e : 3 * (i / 3) + (i % 3 + 2 * 0) % 3 = i := by omega
  rw [List.getElem_map, List.getElem_range, laneOf, List.take_of_length_le (by omega), lane_getD b 0 (i % 3) (i / 3) (by omega), e]
  simp [List.getD, h2]

/-- The FEC finds no error in bytes that come with their own check bytes (R249). -/
theorem fecDecode_sealed (b : List Byte) (h : b.length = 250) : fecDecode (b ++ fecBytes b) = (b, 0) := by
  have lane (k : Nat) : laneOf (b ++ fecBytes b) k = laneOf b k := by
    simp only [laneOf, List.take_left' h, List.take_of_length_le (Nat.le_of_eq h)]
  have at_ (k : Nat) : (b ++ fecBytes b).getD (250 + k) 0 = (fecBytes b).getD k 0 := by
    rw [← h, List.getD, List.getD, List.getElem?_append_right (Nat.le_add_right ..), Nat.add_sub_cancel_left]
  have fits (k : Nat) (hk : k < 3) :
      ({ hi := (b ++ fecBytes b).getD (250 + k) 0, lo := (b ++ fecBytes b).getD (253 + k) 0 } : Rem) = fecCheck (laneOf b k) := by
    have e : 253 + k = 250 + (3 + k) := by omega
    rw [e, at_, at_]
    obtain rfl | rfl | rfl : k = 0 ∨ k = 1 ∨ k = 2 := by omega
    all_goals rfl
  have ls : (List.range 3).map (fun k => fecFix (laneOf (b ++ fecBytes b) k)
      { hi := (b ++ fecBytes b).getD (250 + k) 0, lo := (b ++ fecBytes b).getD (253 + k) 0 })
      = (List.range 3).map (fun k => (laneOf b k, false)) := by
    refine List.map_congr_left (fun k hk => ?_)
    rw [lane, fits k (List.mem_range.mp hk), fecFix_fitting]
  simp only [fecDecode, ls]
  refine Prod.ext ?_ rfl
  refine Eq.trans (List.map_congr_left (fun i _ => ?_)) (lanes_whole b h)
  obtain e | e | e : i % 3 = 0 ∨ i % 3 = 1 ∨ i % 3 = 2 := by omega
  all_goals
    rw [e]
    rfl

theorem length_bytesOf (n k : Nat) : (bytesOf n k).length = k := by
  induction k generalizing n with
  | zero => rfl
  | succ k ih => simp [bytesOf, ih]

/-- Bytes read back are the number they came from. -/
theorem ofBytes_bytesOf (n k : Nat) : ofBytes (bytesOf n k) = n % 256 ^ k := by
  induction k generalizing n with
  | zero => simp [bytesOf, ofBytes, Nat.mod_one]
  | succ k ih =>
    have e := Nat.mod_mul (x := n) (a := 256) (b := 256 ^ k)
    rw [bytesOf, ofBytes, ih, BitVec.toNat_ofNat, show 256 ^ (k + 1) = 256 * 256 ^ k from Nat.pow_succ', e]

theorem crc32cBits_lt (k c : Nat) (h : c < 2 ^ 32) : crc32cBits k c < 2 ^ 32 := by
  induction k generalizing c with
  | zero => exact h
  | succ k ih =>
    rw [crc32cBits]
    refine ih _ ?_
    split
    · exact Nat.xor_lt_two_pow (by omega) (by decide)
    · omega

theorem crc32c_lt (bs : List Byte) : crc32c bs < 2 ^ 32 := by
  have go (l : List Byte) (c : Nat) (h : c < 2 ^ 32) : l.foldl (fun c b => crc32cBits 8 (c ^^^ b.toNat)) c < 2 ^ 32 := by
    induction l generalizing c with
    | nil => exact h
    | cons b t ih => exact ih _ (crc32cBits_lt 8 _ (Nat.xor_lt_two_pow h (Nat.lt_trans b.isLt (by decide))))
  exact Nat.xor_lt_two_pow (go bs _ (by decide)) (by decide)

/-- A flit is read as it was built: header, payload, a CRC that holds, nothing to correct (R248, R249). -/
theorem flitOf_bytes (f : Flit) (hk : f.kind < 4) (hs : f.fseq < 1024) (ha : f.ackSeq < 1024) (hc : f.credit < 4096)
    (hb : f.body.length = 240) : flitOf f.bytes = { f with corrected := 0, crcOk := true } := by
  let b := bytesOf (f.kind + f.fseq * 4) 2 ++ bytesOf (f.ackSeq + boolNat f.nak * 2 ^ 10 + boolNat f.ackv * 2 ^ 11) 2 ++ bytesOf f.credit 2
    ++ f.body
  have lb : b.length = 246 := by simp [b, length_bytesOf, hb]
  have e : f.bytes = (b ++ bytesOf (crc32c b) 4) ++ fecBytes (b ++ bytesOf (crc32c b) 4) := by
    simp only [Flit.bytes, List.take_left' hb, b]
  have pads (x y z w : Nat) : ((bytesOf x 2 ++ bytesOf y 2 ++ bytesOf z 2 ++ f.body ++ bytesOf w 4).take 2,
      ((bytesOf x 2 ++ bytesOf y 2 ++ bytesOf z 2 ++ f.body ++ bytesOf w 4).drop 2).take 2,
      ((bytesOf x 2 ++ bytesOf y 2 ++ bytesOf z 2 ++ f.body ++ bytesOf w 4).drop 4).take 2,
      ((bytesOf x 2 ++ bytesOf y 2 ++ bytesOf z 2 ++ f.body ++ bytesOf w 4).drop 6).take 240)
      = (bytesOf x 2, bytesOf y 2, bytesOf z 2, f.body) := by
    simp [bytesOf, List.take_left' hb]
  have p := pads (f.kind + f.fseq * 4) (f.ackSeq + boolNat f.nak * 2 ^ 10 + boolNat f.ackv * 2 ^ 11) f.credit (crc32c b)
  simp only [Prod.mk.injEq] at p
  obtain ⟨p1, p2, p3, p4⟩ := p
  have q1 : (b ++ bytesOf (crc32c b) 4).take 246 = b := List.take_left' lb
  have q2 : ((b ++ bytesOf (crc32c b) 4).drop 246).take 4 = bytesOf (crc32c b) 4 := by
    rw [List.drop_left' lb, List.take_of_length_le (by simp [length_bytesOf])]
  have c : ofBytes (bytesOf (crc32c b) 4) = crc32c b := by
    rw [ofBytes_bytesOf]
    exact Nat.mod_eq_of_lt (crc32c_lt b)
  rw [e]
  simp only [flitOf, fecDecode_sealed _ (show (b ++ bytesOf (crc32c b) 4).length = 250 by simp [lb, length_bytesOf]), q1, q2, c]
  simp only [b, p1, p2, p3, p4, ofBytes_bytesOf]
  cases f with
  | mk kind fseq ackSeq nak ackv credit corrected crcOk body =>
    simp only at hk hs ha hc ⊢
    cases nak <;> cases ackv <;> simp [bits, bitAt, boolNat] <;> omega

/-- 250 bytes with their check bytes are the 256 of a flit. -/
theorem length_sealed (b : List Byte) (h : b.length = 250) : (b ++ fecBytes b).length = 256 := by
  simp [fecBytes, h]

theorem length_flit (f : Flit) (h : f.body.length = 240) : f.bytes.length = 256 := by
  rw [Flit.bytes]
  exact length_sealed _ (by simp [length_bytesOf, h])

end Sys2Proof.Machine
end

