-- ==== Sys2Proof/Laws/Maps.lean ====
section
/-! SUPPORT. Laws of the sparse tables: what a read answers after a write, and that every operation keeps the canonical form. -/

namespace Sys2Proof.Machine

variable {α : Type}

theorem mget?_mdel_same (m : SMap α) (k : Nat) : mget? (mdel m k) k = none := by
  induction m with
  | nil => rfl
  | cons e t ih =>
    obtain ⟨j, a⟩ := e
    by_cases h : j = k <;> simp [mdel, mget?, h, ih]

theorem mget?_mdel_other (m : SMap α) {j k : Nat} (h : j ≠ k) : mget? (mdel m k) j = mget? m j := by
  induction m with
  | nil => rfl
  | cons e t ih =>
    obtain ⟨i, a⟩ := e
    by_cases hi : i = k
    · subst hi
      simp [mdel, mget?, ih, Ne.symm h]
    · by_cases hj : i = j
      · subst hj; simp [mdel, mget?, hi]
      · simp [mdel, mget?, hi, hj, ih]

theorem mget?_mins_same (m : SMap α) (k : Nat) (v : α) (h : mget? m k = none) : mget? (mins k v m) k = some v := by
  induction m with
  | nil => simp [mins, mget?]
  | cons e t ih =>
    obtain ⟨j, a⟩ := e
    by_cases hj : j = k
    · simp [mget?, hj] at h
    · rw [mget?, if_neg hj] at h
      by_cases hk : k < j <;> simp [mins, mget?, hk, hj, ih h]

theorem mget?_mins_other (m : SMap α) {j k : Nat} (v : α) (h : j ≠ k) : mget? (mins k v m) j = mget? m j := by
  induction m with
  | nil => simp [mins, mget?, Ne.symm h]
  | cons e t ih =>
    obtain ⟨i, a⟩ := e
    by_cases hk : k < i
    · simp [mins, mget?, hk, Ne.symm h]
    · by_cases hj : i = j
      · subst hj; simp [mins, mget?, hk]
      · simp [mins, mget?, hk, hj, ih]

@[simp] theorem mget?_mset_same (m : SMap α) (k : Nat) (v : α) : mget? (mset m k v) k = some v :=
  mget?_mins_same _ _ _ (mget?_mdel_same m k)

theorem mget?_mset_other (m : SMap α) {j k : Nat} (v : α) (h : j ≠ k) : mget? (mset m k v) j = mget? m j := by
  rw [mset, mget?_mins_other _ _ h, mget?_mdel_other _ h]

variable [DecidableEq α]

/-- Read after write, same key. -/
@[simp] theorem mget_mput_same (m : SMap α) (k : Nat) (v d : α) : mget (mput m k v d) k d = v := by
  unfold mget mput
  split
  · simp [mget?_mdel_same, *]
  · simp

/-- Read after write, another key. -/
theorem mget_mput_other (m : SMap α) {j k : Nat} (v d d' : α) (h : j ≠ k) : mget (mput m k v d) j d' = mget m j d' := by
  unfold mget mput
  split
  · rw [mget?_mdel_other _ h]
  · rw [mget?_mset_other _ _ h]

/-- A read of a listed key after a write answers the value written, or nothing where the value is the default. -/
theorem mget?_mput_same (m : SMap α) (k : Nat) (v d : α) : mget? (mput m k v d) k = if v = d then none else some v := by
  unfold mput
  split
  · exact mget?_mdel_same m k
  · exact mget?_mset_same m k v

theorem mget?_mput_other (m : SMap α) {j k : Nat} (v d : α) (h : j ≠ k) : mget? (mput m k v d) j = mget? m j := by
  unfold mput
  split
  · exact mget?_mdel_other m h
  · exact mget?_mset_other m v h

omit [DecidableEq α] in
theorem mdel_mdel (m : SMap α) (k : Nat) : mdel (mdel m k) k = mdel m k := by
  induction m with
  | nil => rfl
  | cons e t ih =>
    obtain ⟨j, a⟩ := e
    by_cases h : j = k <;> simp [mdel, h, ih]

omit [DecidableEq α] in
theorem mdel_mins (m : SMap α) (k : Nat) (v : α) : mdel (mins k v m) k = mdel m k := by
  induction m with
  | nil => simp [mins, mdel]
  | cons e t ih =>
    obtain ⟨j, a⟩ := e
    by_cases hk : k < j
    · simp [mins, mdel, hk]
    · by_cases h : j = k
      · subst h; simp [mins, mdel, ih]
      · simp [mins, mdel, hk, h, ih]

/-- The last write to a key stands. -/
@[simp] theorem mput_mput (m : SMap α) (k : Nat) (v w d : α) : mput (mput m k v d) k w d = mput m k w d := by
  by_cases hv : v = d <;> by_cases hw : w = d <;> simp [mput, mset, hv, hw, mdel_mdel, mdel_mins]

/-! ### The canonical form -/

omit [DecidableEq α] in
theorem mrising_mono (m : SMap α) {b c : Nat} (h : c ≤ b) (hm : mrising b m = true) : mrising c m = true := by
  cases m with
  | nil => rfl
  | cons e t =>
    simp only [mrising, Bool.and_eq_true, decide_eq_true_eq] at hm ⊢
    exact ⟨Nat.le_trans h hm.1, hm.2⟩

omit [DecidableEq α] in
theorem mrising_mdel (m : SMap α) (b k : Nat) (h : mrising b m = true) : mrising b (mdel m k) = true := by
  induction m generalizing b with
  | nil => rfl
  | cons e t ih =>
    simp only [mrising, Bool.and_eq_true, decide_eq_true_eq] at h
    by_cases hk : e.1 = k
    · simp only [mdel, hk, if_true]
      exact mrising_mono _ (by omega) (ih (e.1 + 1) h.2)
    · simp only [mdel, hk, if_false, mrising, Bool.and_eq_true, decide_eq_true_eq]
      exact ⟨h.1, ih _ h.2⟩

omit [DecidableEq α] in
theorem mget?_none_of_lt (m : SMap α) {b k : Nat} (h : mrising b m = true) (hk : k < b) : mget? m k = none := by
  induction m generalizing b with
  | nil => rfl
  | cons e t ih =>
    simp only [mrising, Bool.and_eq_true, decide_eq_true_eq] at h
    have : e.1 ≠ k := by omega
    simp only [mget?, this, if_false]
    exact ih h.2 (by omega)

omit [DecidableEq α] in
theorem mrising_mins (m : SMap α) (b k : Nat) (v : α) (h : mrising b m = true) (hb : b ≤ k) (hn : mget? m k = none) :
    mrising b (mins k v m) = true := by
  induction m generalizing b with
  | nil => simp [mins, mrising, hb]
  | cons e t ih =>
    simp only [mrising, Bool.and_eq_true, decide_eq_true_eq] at h
    have hj : e.1 ≠ k := by
      intro hj
      simp [mget?, hj] at hn
    simp only [mget?, hj, if_false] at hn
    by_cases hk : k < e.1
    · simp only [mins, hk, if_true, mrising, Bool.and_eq_true, decide_eq_true_eq]
      exact ⟨hb, by omega, h.2⟩
    · simp only [mins, hk, if_false, mrising, Bool.and_eq_true, decide_eq_true_eq]
      exact ⟨h.1, ih _ h.2 (by omega) hn⟩

omit [DecidableEq α] in
theorem mem_mdel {m : SMap α} {k : Nat} {e : Nat × α} (h : e ∈ mdel m k) : e ∈ m := by
  induction m with
  | nil => simp [mdel] at h
  | cons x t ih =>
    by_cases hk : x.1 = k
    · simp only [mdel, hk, if_true] at h
      exact List.mem_cons_of_mem _ (ih h)
    · simp only [mdel, hk, if_false, List.mem_cons] at h ⊢
      exact h.imp id ih

omit [DecidableEq α] in
theorem mem_mins {m : SMap α} {k : Nat} {v : α} {e : Nat × α} (h : e ∈ mins k v m) : e = (k, v) ∨ e ∈ m := by
  induction m with
  | nil => simpa [mins] using h
  | cons x t ih =>
    by_cases hk : k < x.1
    · simpa [mins, hk] using h
    · simp only [mins, hk, if_false, List.mem_cons] at h ⊢
      rcases h with h | h
      · exact .inr (.inl h)
      · exact (ih h).imp id .inr

theorem mwf_nil (d : α) : mwf ([] : SMap α) d = true := rfl

/-- A write keeps the canonical form. -/
theorem mwf_mput (m : SMap α) (k : Nat) (v d : α) (h : mwf m d = true) : mwf (mput m k v d) d = true := by
  simp only [mwf, Bool.and_eq_true, List.all_eq_true, decide_eq_true_eq] at h ⊢
  unfold mput
  split
  · exact ⟨mrising_mdel m 0 k h.1, fun e he => h.2 e (mem_mdel he)⟩
  · refine ⟨mrising_mins _ 0 k v (mrising_mdel m 0 k h.1) (Nat.zero_le _) (mget?_mdel_same m k), fun e he => ?_⟩
    rcases mem_mins he with rfl | he
    · assumption
    · exact h.2 e (mem_mdel he)

omit [DecidableEq α] in
theorem mrising_filter (m : SMap α) (b : Nat) (p : Nat × α → Bool) (h : mrising b m = true) :
    mrising b (m.filter p) = true := by
  induction m generalizing b with
  | nil => rfl
  | cons e t ih =>
    simp only [mrising, Bool.and_eq_true, decide_eq_true_eq] at h
    by_cases hp : p e
    · simp only [List.filter_cons, hp, if_true, mrising, Bool.and_eq_true, decide_eq_true_eq]
      exact ⟨h.1, ih _ h.2⟩
    · simp only [List.filter_cons, hp]
      exact mrising_mono _ (by omega) (ih (e.1 + 1) h.2)

/-- Entries taken out keep the canonical form. -/
theorem mwf_filter (m : SMap α) (d : α) (p : Nat × α → Bool) (h : mwf m d = true) : mwf (m.filter p) d = true := by
  simp only [mwf, Bool.and_eq_true, List.all_eq_true, decide_eq_true_eq] at h ⊢
  exact ⟨mrising_filter m 0 p h.1, fun e he => h.2 e (List.mem_filter.mp he).1⟩

end Sys2Proof.Machine
end

