-- ==== Sys2Proof/Laws/State.lean ====
section
/-! SUPPORT. What each shared update of the state leaves: one lemma for each field and update, true by rfl. -/

namespace Sys2Proof.Machine

/-! ### wr -/

@[simp] theorem State.wr_free (s : State) (off x : Nat) : (s.wr off x).free = s.free := rfl
@[simp] theorem State.wr_seq (s : State) (off x : Nat) : (s.wr off x).seq = s.seq := rfl
@[simp] theorem State.wr_time (s : State) (off x : Nat) : (s.wr off x).time = s.time := rfl
@[simp] theorem State.wr_locks (s : State) (off x : Nat) : (s.wr off x).locks = s.locks := rfl
@[simp] theorem State.wr_cords (s : State) (off x : Nat) : (s.wr off x).cords = s.cords := rfl
@[simp] theorem State.wr_triads (s : State) (off x : Nat) : (s.wr off x).triads = s.triads := rfl
@[simp] theorem State.wr_tlb (s : State) (off x : Nat) : (s.wr off x).tlb = s.tlb := rfl
@[simp] theorem State.wr_tlbi (s : State) (off x : Nat) : (s.wr off x).tlbi = s.tlbi := rfl
@[simp] theorem State.wr_l2 (s : State) (off x : Nat) : (s.wr off x).l2 = s.l2 := rfl
@[simp] theorem State.wr_ev (s : State) (off x : Nat) : (s.wr off x).ev = s.ev := rfl
@[simp] theorem State.wr_snoops (s : State) (off x : Nat) : (s.wr off x).snoops = s.snoops := rfl
@[simp] theorem State.wr_warp (s : State) (off x : Nat) : (s.wr off x).warp = s.warp := rfl
@[simp] theorem State.wr_dir (s : State) (off x : Nat) : (s.wr off x).dir = s.dir := rfl
@[simp] theorem State.wr_txns (s : State) (off x : Nat) : (s.wr off x).txns = s.txns := rfl
@[simp] theorem State.wr_evPend (s : State) (off x : Nat) : (s.wr off x).evPend = s.evPend := rfl
@[simp] theorem State.wr_owed (s : State) (off x : Nat) : (s.wr off x).owed = s.owed := rfl
@[simp] theorem State.wr_wants (s : State) (off x : Nat) : (s.wr off x).wants = s.wants := rfl
@[simp] theorem State.wr_net (s : State) (off x : Nat) : (s.wr off x).net = s.net := rfl
@[simp] theorem State.wr_mem (s : State) (off x : Nat) : (s.wr off x).mem = s.mem := rfl
@[simp] theorem State.wr_ctls (s : State) (off x : Nat) : (s.wr off x).ctls = s.ctls := rfl
@[simp] theorem State.wr_keys (s : State) (off x : Nat) : (s.wr off x).keys = s.keys := rfl
@[simp] theorem State.wr_keyNext (s : State) (off x : Nat) : (s.wr off x).keyNext = s.keyNext := rfl
@[simp] theorem State.wr_loom (s : State) (off x : Nat) : (s.wr off x).loom = s.loom := rfl
@[simp] theorem State.wr_chs (s : State) (off x : Nat) : (s.wr off x).chs = s.chs := rfl
@[simp] theorem State.wr_ports (s : State) (off x : Nat) : (s.wr off x).ports = s.ports := rfl
@[simp] theorem State.wr_eng (s : State) (off x : Nat) : (s.wr off x).eng = s.eng := rfl
@[simp] theorem State.wr_fcu (s : State) (off x : Nat) : (s.wr off x).fcu = s.fcu := rfl
@[simp] theorem State.wr_spl (s : State) (off x : Nat) : (s.wr off x).spl = s.spl := rfl
@[simp] theorem State.wr_pwr (s : State) (off x : Nat) : (s.wr off x).pwr = s.pwr := rfl
@[simp] theorem State.wr_boot (s : State) (off x : Nat) : (s.wr off x).boot = s.boot := rfl
@[simp] theorem State.wr_sec (s : State) (off x : Nat) : (s.wr off x).sec = s.sec := rfl
@[simp] theorem State.wr_i3c (s : State) (off x : Nat) : (s.wr off x).i3c = s.i3c := rfl
@[simp] theorem State.wr_rpl (s : State) (off x : Nat) : (s.wr off x).rpl = s.rpl := rfl
@[simp] theorem State.wr_pins (s : State) (off x : Nat) : (s.wr off x).pins = s.pins := rfl
@[simp] theorem State.wr_resp (s : State) (off x : Nat) : (s.wr off x).resp = s.resp := rfl
@[simp] theorem State.wr_pending (s : State) (off x : Nat) : (s.wr off x).pending = s.pending := rfl

/-! ### put -/

@[simp] theorem State.put_free (s : State) (f : Fld) (v : Nat) : (s.put f v).free = s.free := rfl
@[simp] theorem State.put_seq (s : State) (f : Fld) (v : Nat) : (s.put f v).seq = s.seq := rfl
@[simp] theorem State.put_time (s : State) (f : Fld) (v : Nat) : (s.put f v).time = s.time := rfl
@[simp] theorem State.put_locks (s : State) (f : Fld) (v : Nat) : (s.put f v).locks = s.locks := rfl
@[simp] theorem State.put_cords (s : State) (f : Fld) (v : Nat) : (s.put f v).cords = s.cords := rfl
@[simp] theorem State.put_triads (s : State) (f : Fld) (v : Nat) : (s.put f v).triads = s.triads := rfl
@[simp] theorem State.put_tlb (s : State) (f : Fld) (v : Nat) : (s.put f v).tlb = s.tlb := rfl
@[simp] theorem State.put_tlbi (s : State) (f : Fld) (v : Nat) : (s.put f v).tlbi = s.tlbi := rfl
@[simp] theorem State.put_l2 (s : State) (f : Fld) (v : Nat) : (s.put f v).l2 = s.l2 := rfl
@[simp] theorem State.put_ev (s : State) (f : Fld) (v : Nat) : (s.put f v).ev = s.ev := rfl
@[simp] theorem State.put_snoops (s : State) (f : Fld) (v : Nat) : (s.put f v).snoops = s.snoops := rfl
@[simp] theorem State.put_warp (s : State) (f : Fld) (v : Nat) : (s.put f v).warp = s.warp := rfl
@[simp] theorem State.put_dir (s : State) (f : Fld) (v : Nat) : (s.put f v).dir = s.dir := rfl
@[simp] theorem State.put_txns (s : State) (f : Fld) (v : Nat) : (s.put f v).txns = s.txns := rfl
@[simp] theorem State.put_evPend (s : State) (f : Fld) (v : Nat) : (s.put f v).evPend = s.evPend := rfl
@[simp] theorem State.put_owed (s : State) (f : Fld) (v : Nat) : (s.put f v).owed = s.owed := rfl
@[simp] theorem State.put_wants (s : State) (f : Fld) (v : Nat) : (s.put f v).wants = s.wants := rfl
@[simp] theorem State.put_net (s : State) (f : Fld) (v : Nat) : (s.put f v).net = s.net := rfl
@[simp] theorem State.put_mem (s : State) (f : Fld) (v : Nat) : (s.put f v).mem = s.mem := rfl
@[simp] theorem State.put_ctls (s : State) (f : Fld) (v : Nat) : (s.put f v).ctls = s.ctls := rfl
@[simp] theorem State.put_keys (s : State) (f : Fld) (v : Nat) : (s.put f v).keys = s.keys := rfl
@[simp] theorem State.put_keyNext (s : State) (f : Fld) (v : Nat) : (s.put f v).keyNext = s.keyNext := rfl
@[simp] theorem State.put_loom (s : State) (f : Fld) (v : Nat) : (s.put f v).loom = s.loom := rfl
@[simp] theorem State.put_chs (s : State) (f : Fld) (v : Nat) : (s.put f v).chs = s.chs := rfl
@[simp] theorem State.put_ports (s : State) (f : Fld) (v : Nat) : (s.put f v).ports = s.ports := rfl
@[simp] theorem State.put_eng (s : State) (f : Fld) (v : Nat) : (s.put f v).eng = s.eng := rfl
@[simp] theorem State.put_fcu (s : State) (f : Fld) (v : Nat) : (s.put f v).fcu = s.fcu := rfl
@[simp] theorem State.put_spl (s : State) (f : Fld) (v : Nat) : (s.put f v).spl = s.spl := rfl
@[simp] theorem State.put_pwr (s : State) (f : Fld) (v : Nat) : (s.put f v).pwr = s.pwr := rfl
@[simp] theorem State.put_boot (s : State) (f : Fld) (v : Nat) : (s.put f v).boot = s.boot := rfl
@[simp] theorem State.put_sec (s : State) (f : Fld) (v : Nat) : (s.put f v).sec = s.sec := rfl
@[simp] theorem State.put_i3c (s : State) (f : Fld) (v : Nat) : (s.put f v).i3c = s.i3c := rfl
@[simp] theorem State.put_rpl (s : State) (f : Fld) (v : Nat) : (s.put f v).rpl = s.rpl := rfl
@[simp] theorem State.put_pins (s : State) (f : Fld) (v : Nat) : (s.put f v).pins = s.pins := rfl
@[simp] theorem State.put_resp (s : State) (f : Fld) (v : Nat) : (s.put f v).resp = s.resp := rfl
@[simp] theorem State.put_pending (s : State) (f : Fld) (v : Nat) : (s.put f v).pending = s.pending := rfl

/-! ### putFlag -/

@[simp] theorem State.putFlag_free (s : State) (f : Fld) (b : Bool) : (s.putFlag f b).free = s.free := rfl
@[simp] theorem State.putFlag_seq (s : State) (f : Fld) (b : Bool) : (s.putFlag f b).seq = s.seq := rfl
@[simp] theorem State.putFlag_time (s : State) (f : Fld) (b : Bool) : (s.putFlag f b).time = s.time := rfl
@[simp] theorem State.putFlag_locks (s : State) (f : Fld) (b : Bool) : (s.putFlag f b).locks = s.locks := rfl
@[simp] theorem State.putFlag_cords (s : State) (f : Fld) (b : Bool) : (s.putFlag f b).cords = s.cords := rfl
@[simp] theorem State.putFlag_triads (s : State) (f : Fld) (b : Bool) : (s.putFlag f b).triads = s.triads := rfl
@[simp] theorem State.putFlag_tlb (s : State) (f : Fld) (b : Bool) : (s.putFlag f b).tlb = s.tlb := rfl
@[simp] theorem State.putFlag_tlbi (s : State) (f : Fld) (b : Bool) : (s.putFlag f b).tlbi = s.tlbi := rfl
@[simp] theorem State.putFlag_l2 (s : State) (f : Fld) (b : Bool) : (s.putFlag f b).l2 = s.l2 := rfl
@[simp] theorem State.putFlag_ev (s : State) (f : Fld) (b : Bool) : (s.putFlag f b).ev = s.ev := rfl
@[simp] theorem State.putFlag_snoops (s : State) (f : Fld) (b : Bool) : (s.putFlag f b).snoops = s.snoops := rfl
@[simp] theorem State.putFlag_warp (s : State) (f : Fld) (b : Bool) : (s.putFlag f b).warp = s.warp := rfl
@[simp] theorem State.putFlag_dir (s : State) (f : Fld) (b : Bool) : (s.putFlag f b).dir = s.dir := rfl
@[simp] theorem State.putFlag_txns (s : State) (f : Fld) (b : Bool) : (s.putFlag f b).txns = s.txns := rfl
@[simp] theorem State.putFlag_evPend (s : State) (f : Fld) (b : Bool) : (s.putFlag f b).evPend = s.evPend := rfl
@[simp] theorem State.putFlag_owed (s : State) (f : Fld) (b : Bool) : (s.putFlag f b).owed = s.owed := rfl
@[simp] theorem State.putFlag_wants (s : State) (f : Fld) (b : Bool) : (s.putFlag f b).wants = s.wants := rfl
@[simp] theorem State.putFlag_net (s : State) (f : Fld) (b : Bool) : (s.putFlag f b).net = s.net := rfl
@[simp] theorem State.putFlag_mem (s : State) (f : Fld) (b : Bool) : (s.putFlag f b).mem = s.mem := rfl
@[simp] theorem State.putFlag_ctls (s : State) (f : Fld) (b : Bool) : (s.putFlag f b).ctls = s.ctls := rfl
@[simp] theorem State.putFlag_keys (s : State) (f : Fld) (b : Bool) : (s.putFlag f b).keys = s.keys := rfl
@[simp] theorem State.putFlag_keyNext (s : State) (f : Fld) (b : Bool) : (s.putFlag f b).keyNext = s.keyNext := rfl
@[simp] theorem State.putFlag_loom (s : State) (f : Fld) (b : Bool) : (s.putFlag f b).loom = s.loom := rfl
@[simp] theorem State.putFlag_chs (s : State) (f : Fld) (b : Bool) : (s.putFlag f b).chs = s.chs := rfl
@[simp] theorem State.putFlag_ports (s : State) (f : Fld) (b : Bool) : (s.putFlag f b).ports = s.ports := rfl
@[simp] theorem State.putFlag_eng (s : State) (f : Fld) (b : Bool) : (s.putFlag f b).eng = s.eng := rfl
@[simp] theorem State.putFlag_fcu (s : State) (f : Fld) (b : Bool) : (s.putFlag f b).fcu = s.fcu := rfl
@[simp] theorem State.putFlag_spl (s : State) (f : Fld) (b : Bool) : (s.putFlag f b).spl = s.spl := rfl
@[simp] theorem State.putFlag_pwr (s : State) (f : Fld) (b : Bool) : (s.putFlag f b).pwr = s.pwr := rfl
@[simp] theorem State.putFlag_boot (s : State) (f : Fld) (b : Bool) : (s.putFlag f b).boot = s.boot := rfl
@[simp] theorem State.putFlag_sec (s : State) (f : Fld) (b : Bool) : (s.putFlag f b).sec = s.sec := rfl
@[simp] theorem State.putFlag_i3c (s : State) (f : Fld) (b : Bool) : (s.putFlag f b).i3c = s.i3c := rfl
@[simp] theorem State.putFlag_rpl (s : State) (f : Fld) (b : Bool) : (s.putFlag f b).rpl = s.rpl := rfl
@[simp] theorem State.putFlag_pins (s : State) (f : Fld) (b : Bool) : (s.putFlag f b).pins = s.pins := rfl
@[simp] theorem State.putFlag_resp (s : State) (f : Fld) (b : Bool) : (s.putFlag f b).resp = s.resp := rfl
@[simp] theorem State.putFlag_pending (s : State) (f : Fld) (b : Bool) : (s.putFlag f b).pending = s.pending := rfl

/-! ### bump -/

@[simp] theorem State.bump_free (s : State) (f : Fld) (n : Nat) : (s.bump f n).free = s.free := rfl
@[simp] theorem State.bump_seq (s : State) (f : Fld) (n : Nat) : (s.bump f n).seq = s.seq := rfl
@[simp] theorem State.bump_time (s : State) (f : Fld) (n : Nat) : (s.bump f n).time = s.time := rfl
@[simp] theorem State.bump_locks (s : State) (f : Fld) (n : Nat) : (s.bump f n).locks = s.locks := rfl
@[simp] theorem State.bump_cords (s : State) (f : Fld) (n : Nat) : (s.bump f n).cords = s.cords := rfl
@[simp] theorem State.bump_triads (s : State) (f : Fld) (n : Nat) : (s.bump f n).triads = s.triads := rfl
@[simp] theorem State.bump_tlb (s : State) (f : Fld) (n : Nat) : (s.bump f n).tlb = s.tlb := rfl
@[simp] theorem State.bump_tlbi (s : State) (f : Fld) (n : Nat) : (s.bump f n).tlbi = s.tlbi := rfl
@[simp] theorem State.bump_l2 (s : State) (f : Fld) (n : Nat) : (s.bump f n).l2 = s.l2 := rfl
@[simp] theorem State.bump_ev (s : State) (f : Fld) (n : Nat) : (s.bump f n).ev = s.ev := rfl
@[simp] theorem State.bump_snoops (s : State) (f : Fld) (n : Nat) : (s.bump f n).snoops = s.snoops := rfl
@[simp] theorem State.bump_warp (s : State) (f : Fld) (n : Nat) : (s.bump f n).warp = s.warp := rfl
@[simp] theorem State.bump_dir (s : State) (f : Fld) (n : Nat) : (s.bump f n).dir = s.dir := rfl
@[simp] theorem State.bump_txns (s : State) (f : Fld) (n : Nat) : (s.bump f n).txns = s.txns := rfl
@[simp] theorem State.bump_evPend (s : State) (f : Fld) (n : Nat) : (s.bump f n).evPend = s.evPend := rfl
@[simp] theorem State.bump_owed (s : State) (f : Fld) (n : Nat) : (s.bump f n).owed = s.owed := rfl
@[simp] theorem State.bump_wants (s : State) (f : Fld) (n : Nat) : (s.bump f n).wants = s.wants := rfl
@[simp] theorem State.bump_net (s : State) (f : Fld) (n : Nat) : (s.bump f n).net = s.net := rfl
@[simp] theorem State.bump_mem (s : State) (f : Fld) (n : Nat) : (s.bump f n).mem = s.mem := rfl
@[simp] theorem State.bump_ctls (s : State) (f : Fld) (n : Nat) : (s.bump f n).ctls = s.ctls := rfl
@[simp] theorem State.bump_keys (s : State) (f : Fld) (n : Nat) : (s.bump f n).keys = s.keys := rfl
@[simp] theorem State.bump_keyNext (s : State) (f : Fld) (n : Nat) : (s.bump f n).keyNext = s.keyNext := rfl
@[simp] theorem State.bump_loom (s : State) (f : Fld) (n : Nat) : (s.bump f n).loom = s.loom := rfl
@[simp] theorem State.bump_chs (s : State) (f : Fld) (n : Nat) : (s.bump f n).chs = s.chs := rfl
@[simp] theorem State.bump_ports (s : State) (f : Fld) (n : Nat) : (s.bump f n).ports = s.ports := rfl
@[simp] theorem State.bump_eng (s : State) (f : Fld) (n : Nat) : (s.bump f n).eng = s.eng := rfl
@[simp] theorem State.bump_fcu (s : State) (f : Fld) (n : Nat) : (s.bump f n).fcu = s.fcu := rfl
@[simp] theorem State.bump_spl (s : State) (f : Fld) (n : Nat) : (s.bump f n).spl = s.spl := rfl
@[simp] theorem State.bump_pwr (s : State) (f : Fld) (n : Nat) : (s.bump f n).pwr = s.pwr := rfl
@[simp] theorem State.bump_boot (s : State) (f : Fld) (n : Nat) : (s.bump f n).boot = s.boot := rfl
@[simp] theorem State.bump_sec (s : State) (f : Fld) (n : Nat) : (s.bump f n).sec = s.sec := rfl
@[simp] theorem State.bump_i3c (s : State) (f : Fld) (n : Nat) : (s.bump f n).i3c = s.i3c := rfl
@[simp] theorem State.bump_rpl (s : State) (f : Fld) (n : Nat) : (s.bump f n).rpl = s.rpl := rfl
@[simp] theorem State.bump_pins (s : State) (f : Fld) (n : Nat) : (s.bump f n).pins = s.pins := rfl
@[simp] theorem State.bump_resp (s : State) (f : Fld) (n : Nat) : (s.bump f n).resp = s.resp := rfl
@[simp] theorem State.bump_pending (s : State) (f : Fld) (n : Nat) : (s.bump f n).pending = s.pending := rfl

/-! ### setCord -/

@[simp] theorem State.setCord_free (s : State) (c : Nat) (k : Core) : (s.setCord c k).free = s.free := rfl
@[simp] theorem State.setCord_seq (s : State) (c : Nat) (k : Core) : (s.setCord c k).seq = s.seq := rfl
@[simp] theorem State.setCord_time (s : State) (c : Nat) (k : Core) : (s.setCord c k).time = s.time := rfl
@[simp] theorem State.setCord_regs (s : State) (c : Nat) (k : Core) : (s.setCord c k).regs = s.regs := rfl
@[simp] theorem State.setCord_locks (s : State) (c : Nat) (k : Core) : (s.setCord c k).locks = s.locks := rfl
@[simp] theorem State.setCord_triads (s : State) (c : Nat) (k : Core) : (s.setCord c k).triads = s.triads := rfl
@[simp] theorem State.setCord_tlb (s : State) (c : Nat) (k : Core) : (s.setCord c k).tlb = s.tlb := rfl
@[simp] theorem State.setCord_tlbi (s : State) (c : Nat) (k : Core) : (s.setCord c k).tlbi = s.tlbi := rfl
@[simp] theorem State.setCord_l2 (s : State) (c : Nat) (k : Core) : (s.setCord c k).l2 = s.l2 := rfl
@[simp] theorem State.setCord_ev (s : State) (c : Nat) (k : Core) : (s.setCord c k).ev = s.ev := rfl
@[simp] theorem State.setCord_snoops (s : State) (c : Nat) (k : Core) : (s.setCord c k).snoops = s.snoops := rfl
@[simp] theorem State.setCord_warp (s : State) (c : Nat) (k : Core) : (s.setCord c k).warp = s.warp := rfl
@[simp] theorem State.setCord_dir (s : State) (c : Nat) (k : Core) : (s.setCord c k).dir = s.dir := rfl
@[simp] theorem State.setCord_txns (s : State) (c : Nat) (k : Core) : (s.setCord c k).txns = s.txns := rfl
@[simp] theorem State.setCord_evPend (s : State) (c : Nat) (k : Core) : (s.setCord c k).evPend = s.evPend := rfl
@[simp] theorem State.setCord_owed (s : State) (c : Nat) (k : Core) : (s.setCord c k).owed = s.owed := rfl
@[simp] theorem State.setCord_wants (s : State) (c : Nat) (k : Core) : (s.setCord c k).wants = s.wants := rfl
@[simp] theorem State.setCord_net (s : State) (c : Nat) (k : Core) : (s.setCord c k).net = s.net := rfl
@[simp] theorem State.setCord_mem (s : State) (c : Nat) (k : Core) : (s.setCord c k).mem = s.mem := rfl
@[simp] theorem State.setCord_ctls (s : State) (c : Nat) (k : Core) : (s.setCord c k).ctls = s.ctls := rfl
@[simp] theorem State.setCord_keys (s : State) (c : Nat) (k : Core) : (s.setCord c k).keys = s.keys := rfl
@[simp] theorem State.setCord_keyNext (s : State) (c : Nat) (k : Core) : (s.setCord c k).keyNext = s.keyNext := rfl
@[simp] theorem State.setCord_loom (s : State) (c : Nat) (k : Core) : (s.setCord c k).loom = s.loom := rfl
@[simp] theorem State.setCord_chs (s : State) (c : Nat) (k : Core) : (s.setCord c k).chs = s.chs := rfl
@[simp] theorem State.setCord_ports (s : State) (c : Nat) (k : Core) : (s.setCord c k).ports = s.ports := rfl
@[simp] theorem State.setCord_eng (s : State) (c : Nat) (k : Core) : (s.setCord c k).eng = s.eng := rfl
@[simp] theorem State.setCord_fcu (s : State) (c : Nat) (k : Core) : (s.setCord c k).fcu = s.fcu := rfl
@[simp] theorem State.setCord_spl (s : State) (c : Nat) (k : Core) : (s.setCord c k).spl = s.spl := rfl
@[simp] theorem State.setCord_pwr (s : State) (c : Nat) (k : Core) : (s.setCord c k).pwr = s.pwr := rfl
@[simp] theorem State.setCord_boot (s : State) (c : Nat) (k : Core) : (s.setCord c k).boot = s.boot := rfl
@[simp] theorem State.setCord_sec (s : State) (c : Nat) (k : Core) : (s.setCord c k).sec = s.sec := rfl
@[simp] theorem State.setCord_i3c (s : State) (c : Nat) (k : Core) : (s.setCord c k).i3c = s.i3c := rfl
@[simp] theorem State.setCord_rpl (s : State) (c : Nat) (k : Core) : (s.setCord c k).rpl = s.rpl := rfl
@[simp] theorem State.setCord_pins (s : State) (c : Nat) (k : Core) : (s.setCord c k).pins = s.pins := rfl
@[simp] theorem State.setCord_resp (s : State) (c : Nat) (k : Core) : (s.setCord c k).resp = s.resp := rfl
@[simp] theorem State.setCord_pending (s : State) (c : Nat) (k : Core) : (s.setCord c k).pending = s.pending := rfl

/-! ### modCord -/

@[simp] theorem State.modCord_free (s : State) (c : Nat) (g : Core → Core) : (s.modCord c g).free = s.free := rfl
@[simp] theorem State.modCord_seq (s : State) (c : Nat) (g : Core → Core) : (s.modCord c g).seq = s.seq := rfl
@[simp] theorem State.modCord_time (s : State) (c : Nat) (g : Core → Core) : (s.modCord c g).time = s.time := rfl
@[simp] theorem State.modCord_regs (s : State) (c : Nat) (g : Core → Core) : (s.modCord c g).regs = s.regs := rfl
@[simp] theorem State.modCord_locks (s : State) (c : Nat) (g : Core → Core) : (s.modCord c g).locks = s.locks := rfl
@[simp] theorem State.modCord_triads (s : State) (c : Nat) (g : Core → Core) : (s.modCord c g).triads = s.triads := rfl
@[simp] theorem State.modCord_tlb (s : State) (c : Nat) (g : Core → Core) : (s.modCord c g).tlb = s.tlb := rfl
@[simp] theorem State.modCord_tlbi (s : State) (c : Nat) (g : Core → Core) : (s.modCord c g).tlbi = s.tlbi := rfl
@[simp] theorem State.modCord_l2 (s : State) (c : Nat) (g : Core → Core) : (s.modCord c g).l2 = s.l2 := rfl
@[simp] theorem State.modCord_ev (s : State) (c : Nat) (g : Core → Core) : (s.modCord c g).ev = s.ev := rfl
@[simp] theorem State.modCord_snoops (s : State) (c : Nat) (g : Core → Core) : (s.modCord c g).snoops = s.snoops := rfl
@[simp] theorem State.modCord_warp (s : State) (c : Nat) (g : Core → Core) : (s.modCord c g).warp = s.warp := rfl
@[simp] theorem State.modCord_dir (s : State) (c : Nat) (g : Core → Core) : (s.modCord c g).dir = s.dir := rfl
@[simp] theorem State.modCord_txns (s : State) (c : Nat) (g : Core → Core) : (s.modCord c g).txns = s.txns := rfl
@[simp] theorem State.modCord_evPend (s : State) (c : Nat) (g : Core → Core) : (s.modCord c g).evPend = s.evPend := rfl
@[simp] theorem State.modCord_owed (s : State) (c : Nat) (g : Core → Core) : (s.modCord c g).owed = s.owed := rfl
@[simp] theorem State.modCord_wants (s : State) (c : Nat) (g : Core → Core) : (s.modCord c g).wants = s.wants := rfl
@[simp] theorem State.modCord_net (s : State) (c : Nat) (g : Core → Core) : (s.modCord c g).net = s.net := rfl
@[simp] theorem State.modCord_mem (s : State) (c : Nat) (g : Core → Core) : (s.modCord c g).mem = s.mem := rfl
@[simp] theorem State.modCord_ctls (s : State) (c : Nat) (g : Core → Core) : (s.modCord c g).ctls = s.ctls := rfl
@[simp] theorem State.modCord_keys (s : State) (c : Nat) (g : Core → Core) : (s.modCord c g).keys = s.keys := rfl
@[simp] theorem State.modCord_keyNext (s : State) (c : Nat) (g : Core → Core) : (s.modCord c g).keyNext = s.keyNext := rfl
@[simp] theorem State.modCord_loom (s : State) (c : Nat) (g : Core → Core) : (s.modCord c g).loom = s.loom := rfl
@[simp] theorem State.modCord_chs (s : State) (c : Nat) (g : Core → Core) : (s.modCord c g).chs = s.chs := rfl
@[simp] theorem State.modCord_ports (s : State) (c : Nat) (g : Core → Core) : (s.modCord c g).ports = s.ports := rfl
@[simp] theorem State.modCord_eng (s : State) (c : Nat) (g : Core → Core) : (s.modCord c g).eng = s.eng := rfl
@[simp] theorem State.modCord_fcu (s : State) (c : Nat) (g : Core → Core) : (s.modCord c g).fcu = s.fcu := rfl
@[simp] theorem State.modCord_spl (s : State) (c : Nat) (g : Core → Core) : (s.modCord c g).spl = s.spl := rfl
@[simp] theorem State.modCord_pwr (s : State) (c : Nat) (g : Core → Core) : (s.modCord c g).pwr = s.pwr := rfl
@[simp] theorem State.modCord_boot (s : State) (c : Nat) (g : Core → Core) : (s.modCord c g).boot = s.boot := rfl
@[simp] theorem State.modCord_sec (s : State) (c : Nat) (g : Core → Core) : (s.modCord c g).sec = s.sec := rfl
@[simp] theorem State.modCord_i3c (s : State) (c : Nat) (g : Core → Core) : (s.modCord c g).i3c = s.i3c := rfl
@[simp] theorem State.modCord_rpl (s : State) (c : Nat) (g : Core → Core) : (s.modCord c g).rpl = s.rpl := rfl
@[simp] theorem State.modCord_pins (s : State) (c : Nat) (g : Core → Core) : (s.modCord c g).pins = s.pins := rfl
@[simp] theorem State.modCord_resp (s : State) (c : Nat) (g : Core → Core) : (s.modCord c g).resp = s.resp := rfl
@[simp] theorem State.modCord_pending (s : State) (c : Nat) (g : Core → Core) : (s.modCord c g).pending = s.pending := rfl

/-! ### modTriad -/

@[simp] theorem State.modTriad_free (s : State) (t : Nat) (g : Triad → Triad) : (s.modTriad t g).free = s.free := rfl
@[simp] theorem State.modTriad_seq (s : State) (t : Nat) (g : Triad → Triad) : (s.modTriad t g).seq = s.seq := rfl
@[simp] theorem State.modTriad_time (s : State) (t : Nat) (g : Triad → Triad) : (s.modTriad t g).time = s.time := rfl
@[simp] theorem State.modTriad_regs (s : State) (t : Nat) (g : Triad → Triad) : (s.modTriad t g).regs = s.regs := rfl
@[simp] theorem State.modTriad_locks (s : State) (t : Nat) (g : Triad → Triad) : (s.modTriad t g).locks = s.locks := rfl
@[simp] theorem State.modTriad_cords (s : State) (t : Nat) (g : Triad → Triad) : (s.modTriad t g).cords = s.cords := rfl
@[simp] theorem State.modTriad_tlb (s : State) (t : Nat) (g : Triad → Triad) : (s.modTriad t g).tlb = s.tlb := rfl
@[simp] theorem State.modTriad_tlbi (s : State) (t : Nat) (g : Triad → Triad) : (s.modTriad t g).tlbi = s.tlbi := rfl
@[simp] theorem State.modTriad_l2 (s : State) (t : Nat) (g : Triad → Triad) : (s.modTriad t g).l2 = s.l2 := rfl
@[simp] theorem State.modTriad_ev (s : State) (t : Nat) (g : Triad → Triad) : (s.modTriad t g).ev = s.ev := rfl
@[simp] theorem State.modTriad_snoops (s : State) (t : Nat) (g : Triad → Triad) : (s.modTriad t g).snoops = s.snoops := rfl
@[simp] theorem State.modTriad_warp (s : State) (t : Nat) (g : Triad → Triad) : (s.modTriad t g).warp = s.warp := rfl
@[simp] theorem State.modTriad_dir (s : State) (t : Nat) (g : Triad → Triad) : (s.modTriad t g).dir = s.dir := rfl
@[simp] theorem State.modTriad_txns (s : State) (t : Nat) (g : Triad → Triad) : (s.modTriad t g).txns = s.txns := rfl
@[simp] theorem State.modTriad_evPend (s : State) (t : Nat) (g : Triad → Triad) : (s.modTriad t g).evPend = s.evPend := rfl
@[simp] theorem State.modTriad_owed (s : State) (t : Nat) (g : Triad → Triad) : (s.modTriad t g).owed = s.owed := rfl
@[simp] theorem State.modTriad_wants (s : State) (t : Nat) (g : Triad → Triad) : (s.modTriad t g).wants = s.wants := rfl
@[simp] theorem State.modTriad_net (s : State) (t : Nat) (g : Triad → Triad) : (s.modTriad t g).net = s.net := rfl
@[simp] theorem State.modTriad_mem (s : State) (t : Nat) (g : Triad → Triad) : (s.modTriad t g).mem = s.mem := rfl
@[simp] theorem State.modTriad_ctls (s : State) (t : Nat) (g : Triad → Triad) : (s.modTriad t g).ctls = s.ctls := rfl
@[simp] theorem State.modTriad_keys (s : State) (t : Nat) (g : Triad → Triad) : (s.modTriad t g).keys = s.keys := rfl
@[simp] theorem State.modTriad_keyNext (s : State) (t : Nat) (g : Triad → Triad) : (s.modTriad t g).keyNext = s.keyNext := rfl
@[simp] theorem State.modTriad_loom (s : State) (t : Nat) (g : Triad → Triad) : (s.modTriad t g).loom = s.loom := rfl
@[simp] theorem State.modTriad_chs (s : State) (t : Nat) (g : Triad → Triad) : (s.modTriad t g).chs = s.chs := rfl
@[simp] theorem State.modTriad_ports (s : State) (t : Nat) (g : Triad → Triad) : (s.modTriad t g).ports = s.ports := rfl
@[simp] theorem State.modTriad_eng (s : State) (t : Nat) (g : Triad → Triad) : (s.modTriad t g).eng = s.eng := rfl
@[simp] theorem State.modTriad_fcu (s : State) (t : Nat) (g : Triad → Triad) : (s.modTriad t g).fcu = s.fcu := rfl
@[simp] theorem State.modTriad_spl (s : State) (t : Nat) (g : Triad → Triad) : (s.modTriad t g).spl = s.spl := rfl
@[simp] theorem State.modTriad_pwr (s : State) (t : Nat) (g : Triad → Triad) : (s.modTriad t g).pwr = s.pwr := rfl
@[simp] theorem State.modTriad_boot (s : State) (t : Nat) (g : Triad → Triad) : (s.modTriad t g).boot = s.boot := rfl
@[simp] theorem State.modTriad_sec (s : State) (t : Nat) (g : Triad → Triad) : (s.modTriad t g).sec = s.sec := rfl
@[simp] theorem State.modTriad_i3c (s : State) (t : Nat) (g : Triad → Triad) : (s.modTriad t g).i3c = s.i3c := rfl
@[simp] theorem State.modTriad_rpl (s : State) (t : Nat) (g : Triad → Triad) : (s.modTriad t g).rpl = s.rpl := rfl
@[simp] theorem State.modTriad_pins (s : State) (t : Nat) (g : Triad → Triad) : (s.modTriad t g).pins = s.pins := rfl
@[simp] theorem State.modTriad_resp (s : State) (t : Nat) (g : Triad → Triad) : (s.modTriad t g).resp = s.resp := rfl
@[simp] theorem State.modTriad_pending (s : State) (t : Nat) (g : Triad → Triad) : (s.modTriad t g).pending = s.pending := rfl

/-! ### modPort -/

@[simp] theorem State.modPort_free (s : State) (p : Nat) (g : Port → Port) : (s.modPort p g).free = s.free := rfl
@[simp] theorem State.modPort_seq (s : State) (p : Nat) (g : Port → Port) : (s.modPort p g).seq = s.seq := rfl
@[simp] theorem State.modPort_time (s : State) (p : Nat) (g : Port → Port) : (s.modPort p g).time = s.time := rfl
@[simp] theorem State.modPort_regs (s : State) (p : Nat) (g : Port → Port) : (s.modPort p g).regs = s.regs := rfl
@[simp] theorem State.modPort_locks (s : State) (p : Nat) (g : Port → Port) : (s.modPort p g).locks = s.locks := rfl
@[simp] theorem State.modPort_cords (s : State) (p : Nat) (g : Port → Port) : (s.modPort p g).cords = s.cords := rfl
@[simp] theorem State.modPort_triads (s : State) (p : Nat) (g : Port → Port) : (s.modPort p g).triads = s.triads := rfl
@[simp] theorem State.modPort_tlb (s : State) (p : Nat) (g : Port → Port) : (s.modPort p g).tlb = s.tlb := rfl
@[simp] theorem State.modPort_tlbi (s : State) (p : Nat) (g : Port → Port) : (s.modPort p g).tlbi = s.tlbi := rfl
@[simp] theorem State.modPort_l2 (s : State) (p : Nat) (g : Port → Port) : (s.modPort p g).l2 = s.l2 := rfl
@[simp] theorem State.modPort_ev (s : State) (p : Nat) (g : Port → Port) : (s.modPort p g).ev = s.ev := rfl
@[simp] theorem State.modPort_snoops (s : State) (p : Nat) (g : Port → Port) : (s.modPort p g).snoops = s.snoops := rfl
@[simp] theorem State.modPort_warp (s : State) (p : Nat) (g : Port → Port) : (s.modPort p g).warp = s.warp := rfl
@[simp] theorem State.modPort_dir (s : State) (p : Nat) (g : Port → Port) : (s.modPort p g).dir = s.dir := rfl
@[simp] theorem State.modPort_txns (s : State) (p : Nat) (g : Port → Port) : (s.modPort p g).txns = s.txns := rfl
@[simp] theorem State.modPort_evPend (s : State) (p : Nat) (g : Port → Port) : (s.modPort p g).evPend = s.evPend := rfl
@[simp] theorem State.modPort_owed (s : State) (p : Nat) (g : Port → Port) : (s.modPort p g).owed = s.owed := rfl
@[simp] theorem State.modPort_wants (s : State) (p : Nat) (g : Port → Port) : (s.modPort p g).wants = s.wants := rfl
@[simp] theorem State.modPort_net (s : State) (p : Nat) (g : Port → Port) : (s.modPort p g).net = s.net := rfl
@[simp] theorem State.modPort_mem (s : State) (p : Nat) (g : Port → Port) : (s.modPort p g).mem = s.mem := rfl
@[simp] theorem State.modPort_ctls (s : State) (p : Nat) (g : Port → Port) : (s.modPort p g).ctls = s.ctls := rfl
@[simp] theorem State.modPort_keys (s : State) (p : Nat) (g : Port → Port) : (s.modPort p g).keys = s.keys := rfl
@[simp] theorem State.modPort_keyNext (s : State) (p : Nat) (g : Port → Port) : (s.modPort p g).keyNext = s.keyNext := rfl
@[simp] theorem State.modPort_loom (s : State) (p : Nat) (g : Port → Port) : (s.modPort p g).loom = s.loom := rfl
@[simp] theorem State.modPort_chs (s : State) (p : Nat) (g : Port → Port) : (s.modPort p g).chs = s.chs := rfl
@[simp] theorem State.modPort_eng (s : State) (p : Nat) (g : Port → Port) : (s.modPort p g).eng = s.eng := rfl
@[simp] theorem State.modPort_fcu (s : State) (p : Nat) (g : Port → Port) : (s.modPort p g).fcu = s.fcu := rfl
@[simp] theorem State.modPort_spl (s : State) (p : Nat) (g : Port → Port) : (s.modPort p g).spl = s.spl := rfl
@[simp] theorem State.modPort_pwr (s : State) (p : Nat) (g : Port → Port) : (s.modPort p g).pwr = s.pwr := rfl
@[simp] theorem State.modPort_boot (s : State) (p : Nat) (g : Port → Port) : (s.modPort p g).boot = s.boot := rfl
@[simp] theorem State.modPort_sec (s : State) (p : Nat) (g : Port → Port) : (s.modPort p g).sec = s.sec := rfl
@[simp] theorem State.modPort_i3c (s : State) (p : Nat) (g : Port → Port) : (s.modPort p g).i3c = s.i3c := rfl
@[simp] theorem State.modPort_rpl (s : State) (p : Nat) (g : Port → Port) : (s.modPort p g).rpl = s.rpl := rfl
@[simp] theorem State.modPort_pins (s : State) (p : Nat) (g : Port → Port) : (s.modPort p g).pins = s.pins := rfl
@[simp] theorem State.modPort_resp (s : State) (p : Nat) (g : Port → Port) : (s.modPort p g).resp = s.resp := rfl
@[simp] theorem State.modPort_pending (s : State) (p : Nat) (g : Port → Port) : (s.modPort p g).pending = s.pending := rfl

/-! ### modCtl -/

@[simp] theorem State.modCtl_free (s : State) (h : Nat) (g : Ctl → Ctl) : (s.modCtl h g).free = s.free := rfl
@[simp] theorem State.modCtl_seq (s : State) (h : Nat) (g : Ctl → Ctl) : (s.modCtl h g).seq = s.seq := rfl
@[simp] theorem State.modCtl_time (s : State) (h : Nat) (g : Ctl → Ctl) : (s.modCtl h g).time = s.time := rfl
@[simp] theorem State.modCtl_regs (s : State) (h : Nat) (g : Ctl → Ctl) : (s.modCtl h g).regs = s.regs := rfl
@[simp] theorem State.modCtl_locks (s : State) (h : Nat) (g : Ctl → Ctl) : (s.modCtl h g).locks = s.locks := rfl
@[simp] theorem State.modCtl_cords (s : State) (h : Nat) (g : Ctl → Ctl) : (s.modCtl h g).cords = s.cords := rfl
@[simp] theorem State.modCtl_triads (s : State) (h : Nat) (g : Ctl → Ctl) : (s.modCtl h g).triads = s.triads := rfl
@[simp] theorem State.modCtl_tlb (s : State) (h : Nat) (g : Ctl → Ctl) : (s.modCtl h g).tlb = s.tlb := rfl
@[simp] theorem State.modCtl_tlbi (s : State) (h : Nat) (g : Ctl → Ctl) : (s.modCtl h g).tlbi = s.tlbi := rfl
@[simp] theorem State.modCtl_l2 (s : State) (h : Nat) (g : Ctl → Ctl) : (s.modCtl h g).l2 = s.l2 := rfl
@[simp] theorem State.modCtl_ev (s : State) (h : Nat) (g : Ctl → Ctl) : (s.modCtl h g).ev = s.ev := rfl
@[simp] theorem State.modCtl_snoops (s : State) (h : Nat) (g : Ctl → Ctl) : (s.modCtl h g).snoops = s.snoops := rfl
@[simp] theorem State.modCtl_warp (s : State) (h : Nat) (g : Ctl → Ctl) : (s.modCtl h g).warp = s.warp := rfl
@[simp] theorem State.modCtl_dir (s : State) (h : Nat) (g : Ctl → Ctl) : (s.modCtl h g).dir = s.dir := rfl
@[simp] theorem State.modCtl_txns (s : State) (h : Nat) (g : Ctl → Ctl) : (s.modCtl h g).txns = s.txns := rfl
@[simp] theorem State.modCtl_evPend (s : State) (h : Nat) (g : Ctl → Ctl) : (s.modCtl h g).evPend = s.evPend := rfl
@[simp] theorem State.modCtl_owed (s : State) (h : Nat) (g : Ctl → Ctl) : (s.modCtl h g).owed = s.owed := rfl
@[simp] theorem State.modCtl_wants (s : State) (h : Nat) (g : Ctl → Ctl) : (s.modCtl h g).wants = s.wants := rfl
@[simp] theorem State.modCtl_net (s : State) (h : Nat) (g : Ctl → Ctl) : (s.modCtl h g).net = s.net := rfl
@[simp] theorem State.modCtl_mem (s : State) (h : Nat) (g : Ctl → Ctl) : (s.modCtl h g).mem = s.mem := rfl
@[simp] theorem State.modCtl_keys (s : State) (h : Nat) (g : Ctl → Ctl) : (s.modCtl h g).keys = s.keys := rfl
@[simp] theorem State.modCtl_keyNext (s : State) (h : Nat) (g : Ctl → Ctl) : (s.modCtl h g).keyNext = s.keyNext := rfl
@[simp] theorem State.modCtl_loom (s : State) (h : Nat) (g : Ctl → Ctl) : (s.modCtl h g).loom = s.loom := rfl
@[simp] theorem State.modCtl_chs (s : State) (h : Nat) (g : Ctl → Ctl) : (s.modCtl h g).chs = s.chs := rfl
@[simp] theorem State.modCtl_ports (s : State) (h : Nat) (g : Ctl → Ctl) : (s.modCtl h g).ports = s.ports := rfl
@[simp] theorem State.modCtl_eng (s : State) (h : Nat) (g : Ctl → Ctl) : (s.modCtl h g).eng = s.eng := rfl
@[simp] theorem State.modCtl_fcu (s : State) (h : Nat) (g : Ctl → Ctl) : (s.modCtl h g).fcu = s.fcu := rfl
@[simp] theorem State.modCtl_spl (s : State) (h : Nat) (g : Ctl → Ctl) : (s.modCtl h g).spl = s.spl := rfl
@[simp] theorem State.modCtl_pwr (s : State) (h : Nat) (g : Ctl → Ctl) : (s.modCtl h g).pwr = s.pwr := rfl
@[simp] theorem State.modCtl_boot (s : State) (h : Nat) (g : Ctl → Ctl) : (s.modCtl h g).boot = s.boot := rfl
@[simp] theorem State.modCtl_sec (s : State) (h : Nat) (g : Ctl → Ctl) : (s.modCtl h g).sec = s.sec := rfl
@[simp] theorem State.modCtl_i3c (s : State) (h : Nat) (g : Ctl → Ctl) : (s.modCtl h g).i3c = s.i3c := rfl
@[simp] theorem State.modCtl_rpl (s : State) (h : Nat) (g : Ctl → Ctl) : (s.modCtl h g).rpl = s.rpl := rfl
@[simp] theorem State.modCtl_pins (s : State) (h : Nat) (g : Ctl → Ctl) : (s.modCtl h g).pins = s.pins := rfl
@[simp] theorem State.modCtl_resp (s : State) (h : Nat) (g : Ctl → Ctl) : (s.modCtl h g).resp = s.resp := rfl
@[simp] theorem State.modCtl_pending (s : State) (h : Nat) (g : Ctl → Ctl) : (s.modCtl h g).pending = s.pending := rfl

/-! ### setShut -/

@[simp] theorem State.setShut_free (s : State) (n : Nat) (x : Shut) : (s.setShut n x).free = s.free := rfl
@[simp] theorem State.setShut_seq (s : State) (n : Nat) (x : Shut) : (s.setShut n x).seq = s.seq := rfl
@[simp] theorem State.setShut_time (s : State) (n : Nat) (x : Shut) : (s.setShut n x).time = s.time := rfl
@[simp] theorem State.setShut_regs (s : State) (n : Nat) (x : Shut) : (s.setShut n x).regs = s.regs := rfl
@[simp] theorem State.setShut_locks (s : State) (n : Nat) (x : Shut) : (s.setShut n x).locks = s.locks := rfl
@[simp] theorem State.setShut_cords (s : State) (n : Nat) (x : Shut) : (s.setShut n x).cords = s.cords := rfl
@[simp] theorem State.setShut_triads (s : State) (n : Nat) (x : Shut) : (s.setShut n x).triads = s.triads := rfl
@[simp] theorem State.setShut_tlb (s : State) (n : Nat) (x : Shut) : (s.setShut n x).tlb = s.tlb := rfl
@[simp] theorem State.setShut_tlbi (s : State) (n : Nat) (x : Shut) : (s.setShut n x).tlbi = s.tlbi := rfl
@[simp] theorem State.setShut_l2 (s : State) (n : Nat) (x : Shut) : (s.setShut n x).l2 = s.l2 := rfl
@[simp] theorem State.setShut_ev (s : State) (n : Nat) (x : Shut) : (s.setShut n x).ev = s.ev := rfl
@[simp] theorem State.setShut_snoops (s : State) (n : Nat) (x : Shut) : (s.setShut n x).snoops = s.snoops := rfl
@[simp] theorem State.setShut_warp (s : State) (n : Nat) (x : Shut) : (s.setShut n x).warp = s.warp := rfl
@[simp] theorem State.setShut_dir (s : State) (n : Nat) (x : Shut) : (s.setShut n x).dir = s.dir := rfl
@[simp] theorem State.setShut_txns (s : State) (n : Nat) (x : Shut) : (s.setShut n x).txns = s.txns := rfl
@[simp] theorem State.setShut_evPend (s : State) (n : Nat) (x : Shut) : (s.setShut n x).evPend = s.evPend := rfl
@[simp] theorem State.setShut_owed (s : State) (n : Nat) (x : Shut) : (s.setShut n x).owed = s.owed := rfl
@[simp] theorem State.setShut_wants (s : State) (n : Nat) (x : Shut) : (s.setShut n x).wants = s.wants := rfl
@[simp] theorem State.setShut_net (s : State) (n : Nat) (x : Shut) : (s.setShut n x).net = s.net := rfl
@[simp] theorem State.setShut_mem (s : State) (n : Nat) (x : Shut) : (s.setShut n x).mem = s.mem := rfl
@[simp] theorem State.setShut_ctls (s : State) (n : Nat) (x : Shut) : (s.setShut n x).ctls = s.ctls := rfl
@[simp] theorem State.setShut_keys (s : State) (n : Nat) (x : Shut) : (s.setShut n x).keys = s.keys := rfl
@[simp] theorem State.setShut_keyNext (s : State) (n : Nat) (x : Shut) : (s.setShut n x).keyNext = s.keyNext := rfl
@[simp] theorem State.setShut_loom (s : State) (n : Nat) (x : Shut) : (s.setShut n x).loom = s.loom := rfl
@[simp] theorem State.setShut_ports (s : State) (n : Nat) (x : Shut) : (s.setShut n x).ports = s.ports := rfl
@[simp] theorem State.setShut_eng (s : State) (n : Nat) (x : Shut) : (s.setShut n x).eng = s.eng := rfl
@[simp] theorem State.setShut_fcu (s : State) (n : Nat) (x : Shut) : (s.setShut n x).fcu = s.fcu := rfl
@[simp] theorem State.setShut_spl (s : State) (n : Nat) (x : Shut) : (s.setShut n x).spl = s.spl := rfl
@[simp] theorem State.setShut_pwr (s : State) (n : Nat) (x : Shut) : (s.setShut n x).pwr = s.pwr := rfl
@[simp] theorem State.setShut_boot (s : State) (n : Nat) (x : Shut) : (s.setShut n x).boot = s.boot := rfl
@[simp] theorem State.setShut_sec (s : State) (n : Nat) (x : Shut) : (s.setShut n x).sec = s.sec := rfl
@[simp] theorem State.setShut_i3c (s : State) (n : Nat) (x : Shut) : (s.setShut n x).i3c = s.i3c := rfl
@[simp] theorem State.setShut_rpl (s : State) (n : Nat) (x : Shut) : (s.setShut n x).rpl = s.rpl := rfl
@[simp] theorem State.setShut_pins (s : State) (n : Nat) (x : Shut) : (s.setShut n x).pins = s.pins := rfl
@[simp] theorem State.setShut_resp (s : State) (n : Nat) (x : Shut) : (s.setShut n x).resp = s.resp := rfl
@[simp] theorem State.setShut_pending (s : State) (n : Nat) (x : Shut) : (s.setShut n x).pending = s.pending := rfl

/-! ### modShut -/

@[simp] theorem State.modShut_free (s : State) (n : Nat) (g : Shut → Shut) : (s.modShut n g).free = s.free := rfl
@[simp] theorem State.modShut_seq (s : State) (n : Nat) (g : Shut → Shut) : (s.modShut n g).seq = s.seq := rfl
@[simp] theorem State.modShut_time (s : State) (n : Nat) (g : Shut → Shut) : (s.modShut n g).time = s.time := rfl
@[simp] theorem State.modShut_regs (s : State) (n : Nat) (g : Shut → Shut) : (s.modShut n g).regs = s.regs := rfl
@[simp] theorem State.modShut_locks (s : State) (n : Nat) (g : Shut → Shut) : (s.modShut n g).locks = s.locks := rfl
@[simp] theorem State.modShut_cords (s : State) (n : Nat) (g : Shut → Shut) : (s.modShut n g).cords = s.cords := rfl
@[simp] theorem State.modShut_triads (s : State) (n : Nat) (g : Shut → Shut) : (s.modShut n g).triads = s.triads := rfl
@[simp] theorem State.modShut_tlb (s : State) (n : Nat) (g : Shut → Shut) : (s.modShut n g).tlb = s.tlb := rfl
@[simp] theorem State.modShut_tlbi (s : State) (n : Nat) (g : Shut → Shut) : (s.modShut n g).tlbi = s.tlbi := rfl
@[simp] theorem State.modShut_l2 (s : State) (n : Nat) (g : Shut → Shut) : (s.modShut n g).l2 = s.l2 := rfl
@[simp] theorem State.modShut_ev (s : State) (n : Nat) (g : Shut → Shut) : (s.modShut n g).ev = s.ev := rfl
@[simp] theorem State.modShut_snoops (s : State) (n : Nat) (g : Shut → Shut) : (s.modShut n g).snoops = s.snoops := rfl
@[simp] theorem State.modShut_warp (s : State) (n : Nat) (g : Shut → Shut) : (s.modShut n g).warp = s.warp := rfl
@[simp] theorem State.modShut_dir (s : State) (n : Nat) (g : Shut → Shut) : (s.modShut n g).dir = s.dir := rfl
@[simp] theorem State.modShut_txns (s : State) (n : Nat) (g : Shut → Shut) : (s.modShut n g).txns = s.txns := rfl
@[simp] theorem State.modShut_evPend (s : State) (n : Nat) (g : Shut → Shut) : (s.modShut n g).evPend = s.evPend := rfl
@[simp] theorem State.modShut_owed (s : State) (n : Nat) (g : Shut → Shut) : (s.modShut n g).owed = s.owed := rfl
@[simp] theorem State.modShut_wants (s : State) (n : Nat) (g : Shut → Shut) : (s.modShut n g).wants = s.wants := rfl
@[simp] theorem State.modShut_net (s : State) (n : Nat) (g : Shut → Shut) : (s.modShut n g).net = s.net := rfl
@[simp] theorem State.modShut_mem (s : State) (n : Nat) (g : Shut → Shut) : (s.modShut n g).mem = s.mem := rfl
@[simp] theorem State.modShut_ctls (s : State) (n : Nat) (g : Shut → Shut) : (s.modShut n g).ctls = s.ctls := rfl
@[simp] theorem State.modShut_keys (s : State) (n : Nat) (g : Shut → Shut) : (s.modShut n g).keys = s.keys := rfl
@[simp] theorem State.modShut_keyNext (s : State) (n : Nat) (g : Shut → Shut) : (s.modShut n g).keyNext = s.keyNext := rfl
@[simp] theorem State.modShut_loom (s : State) (n : Nat) (g : Shut → Shut) : (s.modShut n g).loom = s.loom := rfl
@[simp] theorem State.modShut_ports (s : State) (n : Nat) (g : Shut → Shut) : (s.modShut n g).ports = s.ports := rfl
@[simp] theorem State.modShut_eng (s : State) (n : Nat) (g : Shut → Shut) : (s.modShut n g).eng = s.eng := rfl
@[simp] theorem State.modShut_fcu (s : State) (n : Nat) (g : Shut → Shut) : (s.modShut n g).fcu = s.fcu := rfl
@[simp] theorem State.modShut_spl (s : State) (n : Nat) (g : Shut → Shut) : (s.modShut n g).spl = s.spl := rfl
@[simp] theorem State.modShut_pwr (s : State) (n : Nat) (g : Shut → Shut) : (s.modShut n g).pwr = s.pwr := rfl
@[simp] theorem State.modShut_boot (s : State) (n : Nat) (g : Shut → Shut) : (s.modShut n g).boot = s.boot := rfl
@[simp] theorem State.modShut_sec (s : State) (n : Nat) (g : Shut → Shut) : (s.modShut n g).sec = s.sec := rfl
@[simp] theorem State.modShut_i3c (s : State) (n : Nat) (g : Shut → Shut) : (s.modShut n g).i3c = s.i3c := rfl
@[simp] theorem State.modShut_rpl (s : State) (n : Nat) (g : Shut → Shut) : (s.modShut n g).rpl = s.rpl := rfl
@[simp] theorem State.modShut_pins (s : State) (n : Nat) (g : Shut → Shut) : (s.modShut n g).pins = s.pins := rfl
@[simp] theorem State.modShut_resp (s : State) (n : Nat) (g : Shut → Shut) : (s.modShut n g).resp = s.resp := rfl
@[simp] theorem State.modShut_pending (s : State) (n : Nat) (g : Shut → Shut) : (s.modShut n g).pending = s.pending := rfl

/-! ### send -/

@[simp] theorem State.send_free (s : State) (m : Msg) : (s.send m).free = s.free := rfl
@[simp] theorem State.send_seq (s : State) (m : Msg) : (s.send m).seq = s.seq := rfl
@[simp] theorem State.send_time (s : State) (m : Msg) : (s.send m).time = s.time := rfl
@[simp] theorem State.send_regs (s : State) (m : Msg) : (s.send m).regs = s.regs := rfl
@[simp] theorem State.send_locks (s : State) (m : Msg) : (s.send m).locks = s.locks := rfl
@[simp] theorem State.send_cords (s : State) (m : Msg) : (s.send m).cords = s.cords := rfl
@[simp] theorem State.send_triads (s : State) (m : Msg) : (s.send m).triads = s.triads := rfl
@[simp] theorem State.send_tlb (s : State) (m : Msg) : (s.send m).tlb = s.tlb := rfl
@[simp] theorem State.send_tlbi (s : State) (m : Msg) : (s.send m).tlbi = s.tlbi := rfl
@[simp] theorem State.send_l2 (s : State) (m : Msg) : (s.send m).l2 = s.l2 := rfl
@[simp] theorem State.send_ev (s : State) (m : Msg) : (s.send m).ev = s.ev := rfl
@[simp] theorem State.send_snoops (s : State) (m : Msg) : (s.send m).snoops = s.snoops := rfl
@[simp] theorem State.send_warp (s : State) (m : Msg) : (s.send m).warp = s.warp := rfl
@[simp] theorem State.send_dir (s : State) (m : Msg) : (s.send m).dir = s.dir := rfl
@[simp] theorem State.send_txns (s : State) (m : Msg) : (s.send m).txns = s.txns := rfl
@[simp] theorem State.send_evPend (s : State) (m : Msg) : (s.send m).evPend = s.evPend := rfl
@[simp] theorem State.send_owed (s : State) (m : Msg) : (s.send m).owed = s.owed := rfl
@[simp] theorem State.send_wants (s : State) (m : Msg) : (s.send m).wants = s.wants := rfl
@[simp] theorem State.send_mem (s : State) (m : Msg) : (s.send m).mem = s.mem := rfl
@[simp] theorem State.send_ctls (s : State) (m : Msg) : (s.send m).ctls = s.ctls := rfl
@[simp] theorem State.send_keys (s : State) (m : Msg) : (s.send m).keys = s.keys := rfl
@[simp] theorem State.send_keyNext (s : State) (m : Msg) : (s.send m).keyNext = s.keyNext := rfl
@[simp] theorem State.send_loom (s : State) (m : Msg) : (s.send m).loom = s.loom := rfl
@[simp] theorem State.send_chs (s : State) (m : Msg) : (s.send m).chs = s.chs := rfl
@[simp] theorem State.send_ports (s : State) (m : Msg) : (s.send m).ports = s.ports := rfl
@[simp] theorem State.send_eng (s : State) (m : Msg) : (s.send m).eng = s.eng := rfl
@[simp] theorem State.send_fcu (s : State) (m : Msg) : (s.send m).fcu = s.fcu := rfl
@[simp] theorem State.send_spl (s : State) (m : Msg) : (s.send m).spl = s.spl := rfl
@[simp] theorem State.send_pwr (s : State) (m : Msg) : (s.send m).pwr = s.pwr := rfl
@[simp] theorem State.send_boot (s : State) (m : Msg) : (s.send m).boot = s.boot := rfl
@[simp] theorem State.send_sec (s : State) (m : Msg) : (s.send m).sec = s.sec := rfl
@[simp] theorem State.send_i3c (s : State) (m : Msg) : (s.send m).i3c = s.i3c := rfl
@[simp] theorem State.send_rpl (s : State) (m : Msg) : (s.send m).rpl = s.rpl := rfl
@[simp] theorem State.send_pins (s : State) (m : Msg) : (s.send m).pins = s.pins := rfl
@[simp] theorem State.send_resp (s : State) (m : Msg) : (s.send m).resp = s.resp := rfl
@[simp] theorem State.send_pending (s : State) (m : Msg) : (s.send m).pending = s.pending := rfl

/-! ### take -/

@[simp] theorem State.take_free (s : State) (m : Msg) : (s.take m).free = s.free := rfl
@[simp] theorem State.take_seq (s : State) (m : Msg) : (s.take m).seq = s.seq := rfl
@[simp] theorem State.take_time (s : State) (m : Msg) : (s.take m).time = s.time := rfl
@[simp] theorem State.take_regs (s : State) (m : Msg) : (s.take m).regs = s.regs := rfl
@[simp] theorem State.take_locks (s : State) (m : Msg) : (s.take m).locks = s.locks := rfl
@[simp] theorem State.take_cords (s : State) (m : Msg) : (s.take m).cords = s.cords := rfl
@[simp] theorem State.take_triads (s : State) (m : Msg) : (s.take m).triads = s.triads := rfl
@[simp] theorem State.take_tlb (s : State) (m : Msg) : (s.take m).tlb = s.tlb := rfl
@[simp] theorem State.take_tlbi (s : State) (m : Msg) : (s.take m).tlbi = s.tlbi := rfl
@[simp] theorem State.take_l2 (s : State) (m : Msg) : (s.take m).l2 = s.l2 := rfl
@[simp] theorem State.take_ev (s : State) (m : Msg) : (s.take m).ev = s.ev := rfl
@[simp] theorem State.take_snoops (s : State) (m : Msg) : (s.take m).snoops = s.snoops := rfl
@[simp] theorem State.take_warp (s : State) (m : Msg) : (s.take m).warp = s.warp := rfl
@[simp] theorem State.take_dir (s : State) (m : Msg) : (s.take m).dir = s.dir := rfl
@[simp] theorem State.take_txns (s : State) (m : Msg) : (s.take m).txns = s.txns := rfl
@[simp] theorem State.take_evPend (s : State) (m : Msg) : (s.take m).evPend = s.evPend := rfl
@[simp] theorem State.take_owed (s : State) (m : Msg) : (s.take m).owed = s.owed := rfl
@[simp] theorem State.take_wants (s : State) (m : Msg) : (s.take m).wants = s.wants := rfl
@[simp] theorem State.take_mem (s : State) (m : Msg) : (s.take m).mem = s.mem := rfl
@[simp] theorem State.take_ctls (s : State) (m : Msg) : (s.take m).ctls = s.ctls := rfl
@[simp] theorem State.take_keys (s : State) (m : Msg) : (s.take m).keys = s.keys := rfl
@[simp] theorem State.take_keyNext (s : State) (m : Msg) : (s.take m).keyNext = s.keyNext := rfl
@[simp] theorem State.take_loom (s : State) (m : Msg) : (s.take m).loom = s.loom := rfl
@[simp] theorem State.take_chs (s : State) (m : Msg) : (s.take m).chs = s.chs := rfl
@[simp] theorem State.take_ports (s : State) (m : Msg) : (s.take m).ports = s.ports := rfl
@[simp] theorem State.take_eng (s : State) (m : Msg) : (s.take m).eng = s.eng := rfl
@[simp] theorem State.take_fcu (s : State) (m : Msg) : (s.take m).fcu = s.fcu := rfl
@[simp] theorem State.take_spl (s : State) (m : Msg) : (s.take m).spl = s.spl := rfl
@[simp] theorem State.take_pwr (s : State) (m : Msg) : (s.take m).pwr = s.pwr := rfl
@[simp] theorem State.take_boot (s : State) (m : Msg) : (s.take m).boot = s.boot := rfl
@[simp] theorem State.take_sec (s : State) (m : Msg) : (s.take m).sec = s.sec := rfl
@[simp] theorem State.take_i3c (s : State) (m : Msg) : (s.take m).i3c = s.i3c := rfl
@[simp] theorem State.take_rpl (s : State) (m : Msg) : (s.take m).rpl = s.rpl := rfl
@[simp] theorem State.take_pins (s : State) (m : Msg) : (s.take m).pins = s.pins := rfl
@[simp] theorem State.take_resp (s : State) (m : Msg) : (s.take m).resp = s.resp := rfl
@[simp] theorem State.take_pending (s : State) (m : Msg) : (s.take m).pending = s.pending := rfl

/-! ### drew -/

@[simp] theorem State.drew_seq (s : State) : (s.drew).seq = s.seq := rfl
@[simp] theorem State.drew_time (s : State) : (s.drew).time = s.time := rfl
@[simp] theorem State.drew_regs (s : State) : (s.drew).regs = s.regs := rfl
@[simp] theorem State.drew_locks (s : State) : (s.drew).locks = s.locks := rfl
@[simp] theorem State.drew_cords (s : State) : (s.drew).cords = s.cords := rfl
@[simp] theorem State.drew_triads (s : State) : (s.drew).triads = s.triads := rfl
@[simp] theorem State.drew_tlb (s : State) : (s.drew).tlb = s.tlb := rfl
@[simp] theorem State.drew_tlbi (s : State) : (s.drew).tlbi = s.tlbi := rfl
@[simp] theorem State.drew_l2 (s : State) : (s.drew).l2 = s.l2 := rfl
@[simp] theorem State.drew_ev (s : State) : (s.drew).ev = s.ev := rfl
@[simp] theorem State.drew_snoops (s : State) : (s.drew).snoops = s.snoops := rfl
@[simp] theorem State.drew_warp (s : State) : (s.drew).warp = s.warp := rfl
@[simp] theorem State.drew_dir (s : State) : (s.drew).dir = s.dir := rfl
@[simp] theorem State.drew_txns (s : State) : (s.drew).txns = s.txns := rfl
@[simp] theorem State.drew_evPend (s : State) : (s.drew).evPend = s.evPend := rfl
@[simp] theorem State.drew_owed (s : State) : (s.drew).owed = s.owed := rfl
@[simp] theorem State.drew_wants (s : State) : (s.drew).wants = s.wants := rfl
@[simp] theorem State.drew_net (s : State) : (s.drew).net = s.net := rfl
@[simp] theorem State.drew_mem (s : State) : (s.drew).mem = s.mem := rfl
@[simp] theorem State.drew_ctls (s : State) : (s.drew).ctls = s.ctls := rfl
@[simp] theorem State.drew_keys (s : State) : (s.drew).keys = s.keys := rfl
@[simp] theorem State.drew_keyNext (s : State) : (s.drew).keyNext = s.keyNext := rfl
@[simp] theorem State.drew_loom (s : State) : (s.drew).loom = s.loom := rfl
@[simp] theorem State.drew_chs (s : State) : (s.drew).chs = s.chs := rfl
@[simp] theorem State.drew_ports (s : State) : (s.drew).ports = s.ports := rfl
@[simp] theorem State.drew_eng (s : State) : (s.drew).eng = s.eng := rfl
@[simp] theorem State.drew_fcu (s : State) : (s.drew).fcu = s.fcu := rfl
@[simp] theorem State.drew_spl (s : State) : (s.drew).spl = s.spl := rfl
@[simp] theorem State.drew_pwr (s : State) : (s.drew).pwr = s.pwr := rfl
@[simp] theorem State.drew_boot (s : State) : (s.drew).boot = s.boot := rfl
@[simp] theorem State.drew_sec (s : State) : (s.drew).sec = s.sec := rfl
@[simp] theorem State.drew_i3c (s : State) : (s.drew).i3c = s.i3c := rfl
@[simp] theorem State.drew_rpl (s : State) : (s.drew).rpl = s.rpl := rfl
@[simp] theorem State.drew_pins (s : State) : (s.drew).pins = s.pins := rfl
@[simp] theorem State.drew_resp (s : State) : (s.drew).resp = s.resp := rfl
@[simp] theorem State.drew_pending (s : State) : (s.drew).pending = s.pending := rfl

/-! ### account -/

@[simp] theorem State.account_free (s : State) (t i n : Nat) : (s.account t i n).free = s.free := rfl
@[simp] theorem State.account_seq (s : State) (t i n : Nat) : (s.account t i n).seq = s.seq := rfl
@[simp] theorem State.account_time (s : State) (t i n : Nat) : (s.account t i n).time = s.time := rfl
@[simp] theorem State.account_regs (s : State) (t i n : Nat) : (s.account t i n).regs = s.regs := rfl
@[simp] theorem State.account_locks (s : State) (t i n : Nat) : (s.account t i n).locks = s.locks := rfl
@[simp] theorem State.account_cords (s : State) (t i n : Nat) : (s.account t i n).cords = s.cords := rfl
@[simp] theorem State.account_triads (s : State) (t i n : Nat) : (s.account t i n).triads = s.triads := rfl
@[simp] theorem State.account_tlb (s : State) (t i n : Nat) : (s.account t i n).tlb = s.tlb := rfl
@[simp] theorem State.account_tlbi (s : State) (t i n : Nat) : (s.account t i n).tlbi = s.tlbi := rfl
@[simp] theorem State.account_l2 (s : State) (t i n : Nat) : (s.account t i n).l2 = s.l2 := rfl
@[simp] theorem State.account_ev (s : State) (t i n : Nat) : (s.account t i n).ev = s.ev := rfl
@[simp] theorem State.account_snoops (s : State) (t i n : Nat) : (s.account t i n).snoops = s.snoops := rfl
@[simp] theorem State.account_warp (s : State) (t i n : Nat) : (s.account t i n).warp = s.warp := rfl
@[simp] theorem State.account_dir (s : State) (t i n : Nat) : (s.account t i n).dir = s.dir := rfl
@[simp] theorem State.account_txns (s : State) (t i n : Nat) : (s.account t i n).txns = s.txns := rfl
@[simp] theorem State.account_evPend (s : State) (t i n : Nat) : (s.account t i n).evPend = s.evPend := rfl
@[simp] theorem State.account_owed (s : State) (t i n : Nat) : (s.account t i n).owed = s.owed := rfl
@[simp] theorem State.account_wants (s : State) (t i n : Nat) : (s.account t i n).wants = s.wants := rfl
@[simp] theorem State.account_net (s : State) (t i n : Nat) : (s.account t i n).net = s.net := rfl
@[simp] theorem State.account_mem (s : State) (t i n : Nat) : (s.account t i n).mem = s.mem := rfl
@[simp] theorem State.account_ctls (s : State) (t i n : Nat) : (s.account t i n).ctls = s.ctls := rfl
@[simp] theorem State.account_keys (s : State) (t i n : Nat) : (s.account t i n).keys = s.keys := rfl
@[simp] theorem State.account_keyNext (s : State) (t i n : Nat) : (s.account t i n).keyNext = s.keyNext := rfl
@[simp] theorem State.account_chs (s : State) (t i n : Nat) : (s.account t i n).chs = s.chs := rfl
@[simp] theorem State.account_ports (s : State) (t i n : Nat) : (s.account t i n).ports = s.ports := rfl
@[simp] theorem State.account_eng (s : State) (t i n : Nat) : (s.account t i n).eng = s.eng := rfl
@[simp] theorem State.account_fcu (s : State) (t i n : Nat) : (s.account t i n).fcu = s.fcu := rfl
@[simp] theorem State.account_spl (s : State) (t i n : Nat) : (s.account t i n).spl = s.spl := rfl
@[simp] theorem State.account_pwr (s : State) (t i n : Nat) : (s.account t i n).pwr = s.pwr := rfl
@[simp] theorem State.account_boot (s : State) (t i n : Nat) : (s.account t i n).boot = s.boot := rfl
@[simp] theorem State.account_sec (s : State) (t i n : Nat) : (s.account t i n).sec = s.sec := rfl
@[simp] theorem State.account_i3c (s : State) (t i n : Nat) : (s.account t i n).i3c = s.i3c := rfl
@[simp] theorem State.account_rpl (s : State) (t i n : Nat) : (s.account t i n).rpl = s.rpl := rfl
@[simp] theorem State.account_pins (s : State) (t i n : Nat) : (s.account t i n).pins = s.pins := rfl
@[simp] theorem State.account_resp (s : State) (t i n : Nat) : (s.account t i n).resp = s.resp := rfl
@[simp] theorem State.account_pending (s : State) (t i n : Nat) : (s.account t i n).pending = s.pending := rfl

/-! ### noteIssue -/

@[simp] theorem State.noteIssue_free (s : State) (t n : Nat) : (s.noteIssue t n).free = s.free := rfl
@[simp] theorem State.noteIssue_seq (s : State) (t n : Nat) : (s.noteIssue t n).seq = s.seq := rfl
@[simp] theorem State.noteIssue_time (s : State) (t n : Nat) : (s.noteIssue t n).time = s.time := rfl
@[simp] theorem State.noteIssue_regs (s : State) (t n : Nat) : (s.noteIssue t n).regs = s.regs := rfl
@[simp] theorem State.noteIssue_locks (s : State) (t n : Nat) : (s.noteIssue t n).locks = s.locks := rfl
@[simp] theorem State.noteIssue_cords (s : State) (t n : Nat) : (s.noteIssue t n).cords = s.cords := rfl
@[simp] theorem State.noteIssue_triads (s : State) (t n : Nat) : (s.noteIssue t n).triads = s.triads := rfl
@[simp] theorem State.noteIssue_tlb (s : State) (t n : Nat) : (s.noteIssue t n).tlb = s.tlb := rfl
@[simp] theorem State.noteIssue_tlbi (s : State) (t n : Nat) : (s.noteIssue t n).tlbi = s.tlbi := rfl
@[simp] theorem State.noteIssue_l2 (s : State) (t n : Nat) : (s.noteIssue t n).l2 = s.l2 := rfl
@[simp] theorem State.noteIssue_ev (s : State) (t n : Nat) : (s.noteIssue t n).ev = s.ev := rfl
@[simp] theorem State.noteIssue_snoops (s : State) (t n : Nat) : (s.noteIssue t n).snoops = s.snoops := rfl
@[simp] theorem State.noteIssue_warp (s : State) (t n : Nat) : (s.noteIssue t n).warp = s.warp := rfl
@[simp] theorem State.noteIssue_dir (s : State) (t n : Nat) : (s.noteIssue t n).dir = s.dir := rfl
@[simp] theorem State.noteIssue_txns (s : State) (t n : Nat) : (s.noteIssue t n).txns = s.txns := rfl
@[simp] theorem State.noteIssue_evPend (s : State) (t n : Nat) : (s.noteIssue t n).evPend = s.evPend := rfl
@[simp] theorem State.noteIssue_owed (s : State) (t n : Nat) : (s.noteIssue t n).owed = s.owed := rfl
@[simp] theorem State.noteIssue_wants (s : State) (t n : Nat) : (s.noteIssue t n).wants = s.wants := rfl
@[simp] theorem State.noteIssue_net (s : State) (t n : Nat) : (s.noteIssue t n).net = s.net := rfl
@[simp] theorem State.noteIssue_mem (s : State) (t n : Nat) : (s.noteIssue t n).mem = s.mem := rfl
@[simp] theorem State.noteIssue_ctls (s : State) (t n : Nat) : (s.noteIssue t n).ctls = s.ctls := rfl
@[simp] theorem State.noteIssue_keys (s : State) (t n : Nat) : (s.noteIssue t n).keys = s.keys := rfl
@[simp] theorem State.noteIssue_keyNext (s : State) (t n : Nat) : (s.noteIssue t n).keyNext = s.keyNext := rfl
@[simp] theorem State.noteIssue_chs (s : State) (t n : Nat) : (s.noteIssue t n).chs = s.chs := rfl
@[simp] theorem State.noteIssue_ports (s : State) (t n : Nat) : (s.noteIssue t n).ports = s.ports := rfl
@[simp] theorem State.noteIssue_eng (s : State) (t n : Nat) : (s.noteIssue t n).eng = s.eng := rfl
@[simp] theorem State.noteIssue_fcu (s : State) (t n : Nat) : (s.noteIssue t n).fcu = s.fcu := rfl
@[simp] theorem State.noteIssue_spl (s : State) (t n : Nat) : (s.noteIssue t n).spl = s.spl := rfl
@[simp] theorem State.noteIssue_pwr (s : State) (t n : Nat) : (s.noteIssue t n).pwr = s.pwr := rfl
@[simp] theorem State.noteIssue_boot (s : State) (t n : Nat) : (s.noteIssue t n).boot = s.boot := rfl
@[simp] theorem State.noteIssue_sec (s : State) (t n : Nat) : (s.noteIssue t n).sec = s.sec := rfl
@[simp] theorem State.noteIssue_i3c (s : State) (t n : Nat) : (s.noteIssue t n).i3c = s.i3c := rfl
@[simp] theorem State.noteIssue_rpl (s : State) (t n : Nat) : (s.noteIssue t n).rpl = s.rpl := rfl
@[simp] theorem State.noteIssue_pins (s : State) (t n : Nat) : (s.noteIssue t n).pins = s.pins := rfl
@[simp] theorem State.noteIssue_resp (s : State) (t n : Nat) : (s.noteIssue t n).resp = s.resp := rfl
@[simp] theorem State.noteIssue_pending (s : State) (t n : Nat) : (s.noteIssue t n).pending = s.pending := rfl

/-! ### recovers -/

@[simp] theorem State.recovers_free (s : State) (c : Nat) : (s.recovers c).free = s.free := rfl
@[simp] theorem State.recovers_seq (s : State) (c : Nat) : (s.recovers c).seq = s.seq := rfl
@[simp] theorem State.recovers_time (s : State) (c : Nat) : (s.recovers c).time = s.time := rfl
@[simp] theorem State.recovers_regs (s : State) (c : Nat) : (s.recovers c).regs = s.regs := rfl
@[simp] theorem State.recovers_locks (s : State) (c : Nat) : (s.recovers c).locks = s.locks := rfl
@[simp] theorem State.recovers_cords (s : State) (c : Nat) : (s.recovers c).cords = s.cords := rfl
@[simp] theorem State.recovers_triads (s : State) (c : Nat) : (s.recovers c).triads = s.triads := rfl
@[simp] theorem State.recovers_tlb (s : State) (c : Nat) : (s.recovers c).tlb = s.tlb := rfl
@[simp] theorem State.recovers_tlbi (s : State) (c : Nat) : (s.recovers c).tlbi = s.tlbi := rfl
@[simp] theorem State.recovers_l2 (s : State) (c : Nat) : (s.recovers c).l2 = s.l2 := rfl
@[simp] theorem State.recovers_ev (s : State) (c : Nat) : (s.recovers c).ev = s.ev := rfl
@[simp] theorem State.recovers_snoops (s : State) (c : Nat) : (s.recovers c).snoops = s.snoops := rfl
@[simp] theorem State.recovers_warp (s : State) (c : Nat) : (s.recovers c).warp = s.warp := rfl
@[simp] theorem State.recovers_dir (s : State) (c : Nat) : (s.recovers c).dir = s.dir := rfl
@[simp] theorem State.recovers_txns (s : State) (c : Nat) : (s.recovers c).txns = s.txns := rfl
@[simp] theorem State.recovers_evPend (s : State) (c : Nat) : (s.recovers c).evPend = s.evPend := rfl
@[simp] theorem State.recovers_owed (s : State) (c : Nat) : (s.recovers c).owed = s.owed := rfl
@[simp] theorem State.recovers_wants (s : State) (c : Nat) : (s.recovers c).wants = s.wants := rfl
@[simp] theorem State.recovers_net (s : State) (c : Nat) : (s.recovers c).net = s.net := rfl
@[simp] theorem State.recovers_mem (s : State) (c : Nat) : (s.recovers c).mem = s.mem := rfl
@[simp] theorem State.recovers_ctls (s : State) (c : Nat) : (s.recovers c).ctls = s.ctls := rfl
@[simp] theorem State.recovers_keys (s : State) (c : Nat) : (s.recovers c).keys = s.keys := rfl
@[simp] theorem State.recovers_keyNext (s : State) (c : Nat) : (s.recovers c).keyNext = s.keyNext := rfl
@[simp] theorem State.recovers_chs (s : State) (c : Nat) : (s.recovers c).chs = s.chs := rfl
@[simp] theorem State.recovers_ports (s : State) (c : Nat) : (s.recovers c).ports = s.ports := rfl
@[simp] theorem State.recovers_eng (s : State) (c : Nat) : (s.recovers c).eng = s.eng := rfl
@[simp] theorem State.recovers_fcu (s : State) (c : Nat) : (s.recovers c).fcu = s.fcu := rfl
@[simp] theorem State.recovers_spl (s : State) (c : Nat) : (s.recovers c).spl = s.spl := rfl
@[simp] theorem State.recovers_pwr (s : State) (c : Nat) : (s.recovers c).pwr = s.pwr := rfl
@[simp] theorem State.recovers_boot (s : State) (c : Nat) : (s.recovers c).boot = s.boot := rfl
@[simp] theorem State.recovers_sec (s : State) (c : Nat) : (s.recovers c).sec = s.sec := rfl
@[simp] theorem State.recovers_i3c (s : State) (c : Nat) : (s.recovers c).i3c = s.i3c := rfl
@[simp] theorem State.recovers_rpl (s : State) (c : Nat) : (s.recovers c).rpl = s.rpl := rfl
@[simp] theorem State.recovers_pins (s : State) (c : Nat) : (s.recovers c).pins = s.pins := rfl
@[simp] theorem State.recovers_resp (s : State) (c : Nat) : (s.recovers c).resp = s.resp := rfl
@[simp] theorem State.recovers_pending (s : State) (c : Nat) : (s.recovers c).pending = s.pending := rfl

end Sys2Proof.Machine
end

