-- ==== Sys2Proof/Laws/Insn.lean ====
section
/-! SUPPORT. Laws of the core of an agent and of running one instruction. -/

namespace Sys2Proof.Machine

/-! ### Cores -/

@[simp] theorem State.cord_setCord_same (s : State) (c : Nat) (k : Core) : (s.setCord c k).cord c = k :=
  mget_mput_same _ _ _ _

theorem State.cord_setCord_other (s : State) {c d : Nat} (k : Core) (h : d ≠ c) : (s.setCord c k).cord d = s.cord d :=
  mget_mput_other _ _ _ _ h

@[simp] theorem State.setCord_setCord (s : State) (c : Nat) (k k' : Core) : (s.setCord c k).setCord c k' = s.setCord c k' := by
  simp [State.setCord]

@[simp] theorem State.shut_setShut_same (s : State) (n : Nat) (x : Shut) : (s.setShut n x).shut n = x :=
  mget_mput_same _ _ _ _

theorem State.shut_setShut_other (s : State) {n m : Nat} (x : Shut) (h : m ≠ n) : (s.setShut n x).shut m = s.shut m :=
  mget_mput_other _ _ _ _ h

@[simp] theorem State.setShut_setShut (s : State) (n : Nat) (x y : Shut) : (s.setShut n x).setShut n y = s.setShut n y := by
  simp [State.setShut]

@[simp] theorem State.core_setCore_same (s : State) (a : Agent) (k : Core) : (s.setCore a k).core a = k := by
  cases a <;> simp [State.setCore, State.core, State.modShut]

theorem State.core_setCore_other (s : State) {a b : Agent} (k : Core) (h : b ≠ a) : (s.setCore a k).core b = s.core b := by
  cases a with
  | cord c =>
    cases b with
    | cord d => exact State.cord_setCord_other _ _ (fun e => h (by rw [e]))
    | shuttle m => rfl
  | shuttle n =>
    cases b with
    | cord d => rfl
    | shuttle m =>
      simp only [State.setCore, State.core, State.modShut]
      rw [State.shut_setShut_other _ _ (fun e => h (by rw [e]))]

@[simp] theorem State.setCore_setCore (s : State) (a : Agent) (k k' : Core) :
    (s.setCore a k).setCore a k' = s.setCore a k' := by
  cases a <;> simp [State.setCore, State.modShut]

@[simp] theorem State.core_modCore_same (s : State) (a : Agent) (f : Core → Core) : (s.modCore a f).core a = f (s.core a) :=
  State.core_setCore_same _ _ _

/-- A core's registers do not stand in the control window. -/
@[simp] theorem State.get_setCore (s : State) (a : Agent) (k : Core) (f : Fld) : (s.setCore a k).get f = s.get f := by
  cases a <;> rfl

@[simp] theorem State.setCore_mem (s : State) (a : Agent) (k : Core) : (s.setCore a k).mem = s.mem := by
  cases a <;> rfl

/-! ### Running one instruction -/

/-- A state in which nothing of memory is waited for turns no command back. -/
theorem wanting_settled {s t : State} (h : t.wants = []) : wanting s t = false := by simp [wanting, h]

/-- An instruction that passes steps 1 to 5 of R79 ends as its body does, when that waits for nothing. -/
theorem runInsn_begins {s s1 : State} {a : Agent} {i : Instr} {cond : BitVec 3} {lvl : Level} (kr : KnotRule)
    (body : InsnWord → State → State × Got Done) (h : Begins s s1 a i cond lvl)
    (hw : (endInsn (makeRoom s a) a (body ((wordOf i).getD 0) s1)).wants = []) :
    runInsn a i cond lvl kr body s = endInsn (makeRoom s a) a (body ((wordOf i).getD 0) s1) := by
  have hk : (s1.core a).inKnot = false := by simp [Core.inKnot, h.stillNoKnot]
  have ht : tryInsn a i cond lvl kr body (makeRoom s a) = endInsn (makeRoom s a) a (body ((wordOf i).getD 0) s1) := by
    simp [tryInsn, frontEnd, h.noBreak, h.fetched, andThen, h.wellFormed, h.holds, allowed, h.level, hk]
  simp only [runInsn, h.ready, orWait, ht, wanting_settled hw]
  rfl

/-- A body that completes retires where no knot is open and its stores find room. -/
theorem endInsn_ok {s0 s : State} {a : Agent} {d : Done} (h0 : (s0.core a).knot = none)
    (h1 : ((d.apply s).core a).knot = none) (h2 : ((d.apply s).core a).buffers ≤ 16) :
    endInsn s0 a (s, .ok d) = d.after (retireFrom (s0.core a) (d.apply s) a d.next d.result) := by
  have hs : knotStores (d.apply s) a = none := by
    cases a with
    | cord c =>
      have : ((d.apply s).cord c).knot = none := h1
      simp [knotStores, this]
    | shuttle n => rfl
  have hb : ¬ 16 < ((d.apply s).core a).buffers := by omega
  simp [endInsn, Core.inKnot, h0, hb, hs]

end Sys2Proof.Machine
end

