-- ==== Sys2Proof/Laws/Mem.lean ====
section
/-! SUPPORT. Laws of memory behind the homes: read after write, and that every operation on it keeps the canonical form. -/

namespace Sys2Proof.Machine

@[simp] theorem Mem.byte_setByte_same (m : Mem) (a : Nat) (b : Byte) : (m.setByte a b).byte a = b := by
  simp [Mem.byte, Mem.setByte]

theorem Mem.byte_setByte_other (m : Mem) {a x : Nat} (b : Byte) (h : x ≠ a) : (m.setByte a b).byte x = m.byte x := by
  simp [Mem.byte, Mem.setByte, mget_mput_other _ _ _ _ h]

/-- A write changes no byte below its address. -/
theorem Mem.byte_write_below (m : Mem) (a v n x : Nat) (h : x < a) : (m.write a v n).byte x = m.byte x := by
  induction n generalizing m a v with
  | zero => rfl
  | succ n ih => rw [Mem.write, ih _ _ _ (by omega), Mem.byte_setByte_other _ _ (by omega)]

/-- A write changes no byte at or above its end. -/
theorem Mem.byte_write_above (m : Mem) (a v n x : Nat) (h : a + n ≤ x) : (m.write a v n).byte x = m.byte x := by
  induction n generalizing m a v with
  | zero => rfl
  | succ n ih => rw [Mem.write, ih _ _ _ (by omega), Mem.byte_setByte_other _ _ (by omega)]

/-- A write leaves every byte outside its span. -/
theorem Mem.byte_write_other (m : Mem) (a v n x : Nat) (h : x < a ∨ a + n ≤ x) : (m.write a v n).byte x = m.byte x :=
  h.elim (m.byte_write_below a v n x) (m.byte_write_above a v n x)

/-- Byte i of the span of a write is byte i of the value. -/
theorem Mem.byte_write_at (m : Mem) (a v n i : Nat) (h : i < n) :
    (m.write a v n).byte (a + i) = BitVec.ofNat 8 (v / 256 ^ i) := by
  induction n generalizing m a v i with
  | zero => omega
  | succ n ih =>
    cases i with
    | zero => rw [Nat.add_zero, Mem.write, Mem.byte_write_below _ _ _ _ _ (by omega)]; simp
    | succ i =>
      rw [Mem.write, show a + (i + 1) = (a + 1) + i by omega, ih _ _ _ _ (by omega), Nat.div_div_eq_div_mul,
        Nat.pow_succ, Nat.mul_comm]

/-- A read after a write of the same span answers the value written. -/
theorem Mem.read_write_same (m : Mem) (a v n : Nat) : (m.write a v n).read a n = v % 256 ^ n := by
  suffices h : ∀ k, k ≤ n → (m.write a v n).read (a + (n - k)) k = v / 256 ^ (n - k) % 256 ^ k by
    simpa using h n (Nat.le_refl n)
  intro k
  induction k with
  | zero => intro _; simp [Mem.read, Nat.mod_one]
  | succ k ih =>
    intro hk
    have e : a + (n - (k + 1)) + 1 = a + (n - k) := by omega
    rw [Mem.read, e, ih (by omega), Mem.byte_write_at _ _ _ _ _ (by omega), BitVec.toNat_ofNat,
      show n - k = n - (k + 1) + 1 by omega, Nat.pow_succ 256 k, Nat.pow_succ 256 (n - (k + 1)), ← Nat.div_div_eq_div_mul,
      Nat.mul_comm (256 ^ k) 256, Nat.mod_mul]

/-! ### The canonical form -/

theorem Mem.wf_setByte (m : Mem) (a : Nat) (b : Byte) (h : m.wf = true) : (m.setByte a b).wf = true :=
  mwf_mput _ _ _ _ h

theorem Mem.wf_write (m : Mem) (a v n : Nat) (h : m.wf = true) : (m.write a v n).wf = true := by
  induction n generalizing m a v with
  | zero => exact h
  | succ n ih => exact ih _ _ _ (Mem.wf_setByte _ _ _ h)

theorem Mem.wf_reset : State.reset.mem.wf = true := rfl

/-- A fold of operations that keep a property of the state keeps it. -/
theorem State.foldl_keeps {α : Type} (P : State → Prop) (f : State → α → State) (hf : ∀ s x, P s → P (f s x))
    (l : List α) (s : State) (h : P s) : P (l.foldl f s) := by
  induction l generalizing s with
  | nil => exact h
  | cons x t ih => exact ih _ (hf _ _ h)


@[simp] theorem dropMerge_mem (s : State) (h sec : Nat) : (dropMerge s h sec).mem = s.mem := by
  unfold dropMerge; split <;> rfl

/-- What a sector write leaves in memory (R199): the 64 bytes, and no other byte. -/
theorem writeSector_cells (s : State) (h sec data : Nat) (poison scrub : Bool) :
    (writeSector s h sec data poison scrub).mem.cells = (s.mem.write (sec * 64) data 64).cells := by
  have hp : ∀ (t : State) (f : Fld) (b : Bool), (t.putFlag f b).mem = t.mem := fun _ _ _ => rfl
  unfold writeSector
  generalize hn : (64 : Nat) = n
  dsimp only
  split <;> simp only [hp, dropMerge_mem]

theorem Mem.wf_of_cells {m m' : Mem} (h : m.cells = m'.cells) (hm : m'.wf = true) : m.wf = true := by
  unfold Mem.wf at *; rw [h]; exact hm

/-- The invariant of StepsKeepMemoryCanonical. -/
def State.memWf (s : State) : Prop := s.mem.wf = true

theorem writeSector_wf (s : State) (h sec data : Nat) (poison scrub : Bool) (hs : s.memWf) :
    (writeSector s h sec data poison scrub).memWf :=
  Mem.wf_of_cells (writeSector_cells s h sec data poison scrub) (Mem.wf_write _ _ _ 64 hs)

theorem writeSectors_wf (s : State) (h : Nat) (sec data : Nat → Nat) (l : List Nat) (hs : s.memWf) :
    (l.foldl (fun s i => writeSector s h (sec i) (data i) false true) s).memWf :=
  State.foldl_keeps State.memWf _ (fun t _ ht => writeSector_wf t h _ _ _ _ ht) _ _ hs

/-- Fill keeps memory's canonical form (R192). -/
theorem fillMemory_wf (s : State) (h : Nat) (hs : s.memWf) : (fillMemory s h).memWf := by
  unfold fillMemory
  refine State.foldl_keeps State.memWf _ (fun t r ht => ?_) _ _ ?_
  · dsimp only
    split
    · exact writeSectors_wf t h _ _ _ ht
    · exact ht
  · exact mwf_filter _ _ _ hs

end Sys2Proof.Machine
end

