-- ==== Sys2Proof/Laws/PerInstr.lean ====
section
/-! SUPPORT. The family Shape, one lemma per command: a command has an instruction word exactly where it names an agent
that runs it, and a command without a word passes the decode checks (it is never decoded). -/

namespace Sys2Proof

/-- What Shape says of one command. -/
def Laws.Shape.Statement (i : Instr) : Prop :=
  (wordOf i).isSome = (agentOf i).isSome ∧ ((wordOf i).isSome = false → i.ok = true)

theorem Laws.Shape.registerWrite (off : Nat) (v : Word) (same : List RegWrite) : Laws.Shape.Statement (.registerWrite off v same) :=
  ⟨rfl, fun _ => rfl⟩

theorem Laws.Shape.pickBoundary : Laws.Shape.Statement (.pickBoundary) :=
  ⟨rfl, fun _ => rfl⟩

theorem Laws.Shape.beatBoundary (h : HouseInputs) : Laws.Shape.Statement (.beatBoundary h) :=
  ⟨rfl, fun _ => rfl⟩

theorem Laws.Shape.minuteBoundary (age : List Nat) : Laws.Shape.Statement (.minuteBoundary age) :=
  ⟨rfl, fun _ => rfl⟩

theorem Laws.Shape.picksyncInEdge (dev : Int) : Laws.Shape.Statement (.picksyncInEdge dev) :=
  ⟨rfl, fun _ => rfl⟩

theorem Laws.Shape.picksyncPulseClassified (width : Nat) : Laws.Shape.Statement (.picksyncPulseClassified width) :=
  ⟨rfl, fun _ => rfl⟩

theorem Laws.Shape.loomSyncRead : Laws.Shape.Statement (.loomSyncRead) :=
  ⟨rfl, fun _ => rfl⟩

theorem Laws.Shape.loomCommit (v : Word) : Laws.Shape.Statement (.loomCommit v) :=
  ⟨rfl, fun _ => rfl⟩

theorem Laws.Shape.flushStoreBufferMove (c : Nat) : Laws.Shape.Statement (.flushStoreBufferMove c) :=
  ⟨rfl, fun _ => rfl⟩

theorem Laws.Shape.flushDirtyWritten (c : Nat) : Laws.Shape.Statement (.flushDirtyWritten c) :=
  ⟨rfl, fun _ => rfl⟩

theorem Laws.Shape.flushCachesInvalidated (c : Nat) : Laws.Shape.Statement (.flushCachesInvalidated c) :=
  ⟨rfl, fun _ => rfl⟩

theorem Laws.Shape.flushIncomingLoaded (c : Nat) : Laws.Shape.Statement (.flushIncomingLoaded c) :=
  ⟨rfl, fun _ => rfl⟩

theorem Laws.Shape.flushRelease (c : Nat) : Laws.Shape.Statement (.flushRelease c) :=
  ⟨rfl, fun _ => rfl⟩

theorem Laws.Shape.reserveLineDrain (tile claim : Nat) : Laws.Shape.Statement (.reserveLineDrain tile claim) :=
  ⟨rfl, fun _ => rfl⟩

theorem Laws.Shape.reserveStorePerform (tile claim : Nat) : Laws.Shape.Statement (.reserveStorePerform tile claim) :=
  ⟨rfl, fun _ => rfl⟩

theorem Laws.Shape.waitingRequestIssue (table tenant : Nat) : Laws.Shape.Statement (.waitingRequestIssue table tenant) :=
  ⟨rfl, fun _ => rfl⟩

theorem Laws.Shape.retireGroupVote (t : Nat) (cmp : Comparison) : Laws.Shape.Statement (.retireGroupVote t cmp) :=
  ⟨rfl, fun _ => rfl⟩

theorem Laws.Shape.resyncRestart (t : Nat) : Laws.Shape.Statement (.resyncRestart t) :=
  ⟨rfl, fun _ => rfl⟩

theorem Laws.Shape.contextSaveTimeout (c addr : Nat) : Laws.Shape.Statement (.contextSaveTimeout c addr) :=
  ⟨rfl, fun _ => rfl⟩

theorem Laws.Shape.strandCheckError (t : Nat) (e : StrandError) : Laws.Shape.Statement (.strandCheckError t e) :=
  ⟨rfl, fun _ => rfl⟩

theorem Laws.Shape.migrationStoresDrained (t : Nat) (bad : List Nat) : Laws.Shape.Statement (.migrationStoresDrained t bad) :=
  ⟨rfl, fun _ => rfl⟩

theorem Laws.Shape.migrationSpareOn (t : Nat) : Laws.Shape.Statement (.migrationSpareOn t) :=
  ⟨rfl, fun _ => rfl⟩

theorem Laws.Shape.migrationStateCopied (t : Nat) : Laws.Shape.Statement (.migrationStateCopied t) :=
  ⟨rfl, fun _ => rfl⟩

theorem Laws.Shape.migrationComplete (t : Nat) : Laws.Shape.Statement (.migrationComplete t) :=
  ⟨rfl, fun _ => rfl⟩

theorem Laws.Shape.triResume (t : Nat) (v : Word) : Laws.Shape.Statement (.triResume t v) :=
  ⟨rfl, fun _ => rfl⟩

theorem Laws.Shape.voterSelfTestDone (t : Nat) (bad : List LaneFail) : Laws.Shape.Statement (.voterSelfTestDone t bad) :=
  ⟨rfl, fun _ => rfl⟩

theorem Laws.Shape.debugHalt (c : Nat) : Laws.Shape.Statement (.debugHalt c) :=
  ⟨rfl, fun _ => rfl⟩

theorem Laws.Shape.debugResume (c : Nat) : Laws.Shape.Statement (.debugResume c) :=
  ⟨rfl, fun _ => rfl⟩

theorem Laws.Shape.debugStep (c : Nat) : Laws.Shape.Statement (.debugStep c) :=
  ⟨rfl, fun _ => rfl⟩

theorem Laws.Shape.debugStateWrite (c : Nat) (what : DebugReg) (v : Word) : Laws.Shape.Statement (.debugStateWrite c what v) :=
  ⟨rfl, fun _ => rfl⟩

theorem Laws.Shape.debugMemoryWrite (c addr : Nat) (bytes : List Byte) : Laws.Shape.Statement (.debugMemoryWrite c addr bytes) :=
  ⟨rfl, fun _ => rfl⟩

theorem Laws.Shape.debugStateRead (c : Nat) (what : DebugReg) : Laws.Shape.Statement (.debugStateRead c what) :=
  ⟨rfl, fun _ => rfl⟩

theorem Laws.Shape.debugLogRead (t : Nat) : Laws.Shape.Statement (.debugLogRead t) :=
  ⟨rfl, fun _ => rfl⟩

theorem Laws.Shape.triCntRead (t : Nat) : Laws.Shape.Statement (.triCntRead t) :=
  ⟨rfl, fun _ => rfl⟩

theorem Laws.Shape.eventTrap (c : Nat) : Laws.Shape.Statement (.eventTrap c) :=
  ⟨rfl, fun _ => rfl⟩

theorem Laws.Shape.fpImpreciseDelivery (c : Nat) : Laws.Shape.Statement (.fpImpreciseDelivery c) :=
  ⟨rfl, fun _ => rfl⟩

theorem Laws.Shape.nop (a : Agent) (f : FO) : Laws.Shape.Statement (.nop a f) :=
  ⟨rfl, fun h => nomatch h⟩

theorem Laws.Shape.waite (a : Agent) (f : FO) : Laws.Shape.Statement (.waite a f) :=
  ⟨rfl, fun h => nomatch h⟩

theorem Laws.Shape.waiteWake (c : Nat) : Laws.Shape.Statement (.waiteWake c) :=
  ⟨rfl, fun _ => rfl⟩

theorem Laws.Shape.rdcr (a : Agent) (f : FO) : Laws.Shape.Statement (.rdcr a f) :=
  ⟨rfl, fun h => nomatch h⟩

theorem Laws.Shape.wrcr (a : Agent) (f : FO) : Laws.Shape.Statement (.wrcr a f) :=
  ⟨rfl, fun h => nomatch h⟩

theorem Laws.Shape.tret (a : Agent) (f : FO) : Laws.Shape.Statement (.tret a f) :=
  ⟨rfl, fun h => nomatch h⟩

theorem Laws.Shape.rdtime (a : Agent) (f : FO) : Laws.Shape.Statement (.rdtime a f) :=
  ⟨rfl, fun h => nomatch h⟩

theorem Laws.Shape.ssync (a : Agent) (f : FO) : Laws.Shape.Statement (.ssync a f) :=
  ⟨rfl, fun h => nomatch h⟩

theorem Laws.Shape.evpop (a : Agent) (f : FO) : Laws.Shape.Statement (.evpop a f) :=
  ⟨rfl, fun h => nomatch h⟩

theorem Laws.Shape.signal (a : Agent) (f : FO) : Laws.Shape.Statement (.signal a f) :=
  ⟨rfl, fun h => nomatch h⟩

theorem Laws.Shape.retg (a : Agent) (f : FO) : Laws.Shape.Statement (.retg a f) :=
  ⟨rfl, fun h => nomatch h⟩

theorem Laws.Shape.rdag (a : Agent) (f : FO) : Laws.Shape.Statement (.rdag a f) :=
  ⟨rfl, fun h => nomatch h⟩

theorem Laws.Shape.wrag (a : Agent) (f : FO) : Laws.Shape.Statement (.wrag a f) :=
  ⟨rfl, fun h => nomatch h⟩

theorem Laws.Shape.tlbiVa (a : Agent) (f : FO) : Laws.Shape.Statement (.tlbiVa a f) :=
  ⟨rfl, fun h => nomatch h⟩

theorem Laws.Shape.tlbiAsid (a : Agent) (f : FO) : Laws.Shape.Statement (.tlbiAsid a f) :=
  ⟨rfl, fun h => nomatch h⟩

theorem Laws.Shape.tlbiS1all (a : Agent) (f : FO) : Laws.Shape.Statement (.tlbiS1all a f) :=
  ⟨rfl, fun h => nomatch h⟩

theorem Laws.Shape.tlbiIpa (a : Agent) (f : FO) : Laws.Shape.Statement (.tlbiIpa a f) :=
  ⟨rfl, fun h => nomatch h⟩

theorem Laws.Shape.tlbiTenant (a : Agent) (f : FO) : Laws.Shape.Statement (.tlbiTenant a f) :=
  ⟨rfl, fun h => nomatch h⟩

theorem Laws.Shape.tlbsync (a : Agent) (f : FO) : Laws.Shape.Statement (.tlbsync a f) :=
  ⟨rfl, fun h => nomatch h⟩

theorem Laws.Shape.tlbsyncComplete (c : Nat) : Laws.Shape.Statement (.tlbsyncComplete c) :=
  ⟨rfl, fun _ => rfl⟩

theorem Laws.Shape.drop (a : Agent) (f : FO) : Laws.Shape.Statement (.drop a f) :=
  ⟨rfl, fun h => nomatch h⟩

theorem Laws.Shape.dup (a : Agent) (f : FO) : Laws.Shape.Statement (.dup a f) :=
  ⟨rfl, fun h => nomatch h⟩

theorem Laws.Shape.swap (a : Agent) (f : FO) : Laws.Shape.Statement (.swap a f) :=
  ⟨rfl, fun h => nomatch h⟩

theorem Laws.Shape.over (a : Agent) (f : FO) : Laws.Shape.Statement (.over a f) :=
  ⟨rfl, fun h => nomatch h⟩

theorem Laws.Shape.rot (a : Agent) (f : FO) : Laws.Shape.Statement (.rot a f) :=
  ⟨rfl, fun h => nomatch h⟩

theorem Laws.Shape.nip (a : Agent) (f : FO) : Laws.Shape.Statement (.nip a f) :=
  ⟨rfl, fun h => nomatch h⟩

theorem Laws.Shape.dupn (a : Agent) (f : FO) : Laws.Shape.Statement (.dupn a f) :=
  ⟨rfl, fun h => nomatch h⟩

theorem Laws.Shape.xchn (a : Agent) (f : FO) : Laws.Shape.Statement (.xchn a f) :=
  ⟨rfl, fun h => nomatch h⟩

theorem Laws.Shape.dropn (a : Agent) (f : FO) : Laws.Shape.Statement (.dropn a f) :=
  ⟨rfl, fun h => nomatch h⟩

theorem Laws.Shape.depth (a : Agent) (f : FO) : Laws.Shape.Statement (.depth a f) :=
  ⟨rfl, fun h => nomatch h⟩

theorem Laws.Shape.getsp (a : Agent) (f : FO) : Laws.Shape.Statement (.getsp a f) :=
  ⟨rfl, fun h => nomatch h⟩

theorem Laws.Shape.setsp (a : Agent) (f : FO) : Laws.Shape.Statement (.setsp a f) :=
  ⟨rfl, fun h => nomatch h⟩

theorem Laws.Shape.push (a : Agent) (f : FI) : Laws.Shape.Statement (.push a f) :=
  ⟨rfl, fun h => nomatch h⟩

theorem Laws.Shape.pushh (a : Agent) (f : FH) : Laws.Shape.Statement (.pushh a f) :=
  ⟨rfl, fun h => nomatch h⟩

theorem Laws.Shape.add (a : Agent) (f : FO) : Laws.Shape.Statement (.add a f) :=
  ⟨rfl, fun h => nomatch h⟩

theorem Laws.Shape.sub (a : Agent) (f : FO) : Laws.Shape.Statement (.sub a f) :=
  ⟨rfl, fun h => nomatch h⟩

theorem Laws.Shape.adc (a : Agent) (f : FO) : Laws.Shape.Statement (.adc a f) :=
  ⟨rfl, fun h => nomatch h⟩

theorem Laws.Shape.sbc (a : Agent) (f : FO) : Laws.Shape.Statement (.sbc a f) :=
  ⟨rfl, fun h => nomatch h⟩

theorem Laws.Shape.and (a : Agent) (f : FO) : Laws.Shape.Statement (.and a f) :=
  ⟨rfl, fun h => nomatch h⟩

theorem Laws.Shape.or (a : Agent) (f : FO) : Laws.Shape.Statement (.or a f) :=
  ⟨rfl, fun h => nomatch h⟩

theorem Laws.Shape.xor (a : Agent) (f : FO) : Laws.Shape.Statement (.xor a f) :=
  ⟨rfl, fun h => nomatch h⟩

theorem Laws.Shape.andn (a : Agent) (f : FO) : Laws.Shape.Statement (.andn a f) :=
  ⟨rfl, fun h => nomatch h⟩

theorem Laws.Shape.not (a : Agent) (f : FO) : Laws.Shape.Statement (.not a f) :=
  ⟨rfl, fun h => nomatch h⟩

theorem Laws.Shape.neg (a : Agent) (f : FO) : Laws.Shape.Statement (.neg a f) :=
  ⟨rfl, fun h => nomatch h⟩

theorem Laws.Shape.sxb (a : Agent) (f : FO) : Laws.Shape.Statement (.sxb a f) :=
  ⟨rfl, fun h => nomatch h⟩

theorem Laws.Shape.sxh (a : Agent) (f : FO) : Laws.Shape.Statement (.sxh a f) :=
  ⟨rfl, fun h => nomatch h⟩

theorem Laws.Shape.sxw (a : Agent) (f : FO) : Laws.Shape.Statement (.sxw a f) :=
  ⟨rfl, fun h => nomatch h⟩

theorem Laws.Shape.zxw (a : Agent) (f : FO) : Laws.Shape.Statement (.zxw a f) :=
  ⟨rfl, fun h => nomatch h⟩

theorem Laws.Shape.popc (a : Agent) (f : FO) : Laws.Shape.Statement (.popc a f) :=
  ⟨rfl, fun h => nomatch h⟩

theorem Laws.Shape.clz (a : Agent) (f : FO) : Laws.Shape.Statement (.clz a f) :=
  ⟨rfl, fun h => nomatch h⟩

theorem Laws.Shape.addi (a : Agent) (f : FO) : Laws.Shape.Statement (.addi a f) :=
  ⟨rfl, fun h => nomatch h⟩

theorem Laws.Shape.andi (a : Agent) (f : FO) : Laws.Shape.Statement (.andi a f) :=
  ⟨rfl, fun h => nomatch h⟩

theorem Laws.Shape.ori (a : Agent) (f : FO) : Laws.Shape.Statement (.ori a f) :=
  ⟨rfl, fun h => nomatch h⟩

theorem Laws.Shape.xori (a : Agent) (f : FO) : Laws.Shape.Statement (.xori a f) :=
  ⟨rfl, fun h => nomatch h⟩

theorem Laws.Shape.shl (a : Agent) (f : FO) : Laws.Shape.Statement (.shl a f) :=
  ⟨rfl, fun h => nomatch h⟩

theorem Laws.Shape.shr (a : Agent) (f : FO) : Laws.Shape.Statement (.shr a f) :=
  ⟨rfl, fun h => nomatch h⟩

theorem Laws.Shape.sar (a : Agent) (f : FO) : Laws.Shape.Statement (.sar a f) :=
  ⟨rfl, fun h => nomatch h⟩

theorem Laws.Shape.rol (a : Agent) (f : FO) : Laws.Shape.Statement (.rol a f) :=
  ⟨rfl, fun h => nomatch h⟩

theorem Laws.Shape.ror (a : Agent) (f : FO) : Laws.Shape.Statement (.ror a f) :=
  ⟨rfl, fun h => nomatch h⟩

theorem Laws.Shape.mul (a : Agent) (f : FO) : Laws.Shape.Statement (.mul a f) :=
  ⟨rfl, fun h => nomatch h⟩

theorem Laws.Shape.mulhs (a : Agent) (f : FO) : Laws.Shape.Statement (.mulhs a f) :=
  ⟨rfl, fun h => nomatch h⟩

theorem Laws.Shape.mulhu (a : Agent) (f : FO) : Laws.Shape.Statement (.mulhu a f) :=
  ⟨rfl, fun h => nomatch h⟩

theorem Laws.Shape.divs (a : Agent) (f : FO) : Laws.Shape.Statement (.divs a f) :=
  ⟨rfl, fun h => nomatch h⟩

theorem Laws.Shape.divu (a : Agent) (f : FO) : Laws.Shape.Statement (.divu a f) :=
  ⟨rfl, fun h => nomatch h⟩

theorem Laws.Shape.rems (a : Agent) (f : FO) : Laws.Shape.Statement (.rems a f) :=
  ⟨rfl, fun h => nomatch h⟩

theorem Laws.Shape.remu (a : Agent) (f : FO) : Laws.Shape.Statement (.remu a f) :=
  ⟨rfl, fun h => nomatch h⟩

theorem Laws.Shape.cmp (a : Agent) (f : FO) : Laws.Shape.Statement (.cmp a f) :=
  ⟨rfl, fun h => nomatch h⟩

theorem Laws.Shape.tst (a : Agent) (f : FO) : Laws.Shape.Statement (.tst a f) :=
  ⟨rfl, fun h => nomatch h⟩

theorem Laws.Shape.cmpi (a : Agent) (f : FO) : Laws.Shape.Statement (.cmpi a f) :=
  ⟨rfl, fun h => nomatch h⟩

theorem Laws.Shape.setf (a : Agent) (f : FO) : Laws.Shape.Statement (.setf a f) :=
  ⟨rfl, fun h => nomatch h⟩

theorem Laws.Shape.load (a : Agent) (f : FM) : Laws.Shape.Statement (.load a f) :=
  ⟨rfl, fun h => nomatch h⟩

theorem Laws.Shape.store (a : Agent) (f : FM) : Laws.Shape.Statement (.store a f) :=
  ⟨rfl, fun h => nomatch h⟩

theorem Laws.Shape.loadReserved (a : Agent) (f : FM) : Laws.Shape.Statement (.loadReserved a f) :=
  ⟨rfl, fun h => nomatch h⟩

theorem Laws.Shape.storeConditional (a : Agent) (f : FM) : Laws.Shape.Statement (.storeConditional a f) :=
  ⟨rfl, fun h => nomatch h⟩

theorem Laws.Shape.farAtomic (a : Agent) (f : FA) : Laws.Shape.Statement (.farAtomic a f) :=
  ⟨rfl, fun h => nomatch h⟩

theorem Laws.Shape.zline (a : Agent) (f : FL) : Laws.Shape.Statement (.zline a f) :=
  ⟨rfl, fun h => nomatch h⟩

theorem Laws.Shape.clean (a : Agent) (f : FL) : Laws.Shape.Statement (.clean a f) :=
  ⟨rfl, fun h => nomatch h⟩

theorem Laws.Shape.flush (a : Agent) (f : FL) : Laws.Shape.Statement (.flush a f) :=
  ⟨rfl, fun h => nomatch h⟩

theorem Laws.Shape.inval (a : Agent) (f : FL) : Laws.Shape.Statement (.inval a f) :=
  ⟨rfl, fun h => nomatch h⟩

theorem Laws.Shape.pfr (a : Agent) (f : FL) : Laws.Shape.Statement (.pfr a f) :=
  ⟨rfl, fun h => nomatch h⟩

theorem Laws.Shape.pfw (a : Agent) (f : FL) : Laws.Shape.Statement (.pfw a f) :=
  ⟨rfl, fun h => nomatch h⟩

theorem Laws.Shape.icinv (a : Agent) (f : FL) : Laws.Shape.Statement (.icinv a f) :=
  ⟨rfl, fun h => nomatch h⟩

theorem Laws.Shape.fadd (a : Agent) (f : FF) : Laws.Shape.Statement (.fadd a f) :=
  ⟨rfl, fun h => nomatch h⟩

theorem Laws.Shape.fsub (a : Agent) (f : FF) : Laws.Shape.Statement (.fsub a f) :=
  ⟨rfl, fun h => nomatch h⟩

theorem Laws.Shape.fmul (a : Agent) (f : FF) : Laws.Shape.Statement (.fmul a f) :=
  ⟨rfl, fun h => nomatch h⟩

theorem Laws.Shape.fdiv (a : Agent) (f : FF) : Laws.Shape.Statement (.fdiv a f) :=
  ⟨rfl, fun h => nomatch h⟩

theorem Laws.Shape.fsqrt (a : Agent) (f : FF) : Laws.Shape.Statement (.fsqrt a f) :=
  ⟨rfl, fun h => nomatch h⟩

theorem Laws.Shape.fma (a : Agent) (f : FF) : Laws.Shape.Statement (.fma a f) :=
  ⟨rfl, fun h => nomatch h⟩

theorem Laws.Shape.fnma (a : Agent) (f : FF) : Laws.Shape.Statement (.fnma a f) :=
  ⟨rfl, fun h => nomatch h⟩

theorem Laws.Shape.fmin (a : Agent) (f : FF) : Laws.Shape.Statement (.fmin a f) :=
  ⟨rfl, fun h => nomatch h⟩

theorem Laws.Shape.fmax (a : Agent) (f : FF) : Laws.Shape.Statement (.fmax a f) :=
  ⟨rfl, fun h => nomatch h⟩

theorem Laws.Shape.fneg (a : Agent) (f : FF) : Laws.Shape.Statement (.fneg a f) :=
  ⟨rfl, fun h => nomatch h⟩

theorem Laws.Shape.fabs (a : Agent) (f : FF) : Laws.Shape.Statement (.fabs a f) :=
  ⟨rfl, fun h => nomatch h⟩

theorem Laws.Shape.fcpys (a : Agent) (f : FF) : Laws.Shape.Statement (.fcpys a f) :=
  ⟨rfl, fun h => nomatch h⟩

theorem Laws.Shape.f2i (a : Agent) (f : FF) : Laws.Shape.Statement (.f2i a f) :=
  ⟨rfl, fun h => nomatch h⟩

theorem Laws.Shape.f2u (a : Agent) (f : FF) : Laws.Shape.Statement (.f2u a f) :=
  ⟨rfl, fun h => nomatch h⟩

theorem Laws.Shape.i2f (a : Agent) (f : FF) : Laws.Shape.Statement (.i2f a f) :=
  ⟨rfl, fun h => nomatch h⟩

theorem Laws.Shape.u2f (a : Agent) (f : FF) : Laws.Shape.Statement (.u2f a f) :=
  ⟨rfl, fun h => nomatch h⟩

theorem Laws.Shape.fcvt (a : Agent) (f : FF) : Laws.Shape.Statement (.fcvt a f) :=
  ⟨rfl, fun h => nomatch h⟩

theorem Laws.Shape.frint (a : Agent) (f : FF) : Laws.Shape.Statement (.frint a f) :=
  ⟨rfl, fun h => nomatch h⟩

theorem Laws.Shape.fcmp (a : Agent) (f : FF) : Laws.Shape.Statement (.fcmp a f) :=
  ⟨rfl, fun h => nomatch h⟩

theorem Laws.Shape.fcmpe (a : Agent) (f : FF) : Laws.Shape.Statement (.fcmpe a f) :=
  ⟨rfl, fun h => nomatch h⟩

theorem Laws.Shape.fclass (a : Agent) (f : FF) : Laws.Shape.Statement (.fclass a f) :=
  ⟨rfl, fun h => nomatch h⟩

theorem Laws.Shape.b (a : Agent) (f : FB) : Laws.Shape.Statement (.b a f) :=
  ⟨rfl, fun h => nomatch h⟩

theorem Laws.Shape.call (a : Agent) (f : FB) : Laws.Shape.Statement (.call a f) :=
  ⟨rfl, fun h => nomatch h⟩

theorem Laws.Shape.jmp (a : Agent) (f : FO) : Laws.Shape.Statement (.jmp a f) :=
  ⟨rfl, fun h => nomatch h⟩

theorem Laws.Shape.calli (a : Agent) (f : FO) : Laws.Shape.Statement (.calli a f) :=
  ⟨rfl, fun h => nomatch h⟩

theorem Laws.Shape.ret (a : Agent) (f : FO) : Laws.Shape.Statement (.ret a f) :=
  ⟨rfl, fun h => nomatch h⟩

theorem Laws.Shape.knot (a : Agent) (f : FO) : Laws.Shape.Statement (.knot a f) :=
  ⟨rfl, fun h => nomatch h⟩

theorem Laws.Shape.cinch (a : Agent) (f : FO) : Laws.Shape.Statement (.cinch a f) :=
  ⟨rfl, fun h => nomatch h⟩

theorem Laws.Shape.cinchCommit (c : Nat) : Laws.Shape.Statement (.cinchCommit c) :=
  ⟨rfl, fun _ => rfl⟩

theorem Laws.Shape.slip (a : Agent) (f : FO) : Laws.Shape.Statement (.slip a f) :=
  ⟨rfl, fun h => nomatch h⟩

theorem Laws.Shape.ktest (a : Agent) (f : FO) : Laws.Shape.Statement (.ktest a f) :=
  ⟨rfl, fun h => nomatch h⟩

theorem Laws.Shape.knotAgeExpiry (c : Nat) : Laws.Shape.Statement (.knotAgeExpiry c) :=
  ⟨rfl, fun _ => rfl⟩

theorem Laws.Shape.lbar (a : Agent) (f : FO) : Laws.Shape.Statement (.lbar a f) :=
  ⟨rfl, fun h => nomatch h⟩

theorem Laws.Shape.sbar (a : Agent) (f : FO) : Laws.Shape.Statement (.sbar a f) :=
  ⟨rfl, fun h => nomatch h⟩

theorem Laws.Shape.fbar (a : Agent) (f : FO) : Laws.Shape.Statement (.fbar a f) :=
  ⟨rfl, fun h => nomatch h⟩

theorem Laws.Shape.fsync (a : Agent) (f : FO) : Laws.Shape.Statement (.fsync a f) :=
  ⟨rfl, fun h => nomatch h⟩

theorem Laws.Shape.barrierRetire (c : Nat) : Laws.Shape.Statement (.barrierRetire c) :=
  ⟨rfl, fun _ => rfl⟩

theorem Laws.Shape.syscall (a : Agent) (f : FO) : Laws.Shape.Statement (.syscall a f) :=
  ⟨rfl, fun h => nomatch h⟩

theorem Laws.Shape.gate (a : Agent) (f : FO) : Laws.Shape.Statement (.gate a f) :=
  ⟨rfl, fun h => nomatch h⟩

theorem Laws.Shape.break (a : Agent) (f : FO) : Laws.Shape.Statement (.break a f) :=
  ⟨rfl, fun h => nomatch h⟩

theorem Laws.Shape.storeBounceTimeout (c : Nat) : Laws.Shape.Statement (.storeBounceTimeout c) :=
  ⟨rfl, fun _ => rfl⟩

theorem Laws.Shape.rdS (q : Req) : Laws.Shape.Statement (.rdS q) :=
  ⟨rfl, fun _ => rfl⟩

theorem Laws.Shape.rdO (q : Req) : Laws.Shape.Statement (.rdO q) :=
  ⟨rfl, fun _ => rfl⟩

theorem Laws.Shape.rdOz (q : Req) : Laws.Shape.Statement (.rdOz q) :=
  ⟨rfl, fun _ => rfl⟩

theorem Laws.Shape.upg (q : Req) : Laws.Shape.Statement (.upg q) :=
  ⟨rfl, fun _ => rfl⟩

theorem Laws.Shape.rdOnce (q : Req) : Laws.Shape.Statement (.rdOnce q) :=
  ⟨rfl, fun _ => rfl⟩

theorem Laws.Shape.wrLine (q : Req) (bytes : LineData) (poison : BitVec 4) : Laws.Shape.Statement (.wrLine q bytes poison) :=
  ⟨rfl, fun _ => rfl⟩

theorem Laws.Shape.wrPart (q : Req) (mask : LineMask) (bytes : WrData) : Laws.Shape.Statement (.wrPart q mask bytes) :=
  ⟨rfl, fun _ => rfl⟩

theorem Laws.Shape.atom (q : Req) (addr : Nat) (wide : Bool) (aop : BitVec 4) (x y : Word) : Laws.Shape.Statement (.atom q addr wide aop x y) :=
  ⟨rfl, fun _ => rfl⟩

theorem Laws.Shape.cmo (q : Req) (op : CmoOp) : Laws.Shape.Statement (.cmo q op) :=
  ⟨rfl, fun _ => rfl⟩

theorem Laws.Shape.snpS (m : Snoop) : Laws.Shape.Statement (.snpS m) :=
  ⟨rfl, fun _ => rfl⟩

theorem Laws.Shape.snpC (m : Snoop) : Laws.Shape.Statement (.snpC m) :=
  ⟨rfl, fun _ => rfl⟩

theorem Laws.Shape.snpO (m : Snoop) : Laws.Shape.Statement (.snpO m) :=
  ⟨rfl, fun _ => rfl⟩

theorem Laws.Shape.snpI (m : Snoop) : Laws.Shape.Statement (.snpI m) :=
  ⟨rfl, fun _ => rfl⟩

theorem Laws.Shape.snpIz (m : Snoop) : Laws.Shape.Statement (.snpIz m) :=
  ⟨rfl, fun _ => rfl⟩

theorem Laws.Shape.snpL1i (m : Snoop) : Laws.Shape.Statement (.snpL1i m) :=
  ⟨rfl, fun _ => rfl⟩

theorem Laws.Shape.hitchTimeExpiry (agent line : Nat) : Laws.Shape.Statement (.hitchTimeExpiry agent line) :=
  ⟨rfl, fun _ => rfl⟩

theorem Laws.Shape.wbD (agent : Nat) (entry : WbData) : Laws.Shape.Statement (.wbD agent entry) :=
  ⟨rfl, fun _ => rfl⟩

theorem Laws.Shape.wbC (agent : Nat) (entry : WbNote) : Laws.Shape.Statement (.wbC agent entry) :=
  ⟨rfl, fun _ => rfl⟩

theorem Laws.Shape.cmpGrant (agent line : Nat) (st : GrantMsg) : Laws.Shape.Statement (.cmpGrant agent line st) :=
  ⟨rfl, fun _ => rfl⟩

theorem Laws.Shape.rspI (agent line : Nat) : Laws.Shape.Statement (.rspI agent line) :=
  ⟨rfl, fun _ => rfl⟩

theorem Laws.Shape.rspS (agent line : Nat) : Laws.Shape.Statement (.rspS agent line) :=
  ⟨rfl, fun _ => rfl⟩

theorem Laws.Shape.rspFwd (agent line : Nat) (dirty : BitVec 4) : Laws.Shape.Statement (.rspFwd agent line dirty) :=
  ⟨rfl, fun _ => rfl⟩

theorem Laws.Shape.rspEvicting (agent line entry : Nat) (dirty : BitVec 4) : Laws.Shape.Statement (.rspEvicting agent line entry dirty) :=
  ⟨rfl, fun _ => rfl⟩

theorem Laws.Shape.wbAck (agent entry : Nat) : Laws.Shape.Statement (.wbAck agent entry) :=
  ⟨rfl, fun _ => rfl⟩

theorem Laws.Shape.data (agent line : Nat) (bytes : LineData) (valid dirty poison : BitVec 4) (victim : Option Nat) : Laws.Shape.Statement (.data agent line bytes valid dirty poison victim) :=
  ⟨rfl, fun _ => rfl⟩

theorem Laws.Shape.sharedWriteThrough (agent line : Nat) : Laws.Shape.Statement (.sharedWriteThrough agent line) :=
  ⟨rfl, fun _ => rfl⟩

theorem Laws.Shape.rangeClean (t : Nat) (v : Word) : Laws.Shape.Statement (.rangeClean t v) :=
  ⟨rfl, fun _ => rfl⟩

theorem Laws.Shape.rangeFlush (t : Nat) (v : Word) : Laws.Shape.Statement (.rangeFlush t v) :=
  ⟨rfl, fun _ => rfl⟩

theorem Laws.Shape.rangeOpDone (t : Nat) : Laws.Shape.Statement (.rangeOpDone t) :=
  ⟨rfl, fun _ => rfl⟩

theorem Laws.Shape.cacheDisable (t : Nat) (v : Word) : Laws.Shape.Statement (.cacheDisable t v) :=
  ⟨rfl, fun _ => rfl⟩

theorem Laws.Shape.crdLockinvRead (t : Nat) : Laws.Shape.Statement (.crdLockinvRead t) :=
  ⟨rfl, fun _ => rfl⟩

theorem Laws.Shape.cohCntRead (h : Nat) : Laws.Shape.Statement (.cohCntRead h) :=
  ⟨rfl, fun _ => rfl⟩

theorem Laws.Shape.memSelvRead (ctl : Nat) : Laws.Shape.Statement (.memSelvRead ctl) :=
  ⟨rfl, fun _ => rfl⟩

theorem Laws.Shape.keyLoad (v : Word) : Laws.Shape.Statement (.keyLoad v) :=
  ⟨rfl, fun _ => rfl⟩

theorem Laws.Shape.keyGenerate (v : Word) : Laws.Shape.Statement (.keyGenerate v) :=
  ⟨rfl, fun _ => rfl⟩

theorem Laws.Shape.keyErase (v : Word) : Laws.Shape.Statement (.keyErase v) :=
  ⟨rfl, fun _ => rfl⟩

theorem Laws.Shape.memKeycmdDone : Laws.Shape.Statement (.memKeycmdDone) :=
  ⟨rfl, fun _ => rfl⟩

theorem Laws.Shape.deviceMark (ctl rank : Nat) (v : Word) : Laws.Shape.Statement (.deviceMark ctl rank v) :=
  ⟨rfl, fun _ => rfl⟩

theorem Laws.Shape.fillDone (ctl : Nat) : Laws.Shape.Statement (.fillDone ctl) :=
  ⟨rfl, fun _ => rfl⟩

theorem Laws.Shape.sharedMarkerPoll (ctl region : Nat) (seen : Bool) : Laws.Shape.Statement (.sharedMarkerPoll ctl region seen) :=
  ⟨rfl, fun _ => rfl⟩

theorem Laws.Shape.sharedFillTimeout (ctl region : Nat) : Laws.Shape.Statement (.sharedFillTimeout ctl region) :=
  ⟨rfl, fun _ => rfl⟩

theorem Laws.Shape.mergeEntryClose (ctl sector : Nat) : Laws.Shape.Statement (.mergeEntryClose ctl sector) :=
  ⟨rfl, fun _ => rfl⟩

theorem Laws.Shape.viDoorbell (vi slot : Nat) (v : Word) (w : Who) : Laws.Shape.Statement (.viDoorbell vi slot v w) :=
  ⟨rfl, fun _ => rfl⟩

theorem Laws.Shape.acceptance (vi : Nat) (slot : AcceptWith) : Laws.Shape.Statement (.acceptance vi slot) :=
  ⟨rfl, fun _ => rfl⟩

theorem Laws.Shape.acceptanceMirrored (vi slot : Nat) : Laws.Shape.Statement (.acceptanceMirrored vi slot) :=
  ⟨rfl, fun _ => rfl⟩

theorem Laws.Shape.scRead (v : Word) : Laws.Shape.Statement (.scRead v) :=
  ⟨rfl, fun _ => rfl⟩

theorem Laws.Shape.scBind (v : Word) (probe : BindProbe) : Laws.Shape.Statement (.scBind v probe) :=
  ⟨rfl, fun _ => rfl⟩

theorem Laws.Shape.scUnbind (v : Word) : Laws.Shape.Statement (.scUnbind v) :=
  ⟨rfl, fun _ => rfl⟩

theorem Laws.Shape.scHalt (v : Word) : Laws.Shape.Statement (.scHalt v) :=
  ⟨rfl, fun _ => rfl⟩

theorem Laws.Shape.scClearhalt (v : Word) : Laws.Shape.Statement (.scClearhalt v) :=
  ⟨rfl, fun _ => rfl⟩

theorem Laws.Shape.shuttleDispatch (n : DispatchWith) : Laws.Shape.Statement (.shuttleDispatch n) :=
  ⟨rfl, fun _ => rfl⟩

theorem Laws.Shape.ccwRead (cell : Nat) : Laws.Shape.Statement (.ccwRead cell) :=
  ⟨rfl, fun _ => rfl⟩

theorem Laws.Shape.ccwWrite (cell : Nat) : Laws.Shape.Statement (.ccwWrite cell) :=
  ⟨rfl, fun _ => rfl⟩

theorem Laws.Shape.ccwControl (cell : Nat) : Laws.Shape.Statement (.ccwControl cell) :=
  ⟨rfl, fun _ => rfl⟩

theorem Laws.Shape.ccwSense (cell : Nat) : Laws.Shape.Statement (.ccwSense cell) :=
  ⟨rfl, fun _ => rfl⟩

theorem Laws.Shape.ccwNop (cell : Nat) : Laws.Shape.Statement (.ccwNop cell) :=
  ⟨rfl, fun _ => rfl⟩

theorem Laws.Shape.ccwJump (cell : Nat) : Laws.Shape.Statement (.ccwJump cell) :=
  ⟨rfl, fun _ => rfl⟩

theorem Laws.Shape.nvmeCompletion (cell : Nat) (c : NvmeEnd) : Laws.Shape.Statement (.nvmeCompletion cell c) :=
  ⟨rfl, fun _ => rfl⟩

theorem Laws.Shape.operationPosted (cell : Nat) : Laws.Shape.Statement (.operationPosted cell) :=
  ⟨rfl, fun _ => rfl⟩

theorem Laws.Shape.completionRingWrite (vi : Nat) : Laws.Shape.Statement (.completionRingWrite vi) :=
  ⟨rfl, fun _ => rfl⟩

theorem Laws.Shape.operationRetire (cell : Nat) : Laws.Shape.Statement (.operationRetire cell) :=
  ⟨rfl, fun _ => rfl⟩

theorem Laws.Shape.operationTimeout (cell : TimeoutWith) : Laws.Shape.Statement (.operationTimeout cell) :=
  ⟨rfl, fun _ => rfl⟩

theorem Laws.Shape.abortConfirmTimeout (cell : Nat) : Laws.Shape.Statement (.abortConfirmTimeout cell) :=
  ⟨rfl, fun _ => rfl⟩

theorem Laws.Shape.cqTailWrite (vi : Nat) (v : Word) (w : Who) : Laws.Shape.Statement (.cqTailWrite vi v w) :=
  ⟨rfl, fun _ => rfl⟩

theorem Laws.Shape.ringfaultClear (vi : Nat) (v : Word) : Laws.Shape.Statement (.ringfaultClear vi v) :=
  ⟨rfl, fun _ => rfl⟩

theorem Laws.Shape.viEnable (vi : Nat) (v : Word) : Laws.Shape.Statement (.viEnable vi v) :=
  ⟨rfl, fun _ => rfl⟩

theorem Laws.Shape.viSuspend (vi : Nat) (v : Word) : Laws.Shape.Statement (.viSuspend vi v) :=
  ⟨rfl, fun _ => rfl⟩

theorem Laws.Shape.viCancel (vi : Nat) (v : Word) : Laws.Shape.Statement (.viCancel vi v) :=
  ⟨rfl, fun _ => rfl⟩

theorem Laws.Shape.viQuotaWrite (vi : Nat) (v : Word) : Laws.Shape.Statement (.viQuotaWrite vi v) :=
  ⟨rfl, fun _ => rfl⟩

theorem Laws.Shape.evqQuotaWrite (c : Nat) (v : Word) : Laws.Shape.Statement (.evqQuotaWrite c v) :=
  ⟨rfl, fun _ => rfl⟩

theorem Laws.Shape.dcInvalidate (v : Word) : Laws.Shape.Statement (.dcInvalidate v) :=
  ⟨rfl, fun _ => rfl⟩

theorem Laws.Shape.dcInvalidateDone : Laws.Shape.Statement (.dcInvalidateDone) :=
  ⟨rfl, fun _ => rfl⟩

theorem Laws.Shape.descriptorCacheEnable (v : Word) : Laws.Shape.Statement (.descriptorCacheEnable v) :=
  ⟨rfl, fun _ => rfl⟩

theorem Laws.Shape.shuttleBeatStop (n : Nat) : Laws.Shape.Statement (.shuttleBeatStop n) :=
  ⟨rfl, fun _ => rfl⟩

theorem Laws.Shape.shuttleRestart (n : Nat) : Laws.Shape.Statement (.shuttleRestart n) :=
  ⟨rfl, fun _ => rfl⟩

theorem Laws.Shape.shuttleRestartDone (n : Nat) : Laws.Shape.Statement (.shuttleRestartDone n) :=
  ⟨rfl, fun _ => rfl⟩

theorem Laws.Shape.portDisable (p : Nat) (v : Word) : Laws.Shape.Statement (.portDisable p v) :=
  ⟨rfl, fun _ => rfl⟩

theorem Laws.Shape.portDisableForce (p : Nat) (v : Word) : Laws.Shape.Statement (.portDisableForce p v) :=
  ⟨rfl, fun _ => rfl⟩

theorem Laws.Shape.portEnable (p : Nat) (v : Word) : Laws.Shape.Statement (.portEnable p v) :=
  ⟨rfl, fun _ => rfl⟩

theorem Laws.Shape.portRetrain (p : Nat) (v : Word) : Laws.Shape.Statement (.portRetrain p v) :=
  ⟨rfl, fun _ => rfl⟩

theorem Laws.Shape.init (p : Nat) (m : InitMsg) : Laws.Shape.Statement (.init p m) :=
  ⟨rfl, fun _ => rfl⟩

theorem Laws.Shape.initResend (p : Nat) : Laws.Shape.Statement (.initResend p) :=
  ⟨rfl, fun _ => rfl⟩

theorem Laws.Shape.linkRelease (p : Nat) : Laws.Shape.Statement (.linkRelease p) :=
  ⟨rfl, fun _ => rfl⟩

theorem Laws.Shape.flitReceive (p : Nat) (bytes : List Byte) : Laws.Shape.Statement (.flitReceive p bytes) :=
  ⟨rfl, fun _ => rfl⟩

theorem Laws.Shape.replayTimeout (p : Nat) : Laws.Shape.Statement (.replayTimeout p) :=
  ⟨rfl, fun _ => rfl⟩

theorem Laws.Shape.linkHoldExpiry (p : Nat) : Laws.Shape.Statement (.linkHoldExpiry p) :=
  ⟨rfl, fun _ => rfl⟩

theorem Laws.Shape.sessAccept (p session : Nat) (dstat : BitVec 16) : Laws.Shape.Statement (.sessAccept p session dstat) :=
  ⟨rfl, fun _ => rfl⟩

theorem Laws.Shape.sessClose (p session : Nat) : Laws.Shape.Statement (.sessClose p session) :=
  ⟨rfl, fun _ => rfl⟩

theorem Laws.Shape.dataIn (p : Nat) (f : DataFrame) : Laws.Shape.Statement (.dataIn p f) :=
  ⟨rfl, fun _ => rfl⟩

theorem Laws.Shape.status (p : Nat) (f : Frame) : Laws.Shape.Statement (.status p f) :=
  ⟨rfl, fun _ => rfl⟩

theorem Laws.Shape.dupack (p : Nat) (f : Frame) : Laws.Shape.Statement (.dupack p f) :=
  ⟨rfl, fun _ => rfl⟩

theorem Laws.Shape.abortDone (p : Nat) (f : Frame) : Laws.Shape.Statement (.abortDone p f) :=
  ⟨rfl, fun _ => rfl⟩

theorem Laws.Shape.regRsp (p : Nat) (f : Frame) : Laws.Shape.Statement (.regRsp p f) :=
  ⟨rfl, fun _ => rfl⟩

theorem Laws.Shape.busyRetry (cell : Nat) : Laws.Shape.Statement (.busyRetry cell) :=
  ⟨rfl, fun _ => rfl⟩

theorem Laws.Shape.chpWerrRead (p : Nat) : Laws.Shape.Statement (.chpWerrRead p) :=
  ⟨rfl, fun _ => rfl⟩

theorem Laws.Shape.dpcContainment (p : Nat) : Laws.Shape.Statement (.dpcContainment p) :=
  ⟨rfl, fun _ => rfl⟩

theorem Laws.Shape.pcieHotplugEvent (p : Nat) (ev : HotPlug) : Laws.Shape.Statement (.pcieHotplugEvent p ev) :=
  ⟨rfl, fun _ => rfl⟩

theorem Laws.Shape.engineRingPoll (e : Nat) : Laws.Shape.Statement (.engineRingPoll e) :=
  ⟨rfl, fun _ => rfl⟩

theorem Laws.Shape.engineJobEnd (e : Nat) (bad : EngBad) : Laws.Shape.Statement (.engineJobEnd e bad) :=
  ⟨rfl, fun _ => rfl⟩

theorem Laws.Shape.jobSuspend (e upTo : Nat) : Laws.Shape.Statement (.jobSuspend e upTo) :=
  ⟨rfl, fun _ => rfl⟩

theorem Laws.Shape.ringEnable (e ring : Nat) (v : Word) : Laws.Shape.Statement (.ringEnable e ring v) :=
  ⟨rfl, fun _ => rfl⟩

theorem Laws.Shape.ringRestart (e ring : Nat) (v : Word) : Laws.Shape.Statement (.ringRestart e ring v) :=
  ⟨rfl, fun _ => rfl⟩

theorem Laws.Shape.keyslotLoad (v : Word) : Laws.Shape.Statement (.keyslotLoad v) :=
  ⟨rfl, fun _ => rfl⟩

theorem Laws.Shape.keyslotGenerate (v : Word) : Laws.Shape.Statement (.keyslotGenerate v) :=
  ⟨rfl, fun _ => rfl⟩

theorem Laws.Shape.keyslotErase (v : Word) : Laws.Shape.Statement (.keyslotErase v) :=
  ⟨rfl, fun _ => rfl⟩

theorem Laws.Shape.wrapKeyLoad (v : Word) : Laws.Shape.Statement (.wrapKeyLoad v) :=
  ⟨rfl, fun _ => rfl⟩

theorem Laws.Shape.wrapKeyGenerate (v : Word) : Laws.Shape.Statement (.wrapKeyGenerate v) :=
  ⟨rfl, fun _ => rfl⟩

theorem Laws.Shape.kscmdDone : Laws.Shape.Statement (.kscmdDone) :=
  ⟨rfl, fun _ => rfl⟩

theorem Laws.Shape.keyslotGrantWrite (k : Nat) (v : Word) : Laws.Shape.Statement (.keyslotGrantWrite k v) :=
  ⟨rfl, fun _ => rfl⟩

theorem Laws.Shape.engineParityError (e : Nat) (half : Option Nat) : Laws.Shape.Statement (.engineParityError e half) :=
  ⟨rfl, fun _ => rfl⟩

theorem Laws.Shape.faultReport (rs : List Report) : Laws.Shape.Statement (.faultReport rs) :=
  ⟨rfl, fun _ => rfl⟩

theorem Laws.Shape.blockResetRelease (dom : Nat) : Laws.Shape.Statement (.blockResetRelease dom) :=
  ⟨rfl, fun _ => rfl⟩

theorem Laws.Shape.conseqWindowClose (i : Nat) : Laws.Shape.Statement (.conseqWindowClose i) :=
  ⟨rfl, fun _ => rfl⟩

theorem Laws.Shape.safeStateComplete : Laws.Shape.Statement (.safeStateComplete) :=
  ⟨rfl, fun _ => rfl⟩

theorem Laws.Shape.fcuRecordClear (v : Word) (same : List Report) : Laws.Shape.Statement (.fcuRecordClear v same) :=
  ⟨rfl, fun _ => rfl⟩

theorem Laws.Shape.fcuWireClear (k : Nat) (v : Word) : Laws.Shape.Statement (.fcuWireClear k v) :=
  ⟨rfl, fun _ => rfl⟩

theorem Laws.Shape.fcuCntRead (k : Nat) : Laws.Shape.Statement (.fcuCntRead k) :=
  ⟨rfl, fun _ => rfl⟩

theorem Laws.Shape.faultInject (v : Word) : Laws.Shape.Statement (.faultInject v) :=
  ⟨rfl, fun _ => rfl⟩

theorem Laws.Shape.warpLinkDown (link : Nat) : Laws.Shape.Statement (.warpLinkDown link) :=
  ⟨rfl, fun _ => rfl⟩

theorem Laws.Shape.admissionAnnounce (src : Option Announcement) : Laws.Shape.Statement (.admissionAnnounce src) :=
  ⟨rfl, fun _ => rfl⟩

theorem Laws.Shape.nonceSend (v : Word) : Laws.Shape.Statement (.nonceSend v) :=
  ⟨rfl, fun _ => rfl⟩

theorem Laws.Shape.signatureReceived (link : Nat) (sig : List Word) : Laws.Shape.Statement (.signatureReceived link sig) :=
  ⟨rfl, fun _ => rfl⟩

theorem Laws.Shape.admitModule (v : Word) : Laws.Shape.Statement (.admitModule v) :=
  ⟨rfl, fun _ => rfl⟩

theorem Laws.Shape.admitStandby (v : Word) : Laws.Shape.Statement (.admitStandby v) :=
  ⟨rfl, fun _ => rfl⟩

theorem Laws.Shape.reject (v : Word) : Laws.Shape.Statement (.reject v) :=
  ⟨rfl, fun _ => rfl⟩

theorem Laws.Shape.admissionReceived (mid : Nat) (members : BitVec 16) (pick : Nat) (standby : Bool) : Laws.Shape.Statement (.admissionReceived mid members pick standby) :=
  ⟨rfl, fun _ => rfl⟩

theorem Laws.Shape.checkpointCommit : Laws.Shape.Statement (.checkpointCommit) :=
  ⟨rfl, fun _ => rfl⟩

theorem Laws.Shape.heartbeat (b : Beat) : Laws.Shape.Statement (.heartbeat b) :=
  ⟨rfl, fun _ => rfl⟩

theorem Laws.Shape.heartbeatCheck : Laws.Shape.Statement (.heartbeatCheck) :=
  ⟨rfl, fun _ => rfl⟩

theorem Laws.Shape.splDecide (v : Word) : Laws.Shape.Statement (.splDecide v) :=
  ⟨rfl, fun _ => rfl⟩

theorem Laws.Shape.fenceOutRelease : Laws.Shape.Statement (.fenceOutRelease) :=
  ⟨rfl, fun _ => rfl⟩

theorem Laws.Shape.fenceIn (low : Nat) : Laws.Shape.Statement (.fenceIn low) :=
  ⟨rfl, fun _ => rfl⟩

theorem Laws.Shape.warpFence : Laws.Shape.Statement (.warpFence) :=
  ⟨rfl, fun _ => rfl⟩

theorem Laws.Shape.fenced (mid : Nat) : Laws.Shape.Statement (.fenced mid) :=
  ⟨rfl, fun _ => rfl⟩

theorem Laws.Shape.takeoverWakeDone : Laws.Shape.Statement (.takeoverWakeDone) :=
  ⟨rfl, fun _ => rfl⟩

theorem Laws.Shape.claimWaitExpiry (ck : Checkpoint) : Laws.Shape.Statement (.claimWaitExpiry ck) :=
  ⟨rfl, fun _ => rfl⟩

theorem Laws.Shape.checkpointLoadDone : Laws.Shape.Statement (.checkpointLoadDone) :=
  ⟨rfl, fun _ => rfl⟩

theorem Laws.Shape.rejoin (twin served : Nat) (epoch : Nat) : Laws.Shape.Statement (.rejoin twin served epoch) :=
  ⟨rfl, fun _ => rfl⟩

theorem Laws.Shape.rejoinAck (mid : Nat) : Laws.Shape.Statement (.rejoinAck mid) :=
  ⟨rfl, fun _ => rfl⟩

theorem Laws.Shape.plannedSwitchover (v : Word) : Laws.Shape.Statement (.plannedSwitchover v) :=
  ⟨rfl, fun _ => rfl⟩

theorem Laws.Shape.leave (v : Word) : Laws.Shape.Statement (.leave v) :=
  ⟨rfl, fun _ => rfl⟩

theorem Laws.Shape.leaveDrainDone : Laws.Shape.Statement (.leaveDrainDone) :=
  ⟨rfl, fun _ => rfl⟩

theorem Laws.Shape.leaveMessage (mid : Nat) : Laws.Shape.Statement (.leaveMessage mid) :=
  ⟨rfl, fun _ => rfl⟩

theorem Laws.Shape.domainRequest (dom : Nat) (v : Word) : Laws.Shape.Statement (.domainRequest dom v) :=
  ⟨rfl, fun _ => rfl⟩

theorem Laws.Shape.domainTransitionStart (dom : Nat) : Laws.Shape.Statement (.domainTransitionStart dom) :=
  ⟨rfl, fun _ => rfl⟩

theorem Laws.Shape.domainDrainTimeout (dom : Nat) : Laws.Shape.Statement (.domainDrainTimeout dom) :=
  ⟨rfl, fun _ => rfl⟩

theorem Laws.Shape.domainTransitionDone (dom : Nat) (sealOk : Bool) : Laws.Shape.Statement (.domainTransitionDone dom sealOk) :=
  ⟨rfl, fun _ => rfl⟩

theorem Laws.Shape.pwrDarkRead : Laws.Shape.Statement (.pwrDarkRead) :=
  ⟨rfl, fun _ => rfl⟩

theorem Laws.Shape.pwrRefcntRead (i : Nat) : Laws.Shape.Statement (.pwrRefcntRead i) :=
  ⟨rfl, fun _ => rfl⟩

theorem Laws.Shape.lifecycleRetain (v : Word) : Laws.Shape.Statement (.lifecycleRetain v) :=
  ⟨rfl, fun _ => rfl⟩

theorem Laws.Shape.retainEntered : Laws.Shape.Statement (.retainEntered) :=
  ⟨rfl, fun _ => rfl⟩

theorem Laws.Shape.retainWake (badSeals : List Nat) : Laws.Shape.Statement (.retainWake badSeals) :=
  ⟨rfl, fun _ => rfl⟩

theorem Laws.Shape.padRelease (v : Word) : Laws.Shape.Statement (.padRelease v) :=
  ⟨rfl, fun _ => rfl⟩

theorem Laws.Shape.rclkFreqError (ppm : Int) : Laws.Shape.Statement (.rclkFreqError ppm) :=
  ⟨rfl, fun _ => rfl⟩

theorem Laws.Shape.clockLoss (pll : Option Nat) : Laws.Shape.Statement (.clockLoss pll) :=
  ⟨rfl, fun _ => rfl⟩

theorem Laws.Shape.supplyWarn (rail : Nat) : Laws.Shape.Statement (.supplyWarn rail) :=
  ⟨rfl, fun _ => rfl⟩

theorem Laws.Shape.halvingExpiry (tile : Nat) : Laws.Shape.Statement (.halvingExpiry tile) :=
  ⟨rfl, fun _ => rfl⟩

theorem Laws.Shape.railReset (rail : Nat) : Laws.Shape.Statement (.railReset rail) :=
  ⟨rfl, fun _ => rfl⟩

theorem Laws.Shape.standingBrownout : Laws.Shape.Statement (.standingBrownout) :=
  ⟨rfl, fun _ => rfl⟩

theorem Laws.Shape.thermalThrottle (sensor : Nat) (celsius : Nat) : Laws.Shape.Statement (.thermalThrottle sensor celsius) :=
  ⟨rfl, fun _ => rfl⟩

theorem Laws.Shape.thermalTrip (sensor : Nat) (celsius : Nat) : Laws.Shape.Statement (.thermalTrip sensor celsius) :=
  ⟨rfl, fun _ => rfl⟩

theorem Laws.Shape.powerOn : Laws.Shape.Statement (.powerOn) :=
  ⟨rfl, fun _ => rfl⟩

theorem Laws.Shape.coldBoot (b : BootInputs) : Laws.Shape.Statement (.coldBoot b) :=
  ⟨rfl, fun _ => rfl⟩

theorem Laws.Shape.pwrgoodFall : Laws.Shape.Statement (.pwrgoodFall) :=
  ⟨rfl, fun _ => rfl⟩

theorem Laws.Shape.railWaitDone : Laws.Shape.Statement (.railWaitDone) :=
  ⟨rfl, fun _ => rfl⟩

theorem Laws.Shape.bootStageDone (r : StageResult) : Laws.Shape.Statement (.bootStageDone r) :=
  ⟨rfl, fun _ => rfl⟩

theorem Laws.Shape.bootCordRelease : Laws.Shape.Statement (.bootCordRelease) :=
  ⟨rfl, fun _ => rfl⟩

theorem Laws.Shape.warmReset (low : Nat) (r : ResetInputs) : Laws.Shape.Statement (.warmReset low r) :=
  ⟨rfl, fun _ => rfl⟩

theorem Laws.Shape.modRstWarm (v : Word) (r : ResetInputs) : Laws.Shape.Statement (.modRstWarm v r) :=
  ⟨rfl, fun _ => rfl⟩

theorem Laws.Shape.modRstCold (v : Word) : Laws.Shape.Statement (.modRstCold v) :=
  ⟨rfl, fun _ => rfl⟩

theorem Laws.Shape.i3cEntdaa (addr : BitVec 7) : Laws.Shape.Statement (.i3cEntdaa addr) :=
  ⟨rfl, fun _ => rfl⟩

theorem Laws.Shape.i3cRead (off : Nat) : Laws.Shape.Statement (.i3cRead off) :=
  ⟨rfl, fun _ => rfl⟩

theorem Laws.Shape.i3cWrite (off : Nat) (v : Word) : Laws.Shape.Statement (.i3cWrite off v) :=
  ⟨rfl, fun _ => rfl⟩

theorem Laws.Shape.i3cWarmReset (r : ResetInputs) : Laws.Shape.Statement (.i3cWarmReset r) :=
  ⟨rfl, fun _ => rfl⟩

theorem Laws.Shape.i3cColdReset : Laws.Shape.Statement (.i3cColdReset) :=
  ⟨rfl, fun _ => rfl⟩

theorem Laws.Shape.ownerOpen : Laws.Shape.Statement (.ownerOpen) :=
  ⟨rfl, fun _ => rfl⟩

theorem Laws.Shape.challenge : Laws.Shape.Statement (.challenge) :=
  ⟨rfl, fun _ => rfl⟩

theorem Laws.Shape.factory : Laws.Shape.Statement (.factory) :=
  ⟨rfl, fun _ => rfl⟩

theorem Laws.Shape.seal : Laws.Shape.Statement (.seal) :=
  ⟨rfl, fun _ => rfl⟩

theorem Laws.Shape.setPassword : Laws.Shape.Statement (.setPassword) :=
  ⟨rfl, fun _ => rfl⟩

theorem Laws.Shape.challengeExpiry : Laws.Shape.Statement (.challengeExpiry) :=
  ⟨rfl, fun _ => rfl⟩

theorem Laws.Shape.authDelayExpiry : Laws.Shape.Statement (.authDelayExpiry) :=
  ⟨rfl, fun _ => rfl⟩

theorem Laws.Shape.record (v : Word) : Laws.Shape.Statement (.record v) :=
  ⟨rfl, fun _ => rfl⟩

theorem Laws.Shape.release (v : Word) : Laws.Shape.Statement (.release v) :=
  ⟨rfl, fun _ => rfl⟩

theorem Laws.Shape.stop (v : Word) : Laws.Shape.Statement (.stop v) :=
  ⟨rfl, fun _ => rfl⟩

theorem Laws.Shape.replay (v : Word) : Laws.Shape.Statement (.replay v) :=
  ⟨rfl, fun _ => rfl⟩

theorem Laws.Shape.replayApplyInput : Laws.Shape.Statement (.replayApplyInput) :=
  ⟨rfl, fun _ => rfl⟩

theorem Laws.Shape.warpLinkUp (link peer : Nat) : Laws.Shape.Statement (.warpLinkUp link peer) :=
  ⟨rfl, fun _ => rfl⟩

theorem Laws.Shape.inboundTlp (p : Nat) (t : TlpIn) : Laws.Shape.Statement (.inboundTlp p t) :=
  ⟨rfl, fun _ => rfl⟩

theorem Laws.Shape.undefinedEncoding (a : Agent) (w : InsnWord) : Laws.Shape.Statement (.undefinedEncoding a w) :=
  ⟨rfl, fun _ => rfl⟩

theorem Laws.Shape.silentTargetLoad (a : Agent) : Laws.Shape.Statement (.silentTargetLoad a) :=
  ⟨rfl, fun _ => rfl⟩

theorem Laws.Shape.warmResetRelease : Laws.Shape.Statement (.warmResetRelease) :=
  ⟨rfl, fun _ => rfl⟩

theorem Laws.Shape.thermalHalvingExpiry (tile : Nat) : Laws.Shape.Statement (.thermalHalvingExpiry tile) :=
  ⟨rfl, fun _ => rfl⟩

end Sys2Proof
end

