-- ==== Sys2Proof/Laws/Regs.lean ====
section
/-! SUPPORT. Laws of control-window registers: bits of a number, and reads of words and fields after writes. -/

namespace Sys2Proof.Machine

/-! ### Bits -/

theorem bits_lt (x l w : Nat) : bits x l w < 2 ^ w := Nat.mod_lt _ (Nat.two_pow_pos w)

/-- The replaced field reads as the value written, cut to its width. -/
@[simp] theorem bits_setBits_same (x l w v : Nat) : bits (setBits x l w v) l w = v % 2 ^ w := by
  have h0 : x % 2 ^ l < 2 ^ l := Nat.mod_lt _ (Nat.two_pow_pos l)
  have e : setBits x l w v = x % 2 ^ l + 2 ^ l * (v % 2 ^ w + 2 ^ w * (x / 2 ^ (l + w))) := by
    simp only [setBits, Nat.pow_add]; ring
  rw [bits, e, Nat.add_mul_div_left _ _ (Nat.two_pow_pos l), Nat.div_eq_of_lt h0, Nat.zero_add, Nat.add_mul_mod_self_left,
    Nat.mod_mod]

/-- A field below the replaced one reads as before. -/
theorem bits_setBits_below (x l w v l' w' : Nat) (h : l' + w' ≤ l) : bits (setBits x l w v) l' w' = bits x l' w' := by
  obtain ⟨d, rfl⟩ : ∃ d, l = l' + w' + d := ⟨l - (l' + w'), by omega⟩
  have key : ∀ y, bits y l' w' = y % 2 ^ (l' + w') / 2 ^ l' := by
    intro y
    rw [bits, Nat.pow_add, Nat.mod_mul_right_div_self]
  rw [key, key]
  congr 1
  have e : setBits x (l' + w' + d) w v
      = x % 2 ^ (l' + w' + d) + 2 ^ (l' + w') * (2 ^ d * (v % 2 ^ w + 2 ^ w * (x / 2 ^ (l' + w' + d + w)))) := by
    simp only [setBits, Nat.pow_add]; ring
  rw [e, Nat.add_mul_mod_self_left, Nat.pow_add 2 (l' + w') d, Nat.mod_mul_right_mod]

/-- A field above the replaced one reads as before. -/
theorem bits_setBits_above (x l w v l' w' : Nat) (h : l + w ≤ l') : bits (setBits x l w v) l' w' = bits x l' w' := by
  obtain ⟨d, rfl⟩ : ∃ d, l' = l + w + d := ⟨l' - (l + w), by omega⟩
  have h0 : x % 2 ^ l + v % 2 ^ w * 2 ^ l < 2 ^ (l + w) := by
    have h1 : x % 2 ^ l < 2 ^ l := Nat.mod_lt _ (Nat.two_pow_pos l)
    have h2 : v % 2 ^ w + 1 ≤ 2 ^ w := Nat.mod_lt _ (Nat.two_pow_pos w)
    have h3 : (v % 2 ^ w + 1) * 2 ^ l ≤ 2 ^ w * 2 ^ l := Nat.mul_le_mul_right _ h2
    rw [Nat.pow_add, Nat.mul_comm (2 ^ l)]
    rw [Nat.add_mul] at h3
    omega
  have e : setBits x l w v / 2 ^ (l + w) = x / 2 ^ (l + w) := by
    rw [setBits, Nat.add_mul_div_right _ _ (Nat.two_pow_pos _), Nat.div_eq_of_lt h0, Nat.zero_add]
  rw [bits, bits, Nat.pow_add 2 (l + w) d, ← Nat.div_div_eq_div_mul, ← Nat.div_div_eq_div_mul, e]

/-- Two fields of a word that share no bit. -/
theorem bits_setBits_other (x l w v l' w' : Nat) (h : l' + w' ≤ l ∨ l + w ≤ l') :
    bits (setBits x l w v) l' w' = bits x l' w' :=
  h.elim (bits_setBits_below x l w v l' w') (bits_setBits_above x l w v l' w')

theorem setBits_lt (x l w v : Nat) (hx : x < 2 ^ 64) (h : l + w ≤ 64) : setBits x l w v < 2 ^ 64 := by
  have h1 : x % 2 ^ l < 2 ^ l := Nat.mod_lt _ (Nat.two_pow_pos l)
  have h2 : v % 2 ^ w + 1 ≤ 2 ^ w := Nat.mod_lt _ (Nat.two_pow_pos w)
  have h3 : (v % 2 ^ w + 1) * 2 ^ l ≤ 2 ^ w * 2 ^ l := Nat.mul_le_mul_right _ h2
  rw [Nat.add_mul] at h3
  have h4 : x / 2 ^ (l + w) < 2 ^ (64 - (l + w)) := by
    rw [Nat.div_lt_iff_lt_mul (Nat.two_pow_pos _), ← Nat.pow_add]
    simpa [Nat.sub_add_cancel h] using hx
  have h5 : (x / 2 ^ (l + w) + 1) * 2 ^ (l + w) ≤ 2 ^ (64 - (l + w)) * 2 ^ (l + w) := Nat.mul_le_mul_right _ h4
  rw [← Nat.pow_add, Nat.sub_add_cancel h, Nat.add_mul] at h5
  have h6 : 2 ^ (l + w) = 2 ^ w * 2 ^ l := by rw [Nat.pow_add, Nat.mul_comm]
  simp only [setBits]
  omega

/-! ### Words -/

theorem allRows_reset_lt (off : Nat) : ∀ r ∈ rowsAt off, r.reset < 2 ^ 64 := by
  unfold rowsAt
  split <;> first | decide | (split; decide; split; decide; split; decide; decide)

theorem headD_ite_le (c : Prop) [Decidable c] (a b : List Nat) (ha : a.headD 0 ≤ 6) (hb : b.headD 0 ≤ 6) :
    (if c then a else b).headD 0 ≤ 6 := by
  split <;> assumption

theorem defaultReaction_le (src sev : Nat) : defaultReaction src sev ≤ 6 := by
  unfold defaultReaction reactions
  split <;> repeat' first
    | exact Nat.zero_le _
    | decide
    | apply headD_ite_le

theorem caps_le (src : Nat) : caps src ≤ 15 := by
  unfold caps
  repeat' split
  all_goals decide

theorem fcuSrcReset_lt (src : Nat) : fcuSrcReset src < 2 ^ 64 := by
  have h0 := defaultReaction_le src 0
  have h1 := defaultReaction_le src 1
  have h2 := defaultReaction_le src 2
  have h3 := defaultReaction_le src 3
  have h4 := caps_le src
  unfold fcuSrcReset
  omega

theorem resetWord_lt (off : Nat) : resetWord off < 2 ^ 64 := by
  unfold resetWord
  split
  · decide
  · rename_i r h
    have hr := allRows_reset_lt off r (List.mem_of_find?_eq_some h)
    split
    · split <;> decide
    · split
      · exact fcuSrcReset_lt _
      · exact hr

/-- A register written reads as the word written, cut to 64 bits. -/
@[simp] theorem State.rd_wr_same (s : State) (off x : Nat) : (s.wr off x).rd off = x % 2 ^ 64 := by
  unfold State.rd State.wr
  simp only [mget?_mput_same]
  by_cases h : BitVec.ofNat 64 x = BitVec.ofNat 64 (resetWord off)
  · have := congrArg BitVec.toNat h
    simp only [BitVec.toNat_ofNat] at this
    rw [if_pos h, this, Nat.mod_eq_of_lt (resetWord_lt off)]
  · simp [h]

/-- Another register reads as before. -/
theorem State.rd_wr_other (s : State) {off off' : Nat} (x : Nat) (h : off' ≠ off) : (s.wr off x).rd off' = s.rd off' := by
  simp [State.rd, State.wr, mget?_mput_other _ _ _ h]

theorem State.rd_lt (s : State) (off : Nat) : s.rd off < 2 ^ 64 := by
  unfold State.rd
  split
  · exact BitVec.isLt _
  · exact resetWord_lt off

/-! ### Fields -/

/-- A field written reads as the value written, cut to its width. -/
theorem State.get_put_same (s : State) (f : Fld) (v : Nat) (h : f.lsb + f.w ≤ 64) : (s.put f v).get f = v % 2 ^ f.w := by
  rw [State.get, State.put, State.rd_wr_same, Nat.mod_eq_of_lt (setBits_lt _ _ _ _ (s.rd_lt _) h), bits_setBits_same]

/-- A field of another register reads as before. -/
theorem State.get_put_reg (s : State) (f g : Fld) (v : Nat) (h : g.off ≠ f.off) : (s.put f v).get g = s.get g := by
  rw [State.get, State.put, State.rd_wr_other _ _ h, State.get]

/-- A field of the same register that shares no bit with the written one reads as before. -/
theorem State.get_put_bits (s : State) (f g : Fld) (v : Nat) (hf : f.lsb + f.w ≤ 64)
    (h : g.lsb + g.w ≤ f.lsb ∨ f.lsb + f.w ≤ g.lsb) : (s.put f v).get g = s.get g := by
  by_cases ho : g.off = f.off
  · rw [State.get, State.put, ho, State.rd_wr_same, Nat.mod_eq_of_lt (setBits_lt _ _ _ _ (s.rd_lt _) hf),
      bits_setBits_other _ _ _ _ _ _ h, State.get, ho]
  · exact State.get_put_reg s f g v ho

end Sys2Proof.Machine
end

