-- ==== Sys2Proof/Laws/Stack.lean ====
section
/-! SUPPORT. Laws of the operand stack and the store buffer of a core: what pops, pushes, spills and stores change. -/

namespace Sys2Proof.Machine

/-! ### Fields that stack work and stores leave -/

/-- Two cores that differ at most in SP, the stack cache, the store buffer, the program count of stores, the open knot's write set, the
reservation and the stores of the group. -/
def Core.sameBut (k k' : Core) : Prop :=
  k' = { k with stkU := { k.stkU with sp := k'.stkU.sp }, stkS := { k.stkS with sp := k'.stkS.sp }
                stkH := { k.stkH with sp := k'.stkH.sp }, cache := k'.cache, sbuf := k'.sbuf, ord := k'.ord
                knot := k'.knot, resv := k'.resv, wrote := k'.wrote }

theorem Core.sameBut_refl (k : Core) : k.sameBut k := rfl

theorem Core.sameBut_trans {a b c : Core} (h1 : a.sameBut b) (h2 : b.sameBut c) : a.sameBut c := by
  unfold Core.sameBut at *
  rw [h1] at h2
  exact h2

theorem Core.setSp_sameBut (k : Core) (v : Nat) : k.sameBut (k.setSp v) := by
  unfold Core.setSp Core.setStkOf Core.stkOf Core.sameBut
  cases h : k.lvl <;> rfl

theorem Core.clearResv_sameBut (k : Core) (pa n : Nat) : k.sameBut (k.clearResv pa n) := by
  unfold Core.clearResv
  split
  · split <;> rfl
  · rfl

theorem Core.store_sameBut (k : Core) (st : StoreReq) : k.sameBut (k.store st) := by
  unfold Core.store
  exact Core.sameBut_trans (by rfl) (Core.clearResv_sameBut _ _ _)

theorem Core.spillDeepest_sameBut (k : Core) (t : Nat) : k.sameBut (k.spillDeepest t) := by
  unfold Core.spillDeepest
  split
  · rfl
  · exact Core.sameBut_trans (by rfl) (Core.store_sameBut _ _)

theorem Core.spillN_sameBut (k : Core) (t n : Nat) : k.sameBut (k.spillN t n) := by
  induction n generalizing k with
  | zero => rfl
  | succ n ih => exact Core.sameBut_trans (k.spillDeepest_sameBut t) (ih _)

theorem Core.pushHome_sameBut (k : Core) (t : Nat) (v : Word) (h : Home) : k.sameBut (k.pushHome t v h) := by
  unfold Core.pushHome
  split
  · exact Core.sameBut_trans (k.spillDeepest_sameBut t)
      (Core.sameBut_trans (Core.setSp_sameBut _ _) (by rfl))
  · exact Core.sameBut_trans (Core.setSp_sameBut _ _) (by rfl)

theorem Core.popN_sameBut (k : Core) (n : Nat) : k.sameBut (k.popN n) := by
  induction n generalizing k with
  | zero => rfl
  | succ n ih => exact Core.sameBut_trans (Core.sameBut_trans (k.setSp_sameBut _) (by rfl)) (ih _)

theorem Core.foldl_pushHome_sameBut (t : Nat) (vs : List (Word × Home)) (k : Core) :
    k.sameBut (vs.foldl (fun k x => k.pushHome t x.1 x.2) k) := by
  induction vs generalizing k with
  | nil => rfl
  | cons v vs ih => exact Core.sameBut_trans (k.pushHome_sameBut t _ _) (ih _)

/-- Pops and pushes as one fold. -/
theorem Core.replace_eq (k : Core) (t p : Nat) (vs : List (Word × Home)) :
    k.replace t p vs = vs.foldl (fun k x => k.pushHome t x.1 x.2) (k.popN p) := by
  cases vs <;> rfl

theorem Core.replace_sameBut (k : Core) (t p : Nat) (vs : List (Word × Home)) : k.sameBut (k.replace t p vs) := by
  rw [Core.replace_eq]
  exact Core.sameBut_trans (k.popN_sameBut p) (Core.foldl_pushHome_sameBut t vs _)

/-! ### No knot, room in the buffer -/

theorem Core.setSp_knot (k : Core) (v : Nat) : (k.setSp v).knot = k.knot := by
  unfold Core.setSp Core.setStkOf; cases k.lvl <;> rfl

theorem Core.setSp_sbuf (k : Core) (v : Nat) : (k.setSp v).sbuf = k.sbuf := by
  unfold Core.setSp Core.setStkOf; cases k.lvl <;> rfl

theorem Core.setSp_cache (k : Core) (v : Nat) : (k.setSp v).cache = k.cache := by
  unfold Core.setSp Core.setStkOf; cases k.lvl <;> rfl

theorem Core.clearResv_knot (k : Core) (pa n : Nat) : (k.clearResv pa n).knot = k.knot := by
  unfold Core.clearResv; split
  · split <;> rfl
  · rfl

theorem Core.clearResv_sbuf (k : Core) (pa n : Nat) : (k.clearResv pa n).sbuf = k.sbuf := by
  unfold Core.clearResv; split
  · split <;> rfl
  · rfl

theorem Core.clearResv_cache (k : Core) (pa n : Nat) : (k.clearResv pa n).cache = k.cache := by
  unfold Core.clearResv; split
  · split <;> rfl
  · rfl

theorem Core.store_knot (k : Core) (st : StoreReq) (h : k.knot = none) : (k.store st).knot = none := by
  simp [Core.store, Core.clearResv_knot, h]

@[simp] theorem Core.store_cache (k : Core) (st : StoreReq) : (k.store st).cache = k.cache := by
  simp [Core.store, Core.clearResv_cache]

theorem sbJoin_buffers (st : StoreReq) (kn : Bool) (n : Nat) (l l' : List SbEnt) (h : sbJoin st kn n l = some l') :
    (l'.filter (fun e => !e.sent)).length = (l.filter (fun e => !e.sent)).length := by
  induction l generalizing l' with
  | nil => simp [sbJoin] at h
  | cons e t ih =>
    unfold sbJoin at h
    split at h
    · cases h
      simp only [List.filter_cons, SbEnt.join]
      split <;> rfl
    · cases hj : sbJoin st kn n t with
      | none => simp [hj] at h
      | some t' =>
        simp only [hj, Option.map_some, Option.some.injEq] at h
        subst h
        have := ih t' hj
        by_cases hs : e.sent <;> simp [hs, this]

/-- A store takes at most one more entry of the buffer. -/
theorem Core.store_buffers (k : Core) (st : StoreReq) : (k.store st).buffers ≤ k.buffers + 1 := by
  unfold Core.buffers Core.store
  simp only [Core.clearResv_sbuf]
  split
  · rename_i l hl
    rw [sbJoin_buffers _ _ _ _ _ hl]
    omega
  · simp [List.filter_append]

theorem Core.spillDeepest_knot (k : Core) (t : Nat) (h : k.knot = none) : (k.spillDeepest t).knot = none := by
  unfold Core.spillDeepest
  split
  · exact h
  · exact Core.store_knot _ _ h

theorem Core.spillDeepest_buffers (k : Core) (t : Nat) : (k.spillDeepest t).buffers ≤ k.buffers + 1 := by
  unfold Core.spillDeepest
  split
  · omega
  · exact Core.store_buffers _ _

theorem Core.pushHome_knot (k : Core) (t : Nat) (v : Word) (h : Home) (hk : k.knot = none) : (k.pushHome t v h).knot = none := by
  unfold Core.pushHome
  split
  · simp [Core.setSp_knot, Core.spillDeepest_knot _ _ hk]
  · simp [Core.setSp_knot, hk]

theorem Core.pushHome_buffers (k : Core) (t : Nat) (v : Word) (h : Home) : (k.pushHome t v h).buffers ≤ k.buffers + 1 := by
  unfold Core.pushHome
  split
  · have := Core.spillDeepest_buffers k t
    simpa [Core.buffers, Core.setSp_sbuf] using this
  · simp [Core.buffers, Core.setSp_sbuf]

theorem Core.popN_knot (k : Core) (n : Nat) : (k.popN n).knot = k.knot := by
  induction n generalizing k with
  | zero => rfl
  | succ n ih => rw [Core.popN, ih]; simp [Core.pop1, Core.setSp_knot]

theorem Core.popN_sbuf (k : Core) (n : Nat) : (k.popN n).sbuf = k.sbuf := by
  induction n generalizing k with
  | zero => rfl
  | succ n ih => rw [Core.popN, ih]; simp [Core.pop1, Core.setSp_sbuf]

/-- Pops take entries from the top of the cache. -/
theorem Core.popN_cache (k : Core) (n : Nat) : (k.popN n).cache = k.cache.drop n := by
  induction n generalizing k with
  | zero => rfl
  | succ n ih => rw [Core.popN, ih]; simp [Core.pop1]

theorem Core.replace_knot (k : Core) (t p : Nat) (vs : List (Word × Home)) (h : k.knot = none) : (k.replace t p vs).knot = none := by
  rw [Core.replace_eq]
  suffices ∀ k : Core, k.knot = none → (vs.foldl (fun k x => k.pushHome t x.1 x.2) k).knot = none from
    this _ (by rw [Core.popN_knot, h])
  induction vs with
  | nil => exact fun _ h => h
  | cons v vs ih => exact fun k h => ih _ (k.pushHome_knot t _ _ h)

theorem Core.replace_buffers (k : Core) (t p : Nat) (vs : List (Word × Home)) :
    (k.replace t p vs).buffers ≤ k.buffers + vs.length := by
  rw [Core.replace_eq]
  suffices ∀ k : Core, (vs.foldl (fun k x => k.pushHome t x.1 x.2) k).buffers ≤ k.buffers + vs.length by
    simpa [Core.buffers, Core.popN_sbuf] using this (k.popN p)
  induction vs with
  | nil => exact fun _ => by simp
  | cons v vs ih =>
    intro k
    have h1 := ih (k.pushHome t v.1 v.2)
    have h2 := k.pushHome_buffers t v.1 v.2
    simp only [List.foldl_cons, List.length_cons] at *
    omega

/-- With room in the cache nothing is spilled: the values pushed stand above the entries that stay. -/
theorem Core.replace_cache (k : Core) (t p : Nat) (vs : List (Word × Home)) (h : (k.cache.length - p) + vs.length ≤ 32) :
    (k.replace t p vs).cache = (vs.map (fun x => ({ val := x.1, home := x.2.pa, attr := x.2.attr } : SEnt))).reverse ++ k.cache.drop p
      ∧ (k.replace t p vs).sbuf = k.sbuf := by
  rw [Core.replace_eq]
  suffices ∀ k : Core, k.cache.length + vs.length ≤ 32 →
      (vs.foldl (fun k x => k.pushHome t x.1 x.2) k).cache
        = (vs.map (fun x => ({ val := x.1, home := x.2.pa, attr := x.2.attr } : SEnt))).reverse ++ k.cache
      ∧ (vs.foldl (fun k x => k.pushHome t x.1 x.2) k).sbuf = k.sbuf by
    have h' := this (k.popN p) (by simpa [Core.popN_cache] using h)
    rwa [Core.popN_cache, Core.popN_sbuf] at h'
  clear h
  induction vs with
  | nil => simp
  | cons v vs ih =>
    intro k hk
    simp only [List.length_cons] at hk
    have hn : ¬ 32 ≤ k.cache.length := by omega
    have e1 : (k.pushHome t v.1 v.2).cache = { val := v.1, home := v.2.pa, attr := v.2.attr } :: k.cache := by
      simp [Core.pushHome, hn, Core.setSp_cache]
    have e2 : (k.pushHome t v.1 v.2).sbuf = k.sbuf := by
      simp [Core.pushHome, hn, Core.setSp_sbuf]
    obtain ⟨h1, h2⟩ := ih (k.pushHome t v.1 v.2) (by rw [e1]; simp; omega)
    simp only [List.foldl_cons, h1, h2, e1, e2, List.map_cons, List.reverse_cons, List.append_assoc, List.singleton_append,
      and_self]

end Sys2Proof.Machine
end

