-- ==== Sys2Proof/Laws/Retire.lean ====
section
/-! SUPPORT. Retirement: what a retiring instruction leaves, for cords and Shuttles. -/

namespace Sys2Proof.Machine

/-- No journal is compared while no replay runs. -/
theorem openDigest_live (s : State) (c n : Nat) (h : s.replaying = false) : openDigest s c n = s := by
  cases n <;> simp [openDigest, State.replayed, h]

/-- A checkpoint copy with no bad word stays as it is. -/
theorem freshEcc_good (s : State) {t : Nat} (k : Nat) (x y : Core) (h : (s.triad t).ckptBad = []) : freshEcc s t k x y = s := by
  simp [freshEcc, h]

/-- A group of a triad that does not resynchronise ends nothing. -/
theorem groupEnds_none (s : State) {c : Nat} (h : (s.triad (s.triadOf c)).resync = none) : groupEnds s c = s := by
  simp [groupEnds, h]

/-- A core as retirement leaves it. -/
def Core.retired (k : Core) (next : Option Word) (recorded : Bool) (r : Word) : Core :=
  let k' : Core := { k with pc := next.getD (k.pc + 4), retire := k.retire + 1, fpCount := k.fpCount.map (fun e => (e.1, e.2 - 1)), answers := [] }
  { k' with digest := if recorded then k'.digested r else k'.digest, wrote := [] }

/-- A cord's instruction retires: its core and its tenant's count change, nothing else. -/
theorem retire_cord {s : State} {c : Nat} (h : Plain s c) (before : Core) (next : Option Word) (r : Word) :
    retireFrom before s (.cord c) next r = (counted s (.cord c)).setCore (.cord c) ((s.cord c).retired next (s.recorded c) r) := by
  unfold retireFrom
  simp only [retiredVote, freshEcc_good _ _ _ _ h.goodCopy, retryResolved, h.noRetry, if_true]
  rw [openDigest_live _ _ _ (by exact h.live), groupEnds_none _ (by exact h.noResync)]
  have e : ∀ (x : State) (k : Core), ((x.setCord c k).account (x.tenantOf c) led.RETIRED 1)
      = (x.account (x.tenantOf c) led.RETIRED 1).setCord c k := fun _ _ => rfl
  simp only [State.modCore, State.setCore, State.core]
  show State.modCord ((s.setCord c _).account (s.tenantOf c) led.RETIRED 1) c _ = _
  rw [e]
  simp only [State.modCord, State.cord_setCord_same, State.setCord_setCord]
  rfl

/-- A Shuttle with nothing buffered. -/
theorem retire_shuttle {s : State} {n : Nat} (h : (s.core (.shuttle n)).sbuf = []) (before : Core) (next : Option Word) (r : Word) :
    ∃ k', retireFrom before s (.shuttle n) next r = s.setCore (.shuttle n) k'
      ∧ k' = { s.core (.shuttle n) with pc := next.getD ((s.core (.shuttle n)).pc + 4)
                                        retire := (s.core (.shuttle n)).retire + 1
                                        fpCount := (s.core (.shuttle n)).fpCount.map (fun e => (e.1, e.2 - 1))
                                        answers := [], wrote := [] } := by
  have h' : (s.shut n).core.sbuf = [] := h
  refine ⟨_, ?_, rfl⟩
  simp [retireFrom, retiredVote, drainShuttle, State.modCore, State.setCore, State.core, State.modShut, h']

/-- A core changed by stack work and by nothing that retirement sets. -/
structure Keeps (k k' : Core) : Prop where
  pc : k'.pc = k.pc
  retire : k'.retire = k.retire
  knot : k'.knot = none

/-- What a change of the core does to the conditions of retirement. -/
theorem retire_modCore {s : State} {a : Agent} {n : Nat} {g : Core → Core} (hq : Quiet s a n) (hk : Keeps (s.core a) (g (s.core a)))
    (hb : (g (s.core a)).sbuf = (s.core a).sbuf ∨ ∃ c, a = .cord c) (before : Core) (next : Option Word) (r : Word) :
    RetiresTo s a (next.getD ((s.core a).pc + 4)) (g (s.core a)) (retireFrom before (s.modCore a g) a next r) := by
  cases a with
  | cord c =>
    obtain ⟨_, _, _, hp⟩ := hq
    have h1 : Plain (s.modCore (.cord c) g) c := by
      refine ⟨?_, hp.noResync, hp.goodCopy, hp.live⟩
      have e : ∀ x, ((s.modCore (.cord c) g).cord x).retire = (s.cord x).retire := by
        intro x
        by_cases hx : x = c
        · subst hx
          simpa [State.modCore, State.setCore, State.core] using hk.retire
        · simp [State.modCore, State.setCore, State.core, State.cord_setCord_other _ _ hx]
      have h := hp.noRetry
      simp only [retriesNow] at h ⊢
      rw [e]
      exact h
    rw [retire_cord h1]
    have ek : (s.modCore (.cord c) g).cord c = g (s.core (.cord c)) := State.core_modCore_same s (.cord c) g
    refine ⟨((s.modCore (.cord c) g).cord c).retired next ((s.modCore (.cord c) g).recorded c) r, ?_, ?_, ?_, ?_⟩
    · show (counted (s.setCore (.cord c) _) (.cord c)).setCore (.cord c) _ = _
      have e : ∀ (k : Core), counted (s.setCore (.cord c) k) (.cord c) = (counted s (.cord c)).setCore (.cord c) k := fun _ => rfl
      rw [e, State.setCore_setCore]
    · simp only [Core.retired, ek, hk.pc]
    · simp only [Core.retired, ek, hk.retire]
    · simp only [Core.retired, ek, Core.rest]
  | shuttle m =>
    have hs : ((s.modCore (.shuttle m) g).core (.shuttle m)).sbuf = [] := by
      rw [State.core_modCore_same]
      rcases hb with hb | ⟨c, hc⟩
      · rw [hb]; exact hq.2.2.1
      · cases hc
    obtain ⟨k', e, hk'⟩ := retire_shuttle hs before next r
    refine ⟨k', ?_, ?_, ?_, ?_⟩
    · rw [e]
      simp [State.modCore, counted]
    · simp [hk', hk.pc]
    · simp [hk', hk.retire]
    · simp [hk', Core.rest]

/-- A change of a core that leaves what retirement looks at: PC, retire count, knot and store buffer. -/
structure Light (g : Core → Core) : Prop where
  pc : ∀ k, (g k).pc = k.pc
  retire : ∀ k, (g k).retire = k.retire
  knot : ∀ k, (g k).knot = k.knot
  sbuf : ∀ k, (g k).sbuf = k.sbuf

theorem light_id : Light id := ⟨fun _ => rfl, fun _ => rfl, fun _ => rfl, fun _ => rfl⟩

theorem light_setFl (f : Flags) : Light (fun k => k.setFl f) := ⟨fun _ => rfl, fun _ => rfl, fun _ => rfl, fun _ => rfl⟩

theorem light_ite (b : Prop) [Decidable b] (f : Flags) : Light (fun k => if b then k.setFl f else k) := by
  constructor <;> intro k <;> split <;> rfl

theorem Core.replace_pc (k : Core) (t p : Nat) (vs : List (Word × Home)) : (k.replace t p vs).pc = k.pc := by
  rw [k.replace_sameBut t p vs]

theorem Core.replace_retire (k : Core) (t p : Nat) (vs : List (Word × Home)) : (k.replace t p vs).retire = k.retire := by
  rw [k.replace_sameBut t p vs]

/-- Pops, pushes and a light change retire (R78). -/
theorem retire_replace {s : State} {a : Agent} {n p : Nat} {vs : List (Word × Home)} {upd : Core → Core} (hq : Quiet s a n)
    (hv : vs.length ≤ n) (hu : Light upd) (before : Core) (next : Option Word) (r : Word) (t : Nat) :
    RetiresTo s a (next.getD ((s.core a).pc + 4)) (upd ((s.core a).replace t p vs))
      (retireFrom before (s.modCore a (fun k => upd (k.replace t p vs))) a next r) := by
  refine retire_modCore (g := fun k => upd (k.replace t p vs)) hq ⟨?_, ?_, ?_⟩ ?_ before next r
  · rw [hu.pc, Core.replace_pc]
  · rw [hu.retire, Core.replace_retire]
  · rw [hu.knot, Core.replace_knot _ _ _ _ hq.1]
  · cases a with
    | cord c => exact .inr ⟨c, rfl⟩
    | shuttle m =>
      refine .inl ?_
      rw [hu.sbuf]
      exact (Core.replace_cache _ _ _ _ (by have := hq.2.2.2; omega)).2

/-- Room for the stores of pops and pushes. -/
theorem replace_room {s : State} {a : Agent} {n p : Nat} {vs : List (Word × Home)} {upd : Core → Core} (hq : Quiet s a n)
    (hv : vs.length ≤ n) (hu : Light upd) (t : Nat) :
    ((s.modCore a (fun k => upd (k.replace t p vs))).core a).buffers ≤ 16 := by
  rw [State.core_modCore_same]
  have e : (upd ((s.core a).replace t p vs)).buffers = ((s.core a).replace t p vs).buffers := by
    simp only [Core.buffers, hu.sbuf]
  rw [e]
  have h1 := Core.replace_buffers (s.core a) t p vs
  cases a with
  | cord c => have h2 := hq.2.2.1; omega
  | shuttle m =>
    have h2 := (Core.replace_cache (s.core (.shuttle m)) t p vs (by have := hq.2.2.2; omega)).2
    have h3 : (s.core (.shuttle m)).sbuf = [] := hq.2.2.1
    simp [Core.buffers, h2, h3]

/-- Retirement waits for nothing of memory. -/
theorem RetiresTo.settled {s t : State} {a : Agent} {next : Word} {k : Core} (h : RetiresTo s a next k t) (hw : s.wants = []) :
    t.wants = [] := by
  obtain ⟨k', e, _⟩ := h
  cases a <;> rw [e] <;> exact hw

/-- An instruction that works on the stack alone completes. -/
theorem stackOp_retires {s s1 s2 : State} {a : Agent} {i : Instr} {cond : BitVec 3} {lvl : Level} {kr : KnotRule}
    {reads pops pushes n : Nat} {f : Core → List Word → Got Out} {st : Stk} {o : Out} (h : Begins s s1 a i cond lvl)
    (hs : stackStep s1 a ((wordOf i).getD 0) reads pops pushes = (s2, .ok st)) (hf : f (s2.core a) st.ins = .ok o)
    (hq : Quiet s2 a n) (hv : o.vals.length ≤ n) (hu : Light o.upd) :
    RetiresTo s2 a (o.next.getD ((s2.core a).pc + 4))
      (o.upd ((s2.core a).replace (s2.agentTenant a) pops (o.vals.zip st.homes)))
      (runInsn a i cond lvl kr (stackOp a reads pops pushes f) s) := by
  have hv' : (o.vals.zip st.homes).length ≤ n := by simp only [List.length_zip]; omega
  have he : endInsn (makeRoom s a) a (stackOp a reads pops pushes f ((wordOf i).getD 0) s1)
      = retireFrom ((makeRoom s a).core a) (s2.modCore a (fun k => o.upd (k.replace (s2.agentTenant a) pops (o.vals.zip st.homes)))) a
          o.next (o.vals.getLastD 0) := by
    simp only [stackOp, hs, andThen, hf]
    rw [endInsn_ok h.noKnot]
    · rfl
    · simp only [State.core_modCore_same, hu.knot]
      exact Core.replace_knot _ _ _ _ hq.1
    · exact replace_room hq hv' hu _
  have hr := retire_replace (p := pops) hq hv' hu ((makeRoom s a).core a) o.next (o.vals.getLastD 0) (s2.agentTenant a)
  rw [runInsn_begins kr _ h, he]
  · exact hr
  · rw [he]
    exact hr.settled hq.2.1

end Sys2Proof.Machine
end

