-- ==== Sys2Proof/Laws/Trap.lean ====
section
/-! SUPPORT. Taking a trap: what the entry of R94 leaves. -/

namespace Sys2Proof.Machine

theorem Core.trOf_setTr_same (k : Core) (l : Level) (x : TrapRegs) : (k.setTr l x).trOf l = x := by
  cases l <;> rfl

theorem Core.spillAll_sameBut (k : Core) (t : Nat) : k.sameBut (k.spillAll t) := Core.spillN_sameBut _ _ _

theorem Core.clearResv_stk (k : Core) (pa n : Nat) (l : Level) : (k.clearResv pa n).stkOf l = k.stkOf l := by
  unfold Core.clearResv
  split
  · split <;> cases l <;> rfl
  · rfl

theorem Core.store_stk (k : Core) (st : StoreReq) (l : Level) : (k.store st).stkOf l = k.stkOf l := by
  rw [Core.store, Core.clearResv_stk]
  cases l <;> rfl

theorem Core.spillDeepest_stk (k : Core) (t : Nat) (l : Level) : (k.spillDeepest t).stkOf l = k.stkOf l := by
  unfold Core.spillDeepest
  split
  · rfl
  · rw [Core.store_stk]
    cases l <;> rfl

theorem Core.spillAll_stk (k : Core) (t : Nat) (l : Level) : (k.spillAll t).stkOf l = k.stkOf l := by
  unfold Core.spillAll
  generalize k.cache.length = n
  induction n generalizing k with
  | zero => rfl
  | succ n ih => rw [Core.spillN, ih, Core.spillDeepest_stk]

/-- The core that an entry of R94 leaves: spilled when the level changes. -/
def Core.entered (k : Core) (tenant : Nat) (t : Trap) (epc : Word) (l : Level) (nested : Bool) : Core :=
  let k1 := if l = k.lvl then k else k.spillAll tenant
  let k2 := k1.setTr l { k1.trOf l with estat := estatWord t.cause k1.lvl k1.ee nested, epc := epc, eval := t.eval }
  { k2 with lvl := l, ee := false, resv := none, run := k2.goes, answers := [], pc := (k1.trOf l).tvec + BitVec.ofNat 64 (t.cause * 0x40) }

/-- A trap that is neither recorded nor imprecise changes the agent's core alone. -/
theorem takeTrap_eq {s : State} {a : Agent} {t : Trap} {epc : Word} {from' l : Level} {nested : Bool}
    (hc : t.cause ≠ trap.BUS_DARK ∧ t.cause ≠ trap.POISON ∧ t.cause ≠ trap.MACHINE_CHECK ∧ t.cause ≠ trap.STORE_BOUNCED
      ∧ t.cause ≠ trap.FP_IMPRECISE)
    (hl : EntersLevel s a t.cause from' l nested) :
    takeTrap s a t epc from' = s.setCore a ((s.core a).entered (s.agentTenant a) t epc l nested) := by
  obtain ⟨h1, h2, h3, h4, h5⟩ := hc
  have hst : ∀ s, stageFault s a t = s := by
    intro s; cases a <;> simp [stageFault, h1, h2, h3, h4]
  rcases hl with ⟨hr, hS, rfl, rfl⟩ | ⟨hr, hS, hH, rfl, rfl⟩ | ⟨hr, hH, rfl, rfl⟩
  · simp [takeTrap, hr, hS, hst, h4, h5, Core.entered]
  · simp [takeTrap, hr, hS, hH, hst, h4, h5, Core.entered]
  · have e : (Level.H == Level.S) = false := rfl
    simp [takeTrap, hr, hH, hst, h4, h5, Core.entered, e]

/-- What the entry leaves of the core's registers. -/
theorem Core.entered_core (k : Core) (tenant : Nat) (t : Trap) (epc : Word) (l : Level) (nested : Bool) (hl : l ≠ .U) :
    TrapCore k (k.entered tenant t epc l nested) t.cause t.eval epc l nested := by
  have hk : ∀ k1 : Core, k.sameBut k1 → (∀ m, k1.stkOf m = k.stkOf m) →
      TrapCore k { k1.setTr l { k1.trOf l with estat := estatWord t.cause k1.lvl k1.ee nested, epc := epc, eval := t.eval } with
        lvl := l, ee := false, resv := none, answers := []
        run := (k1.setTr l { k1.trOf l with estat := estatWord t.cause k1.lvl k1.ee nested, epc := epc, eval := t.eval }).goes
        pc := (k1.trOf l).tvec + BitVec.ofNat 64 (t.cause * 0x40) } t.cause t.eval epc l nested := by
    intro k1 hs hst
    have e1 : k1.trS = k.trS := by rw [hs]
    have e2 : k1.trH = k.trH := by rw [hs]
    have e3 : k1.lvl = k.lvl := by rw [hs]
    have e4 : k1.ee = k.ee := by rw [hs]
    have e5 : k1.flags = k.flags ∧ k1.fcsr = k.fcsr ∧ k1.retire = k.retire ∧ k1.ptbr = k.ptbr ∧ k1.s2br = k.s2br
        ∧ k1.ags = k.ags := by rw [hs]; exact ⟨rfl, rfl, rfl, rfl, rfl, rfl⟩
    obtain ⟨f1, f2, f3, f4, f5, f6⟩ := e5
    have en : estatWord t.cause k.lvl k.ee nested
        = BitVec.ofNat 64 (t.cause + 2 ^ 8 * lvlCode k.lvl + 2 ^ 10 * boolNat k.ee + 2 ^ 11 + 2 ^ 12 * boolNat nested) := by
      have e : t.cause + lvlCode k.lvl * 256 + boolNat k.ee * 1024 + 2048 + boolNat nested * 4096
          = t.cause + 2 ^ 8 * lvlCode k.lvl + 2 ^ 10 * boolNat k.ee + 2 ^ 11 + 2 ^ 12 * boolNat nested := by omega
      rw [estatWord, e]
    cases l with
    | U => exact absurd rfl hl
    | S =>
      refine ⟨rfl, rfl, ?_, rfl, rfl, ?_, ?_, ?_, ⟨fun _ => e2, fun h => by cases h⟩, ?_, f1, f2, f3, f4, f5, f6, rfl⟩
      · simp [Core.trOf, e1]
      · simp only [Core.trOf, Core.setTr, e3, e4, en]
      · simp [Core.trOf, Core.setTr, e1]
      · simp [Core.trOf, Core.setTr, e1]
      · intro m; have := hst m; cases m <;> exact this
    | H =>
      refine ⟨rfl, rfl, ?_, rfl, rfl, ?_, ?_, ?_, ⟨(fun h => by cases h), fun _ => e1⟩, ?_, f1, f2, f3, f4, f5, f6, rfl⟩
      · simp [Core.trOf, e2]
      · simp only [Core.trOf, Core.setTr, e3, e4, en]
      · simp [Core.trOf, Core.setTr, e2]
      · simp [Core.trOf, Core.setTr, e2]
      · intro m; have := hst m; cases m <;> exact this
  unfold Core.entered
  by_cases h : l = k.lvl
  · rw [if_pos h]
    exact hk k (Core.sameBut_refl k) (fun _ => rfl)
  · rw [if_neg h]
    exact hk _ (Core.spillAll_sameBut k tenant) (Core.spillAll_stk k tenant)

end Sys2Proof.Machine
end

