-- ==== Sys2Proof/Machine/Package.lean ====
section
/-! DEFINITION. The package: what each of the 88 × 88 lands carries (R396, R398 to R403), and the rated life (R415). No
command reads it; it stands for itself. -/

namespace Sys2Proof.Machine

/-- The supply rails (R398, R407). -/
inductive Rail where
  | vcore (k : Nat)
  | vunc | vsram | vddq | vser | vio18 | vstby
  deriving DecidableEq, Repr

/-- A wire of a serial lane. -/
structure SerialWire where
  transmit : Bool
  lane : Nat
  positive : Bool
  deriving DecidableEq, Repr

/-- A signal of a DDR subchannel (R402). -/
inductive DdrSignal where
  | dq (n : Nat)
  | dqs (pair : Nat) (positive : Bool)
  | ca (n : Nat)
  | par
  | alertN
  | csN (n : Nat)
  | ck (dimm : Nat) (positive : Bool)
  | drstN
  deriving DecidableEq, Repr

/-- The control signals (R403). -/
inductive ControlSignal where
  | refclk (positive : Bool)
  | picksyncIn (positive : Bool)
  | picksyncOut (positive : Bool)
  | resetN | pwrgood
  | prof (n : Nat)
  | faultN | safeN | fenceInN | fenceOutN | i3cScl | i3cSda
  | thermDiode (positive : Bool)
  | jtagTck | jtagTms | jtagTdi | jtagTdo | jtagTrstN
  | xspiClk | xspiCsN | xspiDqs | xspiResetN
  | xspiDq (n : Nat)
  deriving DecidableEq, Repr

/-- What a land carries. -/
inductive LandUse where
  | vss
  | nc
  | supply (r : Rail)
  | port (p : Nat) (w : SerialWire)
  | warp (k : Nat) (w : SerialWire)
  | xport (k : Nat) (w : SerialWire)
  | ddr (channel sub : Nat) (w : DdrSignal)
  | control (c : ControlSignal)
  deriving DecidableEq, Repr

/-- A land of a supply area: the rail where row plus column is even (R399). -/
def supplyLand (r : Rail) (row col : Nat) : LandUse := if (row + col) % 2 = 0 then .supply r else .vss

/-- A lane of a block: two adjacent columns, P then N. -/
def serialAt (transmit : Bool) (firstLane col : Nat) : SerialWire :=
  { transmit := transmit, lane := firstLane + col / 2, positive := col % 2 == 0 }

/-- The wire at an offset of a channel port's block (R400). -/
def portWire (r c : Nat) : Option SerialWire :=
  match r with
  | 0 => some (serialAt true 0 c)
  | 2 => some (serialAt true 2 c)
  | 3 => some (serialAt false 0 c)
  | 5 => some (serialAt false 2 c)
  | _ => none

/-- The wire at an offset of the block of a warp link or ×8 port (R401). -/
def wideWire (r c : Nat) : Option SerialWire :=
  match r with
  | 0 => some (serialAt true 0 c)
  | 2 => some (serialAt true 4 c)
  | 3 => some (serialAt false 0 c)
  | 5 => some (serialAt false 4 c)
  | _ => none

/-- A wire as a land, VSS where the block has none. -/
def wireLand (f : SerialWire → LandUse) : Option SerialWire → LandUse
  | some w => f w
  | none => .vss

/-- The signal at an offset of a DDR subchannel (R402). -/
def ddrSignal (sub r c : Nat) : Option DdrSignal :=
  if r < 4 then some (.dq (10 * r + c))
  else if r < 6 then some (.dqs (5 * (r - 4) + c / 2) (c % 2 == 0))
  else if r = 6 then
    (if c < 7 then some (.ca c) else if c = 7 then some .par else if c = 8 then some .alertN else none)
  else if r = 7 then
    (if c < 4 then some (.csN c) else if c < 8 then some (.ck ((c - 4) / 2) (c % 2 == 0))
     else if c = 8 ∧ sub = 0 then some .drstN else none)
  else if r = 8 ∧ c < 4 then some (.csN (c + 4))
  else none

/-- A land of a DDR channel's block of 10 columns and 20 rows. -/
def ddrLand (channel r c : Nat) : LandUse :=
  match ddrSignal (r / 10) (r % 10) c with
  | some w => .ddr channel (r / 10) w
  | none => .vss

/-- A land of the control area (R403). -/
def controlLand (row col : Nat) : LandUse :=
  let pair (f : Bool → ControlSignal) : LandUse := if col = 1 then .control (f true) else if col = 2 then .control (f false) else .vss
  let four (a b c d : ControlSignal) : LandUse :=
    if col = 1 then .control a else if col = 2 then .control b else if col = 3 then .control c else .control d
  match row with
  | 1 => pair .refclk
  | 2 => pair .picksyncIn
  | 3 => pair .picksyncOut
  | 5 => four .resetN .pwrgood (.prof 0) (.prof 1)
  | 6 => four .faultN .safeN .fenceInN .fenceOutN
  | 7 => four .i3cScl .i3cSda (.thermDiode true) (.thermDiode false)
  | 8 => four .jtagTck .jtagTms .jtagTdi .jtagTdo
  | 9 => if col = 1 then .control .jtagTrstN else .vss
  | 10 => four .xspiClk .xspiCsN .xspiDqs .xspiResetN
  | 11 => four (.xspiDq 0) (.xspiDq 1) (.xspiDq 2) (.xspiDq 3)
  | 12 => four (.xspiDq 4) (.xspiDq 5) (.xspiDq 6) (.xspiDq 7)
  | _ => if 15 ≤ row ∧ row ≤ 20 then .nc else .vss

/-- A land of rows 021 to 068, by its column (R398, R400, R401). -/
def middleLand (row col : Nat) : LandUse :=
  let r := (row - 21) % 6
  let k := (row - 21) / 6
  if col < 13 then wireLand (.port (3 * k + (col - 1) / 4)) (portWire r ((col - 1) % 4))
  else if col < 21 then wireLand (.warp k) (wideWire r (col - 13))
  else if col < 29 then wireLand (.xport k) (wideWire r (col - 21))
  else if col < 61 then
    (if row < 57 then supplyLand (.vcore ((col - 29) / 8)) row col
     else if row < 63 then supplyLand (if col < 45 then .vunc else .vsram) row col
     else supplyLand (if col < 45 then .vddq else .vser) row col)
  else if col < 69 then wireLand (.xport (8 + k)) (wideWire r (col - 61))
  else if col < 77 then wireLand (.warp (8 + k)) (wideWire r (col - 69))
  else wireLand (.port (24 + 3 * k + (col - 77) / 4)) (portWire r ((col - 77) % 4))

/-- What land row/column carries; none where the package has no such land (R396). -/
def landAt (row col : Nat) : Option LandUse :=
  if row < 1 ∨ 88 < row ∨ col < 1 ∨ 88 < col then none
  else if row < 21 then
    (if col < 5 then some (controlLand row col)
     else if col < 85 then some (ddrLand ((col - 5) / 10) (row - 1) ((col - 5) % 10))
     else some (supplyLand (if row < 11 then .vio18 else .vstby) row col))
  else if row < 69 then some (middleLand row col)
  else if col < 5 ∨ 84 < col then some (supplyLand .vser row col)
  else some (ddrLand (8 + (col - 5) / 10) (row - 69) ((col - 5) % 10))

/-- Rated life in years at an average junction temperature in °C that the table names, within the spare-strand budget (R415). -/
def ratedYears (celsius : Nat) : Option Nat :=
  if celsius ≤ 75 then some 40 else if celsius = 85 then some 15 else if celsius = 95 then some 6 else none

end Sys2Proof.Machine
end

