-- ==== Sys2Proof/Tests/Slice0.lean ====
section
/-! SUPPORT. Tests: words from the worked examples of the spec, the ill-formed terms that WellFormed refuses, and, for every statement about an
instruction that has hypotheses, a state and operands that meet all of them together (`test_witness_<statement>`). -/

namespace Sys2Proof.Tests
open Sys2Proof Sys2Proof.Machine

set_option Elab.async false

/-! ### Small states -/

/-- A running core at H, with its stack at SP 0x8000, SB 0x9000, SL 0x1000. -/
def core0 : Core := { Core.zero with run := .running, lvl := .H, stkH := { sp := 0x8000, sb := 0x9000, sl := 0x1000 } }

/-- Shuttle 0 running this core, everything else as reset leaves it. -/
def onShuttle (k : Core) : State := (State.reset.put (CHS_SHUT.STATE 0) 2).setCore (.shuttle 0) k

/-- A core with these values cached on its stack, the top first. -/
def stacked (xs : List Word) : Core := { core0 with cache := xs.map (fun x => { val := x, home := 0, attr := .cached }) }

/-- A line of the second-level cache, in M, whole, in the first-level caches too. -/
def whole (b : LineData) : CLine :=
  { st := .M, valid := 15, dirty := 0, poison := 0, bytes := b, way := 0, share := 0, l1d := 7, l1i := 7, held := false }

/-- Reset with 1 GiB of memory at every channel of this module. -/
def withMemory : State := { State.reset with boot := { State.reset.boot with prof := [0, 0, 1] } }

/-- Cord 0 running this core from 0x2000, its code, its stack and a data line in the cache of its triad. -/
def onCord (k : Core) : State :=
  (((withMemory.setL2 0 0x20 (whole 0)).setL2 0 0x80 (whole 0)).setL2 0 0x90 (whole 0)).setCore (.cord 0) { k with pc := 0x2000 }

/-- A translation of page n of tenant 0 to itself. -/
def page (n : Nat) : TlbEnt :=
  { cord := 0, tenant := 0, asid := 0, global := false, vpage := n, ppage := n, ipage := n, r := true, w := true, x := true, u := true
    s1 := false, dirty := true, attr := .cached }

/-- The same at a lower level, with the pages that it needs translated. -/
def atLevel (l : Level) (k : Core) : State :=
  { onCord { k with lvl := l, stkU := core0.stkH, stkS := core0.stkH } with tlb := (List.range 16).map page }

/-- A home on a cached page. -/
def hm (n : Nat) : Home := { pa := n, attr := .cached }

def sh : Agent := .shuttle 0
def co : Agent := .cord 0

/-- Fields with this operand, always executed, S = 0. -/
def fo (n : Nat) : FO := { cond := 0, s := false, opnd := BitVec.ofNat 16 n }
def ff (p : Bool) : FF := { cond := 0, s := false, rm := 0, p := p, rz := 0 }
def fl (d : Nat) : FL := { cond := 0, s := false, rz := 0, disp := BitVec.ofNat 14 d }
def fm (sz am ag : Nat) : FM := { cond := 0, s := false, sz := BitVec.ofNat 2 sz, am := BitVec.ofNat 3 am, ag := BitVec.ofNat 3 ag, disp := 0 }

/-! ### Hypotheses as checks -/

/-- The parts of `Fetched` but the well-formedness, as a check; the word is fetched without a change of state. -/
def fetches (s : State) (a : Agent) : Bool :=
  canRun s a && ((makeRoom s a).core a).brks.find? (fun e => e.2 == ((makeRoom s a).core a).pc) == none
    && fetchAt (makeRoom s a) a == (s, .ok ())

def begins (s : State) (a : Agent) (i : Instr) (cond : BitVec 3) (lvl : Level) : Bool :=
  fetches s a && i.ok && ((makeRoom s a).core a).knot == none && (s.core a).knot == none && condHolds (s.core a).fl cond
    && !lvlBelow (s.core a).lvl lvl

theorem fetched_of {s : State} {a : Agent} {i : Instr} (h : fetches s a = true) (w : i.ok = true) : Fetched s s a i := by
  simp only [fetches, Bool.and_eq_true, beq_iff_eq] at h
  exact ⟨h.1.1, w, h.1.2, h.2⟩

theorem begins_of {s : State} {a : Agent} {i : Instr} {cond : BitVec 3} {lvl : Level} (h : begins s a i cond lvl = true) :
    Begins s s a i cond lvl := by
  simp only [begins, Bool.and_eq_true, beq_iff_eq, Bool.not_eq_true'] at h
  obtain ⟨⟨⟨⟨⟨hf, hw⟩, h1⟩, h2⟩, h3⟩, h4⟩ := h
  exact ⟨fetched_of hf hw, h1, h2, h3, h4⟩

/-- The hypotheses that most statements about an instruction share: it begins, its stack step answers, its retirement is quiet. -/
def Ready (s s2 : State) (a : Agent) (i : Instr) (cond : BitVec 3) (lvl : Level) (reads pops pushes : Nat) (st : Stk) (n : Nat) : Prop :=
  Begins s s a i cond lvl ∧ stackStep s a (opWord i) reads pops pushes = (s2, .ok st) ∧ Quiet s2 a n

/-- The parts of `Plain`, as a check. -/
def plainCord (s : State) (c : Nat) : Bool :=
  retriesNow s (s.triadOf c) (s.shareOf c) == 0 && (s.triad (s.triadOf c)).resync == none && (s.triad (s.triadOf c)).ckptBad == []
    && s.replaying == false

theorem plainCord_of {s : State} {c : Nat} (h : plainCord s c = true) : Plain s c := by
  simp only [plainCord, Bool.and_eq_true, beq_iff_eq] at h
  exact ⟨h.1.1.1, h.1.1.2, h.1.2, h.2⟩

def quiet (s : State) (a : Agent) (n : Nat) : Bool :=
  (s.core a).knot == none && s.wants == [] && (match a with
  | .cord c => decide ((s.core a).buffers + n ≤ 16) && plainCord s c
  | .shuttle _ => (s.core a).sbuf == [] && decide ((s.core a).cache.length + n ≤ 32))

theorem quiet_of {s : State} {a : Agent} {n : Nat} (h : quiet s a n = true) : Quiet s a n := by
  simp only [quiet, Bool.and_eq_true, beq_iff_eq] at h
  refine ⟨h.1.1, h.1.2, ?_⟩
  cases a
  · have h2 := h.2
    simp only [Bool.and_eq_true, decide_eq_true_eq] at h2
    exact ⟨h2.1, plainCord_of h2.2⟩
  · simpa using h.2

def ready (s s2 : State) (a : Agent) (i : Instr) (cond : BitVec 3) (lvl : Level) (reads pops pushes : Nat) (st : Stk) (n : Nat) : Bool :=
  begins s a i cond lvl && stackStep s a (opWord i) reads pops pushes == (s2, .ok st) && quiet s2 a n

theorem ready_of {s s2 : State} {a : Agent} {i : Instr} {cond : BitVec 3} {lvl : Level} {reads pops pushes : Nat} {st : Stk} {n : Nat}
    (h : ready s s2 a i cond lvl reads pops pushes st n = true) : Ready s s2 a i cond lvl reads pops pushes st n := by
  simp only [ready, Bool.and_eq_true, beq_iff_eq] at h
  exact ⟨begins_of h.1.1, h.1.2, quiet_of h.2⟩

/-- What a stack step gives: these entries, and these homes on cached pages. -/
abbrev stk (ins : List Word) (homes : List Nat) : Stk := { ins := ins, homes := homes.map hm }

/-- A state that the agent's stack step leaves as it is. -/
abbrev Here (s : State) (a : Agent) (i : Instr) (reads pops pushes : Nat) (ins : List Word) (homes : List Nat) (n : Nat) : Prop :=
  Ready s s a i 0 .U reads pops pushes (stk ins homes) n

theorem here_of {s : State} {a : Agent} {i : Instr} {reads pops pushes : Nat} {ins : List Word} {homes : List Nat} {n : Nat}
    (h : ready s s a i 0 .U reads pops pushes (stk ins homes) n = true) : Here s a i reads pops pushes ins homes n :=
  ready_of h

/-- One instruction of an agent with what its stack step reads, pops and pushes there, for tables of them. -/
structure Row where
  s : State
  i : Instr
  counts : Nat × Nat × Nat
  ins : List Word
  homes : List Nat

def Row.check (a : Agent) (r : Row) : Bool :=
  ready r.s r.s a r.i 0 .U r.counts.1 r.counts.2.1 r.counts.2.2 (stk r.ins r.homes) r.homes.length

abbrev Row.holds (a : Agent) (r : Row) : Prop := Here r.s a r.i r.counts.1 r.counts.2.1 r.counts.2.2 r.ins r.homes r.homes.length

theorem rows_of {a : Agent} {L : List Row} (h : L.all (Row.check a) = true) : ∀ r ∈ L, r.holds a :=
  fun r hr => ready_of (List.all_eq_true.mp h r hr)

theorem all_here {α : Type} {L : List α} {f : α → Bool} {P : α → Prop} (hp : ∀ x, f x = true → P x) (h : L.all f = true) :
    ∀ x ∈ L, P x := fun x hx => hp x (List.all_eq_true.mp h x hx)

/-- A state in which a trap of this cause is clean and enters H from H. -/
def trapsAtH (s : State) (a : Agent) (cause : Nat) : Bool :=
  (s.core a).knot == none && s.wants == [] && (match a with
  | .cord _ => true
  | .shuttle _ => (s.core a).lvl == .H && (s.core a).sbuf == [])
    && routeOf cause (s.core a).lvl (s.agentTenant a) == .H && !(s.core a).trH.active

theorem trapsAtH_of {s : State} {a : Agent} {cause : Nat} (h : trapsAtH s a cause = true) :
    CleanTrap s a ∧ EntersLevel s a cause (s.core a).lvl .H false := by
  simp only [trapsAtH, Bool.and_eq_true, beq_iff_eq, Bool.not_eq_true'] at h
  refine ⟨⟨h.1.1.1.1, h.1.1.1.2, ?_⟩, .inr (.inr ⟨h.1.2, h.2, rfl, rfl⟩)⟩
  cases a
  · trivial
  · simpa using h.1.1.2

/-- A state in which a trap of this cause is clean and enters S. -/
def trapsAtS (s : State) (a : Agent) (cause : Nat) : Bool :=
  (s.core a).knot == none && s.wants == [] && (match a with
  | .cord _ => true
  | .shuttle _ => false)
    && routeOf cause (s.core a).lvl (s.agentTenant a) == .S && !(s.core a).trS.active

theorem trapsAtS_of {s : State} {a : Agent} {cause : Nat} (h : trapsAtS s a cause = true) :
    CleanTrap s a ∧ EntersLevel s a cause (s.core a).lvl .S false := by
  simp only [trapsAtS, Bool.and_eq_true, beq_iff_eq, Bool.not_eq_true'] at h
  refine ⟨⟨h.1.1.1.1, h.1.1.1.2, ?_⟩, .inl ⟨h.1.2, h.2, rfl, rfl⟩⟩
  cases a
  · trivial
  · simp at h

/-- A trap that the hypotheses of `TakesTrap` allow. -/
abbrev CanTrap (s : State) (a : Agent) (cause : Nat) (l : Level) : Prop :=
  CleanTrap s a ∧ EntersLevel s a cause (s.core a).lvl l false

/-! ### Integer and stack instructions -/

/-- Two entries, and one with the condition EQ false (FLAGS 0). -/
def two : State := onShuttle (stacked [3, 5])
def foEQ : FO := { fo 0 with cond := 1 }

theorem test_witness_IntegerAluResults :
    (∀ mk ∈ [Instr.add, .sub, .adc, .sbc, .and, .or, .xor, .andn], Here two sh (mk sh (fo 0)) 2 2 1 [3, 5] [0x8008] 1)
    ∧ ∀ mk ∈ [Instr.not, .neg, .sxb, .sxh, .sxw, .zxw, .popc, .clz, .addi, .andi, .ori, .xori],
      Here two sh (mk sh (fo 0)) 1 1 1 [3] [0x8000] 1 :=
  ⟨all_here (fun _ => here_of) (by decide +kernel), all_here (fun _ => here_of) (by decide +kernel)⟩

theorem test_witness_ShiftResults :
    ∀ mk ∈ [Instr.shl, .shr, .sar, .rol, .ror],
      ((fo 0x7F).opnd.getLsbD 6 = true ∧ Here two sh (mk sh (fo 0x7F)) 1 1 1 [3] [0x8000] 1)
      ∧ (fo 0).opnd.getLsbD 6 = false ∧ Here two sh (mk sh (fo 0)) 2 2 1 [3, 5] [0x8008] 1 := fun mk h =>
  ⟨⟨by decide +kernel, all_here (P := fun mk => Here two sh (mk sh (fo 0x7F)) 1 1 1 [3] [0x8000] 1) (fun _ => here_of) (by decide +kernel) mk h⟩,
    by decide +kernel, all_here (P := fun mk => Here two sh (mk sh (fo 0)) 2 2 1 [3, 5] [0x8008] 1) (fun _ => here_of) (by decide +kernel) mk h⟩

theorem test_witness_MultiplyDivideResults :
    ∀ mk ∈ [Instr.mul, .mulhs, .mulhu, .divs, .divu, .rems, .remu], Here (onCord (stacked [3, 5])) co (mk co (fo 0)) 2 2 1 [3, 5] [0x8008] 1
      ∧ (3 : Word) ≠ 0 := fun mk h =>
  ⟨all_here (P := fun mk => Here (onCord (stacked [3, 5])) co (mk co (fo 0)) 2 2 1 [3, 5] [0x8008] 1) (fun _ => here_of) (by decide +kernel) mk h,
    by decide +kernel⟩

theorem test_witness_DivideByZeroTraps :
    (∀ mk ∈ [Instr.divs, .divu, .rems, .remu], Here (onCord (stacked [0, 5])) co (mk co (fo 0)) 2 2 1 [0, 5] [0x8008] 0
      ∧ Fetched (onCord core0) (onCord core0) co (mk co foEQ))
    ∧ CanTrap (onCord (stacked [0, 5])) co 0x0D .H ∧ condHolds ((onCord core0).core co).fl foEQ.cond = false ∧ Quiet (onCord core0) co 0 :=
  ⟨fun mk h =>
    ⟨all_here (P := fun mk => Here (onCord (stacked [0, 5])) co (mk co (fo 0)) 2 2 1 [0, 5] [0x8008] 0) (fun _ => here_of) (by decide +kernel) mk h,
      fetched_of (by decide +kernel) (all_here (f := fun mk => Instr.ok (mk co foEQ)) (fun _ h => h) (by decide +kernel) mk h)⟩,
    trapsAtH_of (by decide +kernel), by decide +kernel, quiet_of (by decide +kernel)⟩

theorem test_witness_CompareResults :
    (∀ mk ∈ [Instr.cmp, .tst], Here two sh (mk sh (fo 0)) 2 2 0 [3, 5] [] 0) ∧ Here two sh (.cmpi sh (fo 3)) 1 1 0 [3] [] 0
      ∧ ∀ n ∈ [0, 1, 2, 3, 4, 5, 6, 7], Here two sh (.setf sh (fo n)) 0 0 1 [] [0x7FF8] 1 :=
  ⟨all_here (fun _ => here_of) (by decide +kernel), here_of (by decide +kernel), all_here (fun _ => here_of) (by decide +kernel)⟩

/-- 32 cached entries and 31. -/
def deep (n : Nat) : State := onShuttle (stacked (List.replicate n 7))

theorem test_witness_StackManipulation :
    (∀ r ∈ ([⟨two, .drop sh (fo 0), (1, 1, 0), [3], []⟩, ⟨two, .dup sh (fo 0), (1, 1, 2), [3], [0x8000, 0x7FF8]⟩
        , ⟨two, .swap sh (fo 0), (2, 2, 2), [3, 5], [0x8008, 0x8000]⟩, ⟨two, .over sh (fo 0), (2, 2, 3), [3, 5], [0x8008, 0x8000, 0x7FF8]⟩
        , ⟨onShuttle (stacked [1, 2, 3]), .rot sh (fo 0), (3, 3, 3), [1, 2, 3], [0x8010, 0x8008, 0x8000]⟩
        , ⟨two, .nip sh (fo 0), (2, 2, 1), [3, 5], [0x8008]⟩, ⟨two, .depth sh (fo 0), (0, 0, 1), [], [0x7FF8]⟩
        , ⟨two, .getsp sh (fo 0), (0, 0, 1), [], [0x7FF8]⟩
        , ⟨two, .push sh { cond := 0, s := false, imm := 0x3FFFFF }, (0, 0, 1), [], [0x7FF8]⟩
        , ⟨two, .pushh sh { cond := 0, s := false, rz := false, imm := 0x1FFFFF }, (1, 1, 1), [3], [0x8000]⟩] : List Row), r.holds sh)
    ∧ (∀ r ∈ ([⟨deep 31, .dupn sh (fo 30), (31, 0, 1), List.replicate 31 7, [0x7FF8]⟩
        , ⟨deep 32, .dropn sh (fo 31), (31, 31, 0), List.replicate 31 7, []⟩
        , ⟨deep 32, .xchn sh (fo 31), (32, 0, 0), List.replicate 32 7, []⟩] : List Row), r.holds sh)
    ∧ ∀ i ∈ [0, 31], ((deep 32).core sh).cache[i]? = some { val := 7, home := 0, attr := .cached } :=
  ⟨rows_of (by decide +kernel), rows_of (by decide +kernel), by decide +kernel⟩

/-- SETSP takes a value at SL and one at SB, and traps one below SL and one above SB. -/
theorem test_witness_SetspAndSsync :
    (∀ v ∈ [(0x1000 : Word), 0x9000], Here (onCord (stacked [v])) co (.setsp co (fo 0)) 1 1 0 [v] [] 1)
    ∧ (∀ v ∈ [(0xFFF : Word), 0x9008], Here (onCord (stacked [v])) co (.setsp co (fo 0)) 1 1 0 [v] [] 0
      ∧ CanTrap (onCord (stacked [v])) co 0x06 .H)
    ∧ Begins (onCord (stacked [3])) (onCord (stacked [3])) co (.ssync co (fo 0)) 0 .U ∧ Quiet (onCord (stacked [3])) co 1
    ∧ ((onCord (stacked [3])).core co).stackOk .H 0 0 = true :=
  ⟨all_here (f := fun v => ready (onCord (stacked [v])) (onCord (stacked [v])) co (.setsp co (fo 0)) 0 .U 1 1 0 (stk [v] []) 1)
      (fun _ => here_of) (by decide +kernel),
    fun v h => ⟨all_here (f := fun v => ready (onCord (stacked [v])) (onCord (stacked [v])) co (.setsp co (fo 0)) 0 .U 1 1 0 (stk [v] []) 0)
        (fun _ => here_of) (by decide +kernel) v h,
      all_here (P := fun v => CanTrap (onCord (stacked [v])) co 0x06 .H) (fun _ => trapsAtH_of) (by decide +kernel) v h⟩,
    begins_of (by decide +kernel), quiet_of (by decide +kernel), by decide +kernel⟩

/-- A depth of one below the entries popped, and the last push that fits above SL. -/
theorem test_witness_StackLimitChecks :
    let low : Core := { core0 with stkH := { sp := 0x8FF8, sb := 0x9000, sl := 0x8FF0 } }
    (((low.stkOf .H).sb.toNat : Int) - (low.stkOf .H).sp.toNat) / 8 < 2 ∧ ((low.stkOf .H).sp.toNat : Int) + 8 * 0 - 8 * 2 < (low.stkOf .H).sl.toNat
    ∧ stackStep (onShuttle low) sh 0 0 0 1 = (onShuttle low, .ok { ins := [], homes := [hm 0x8FF0] }) := by decide +kernel

theorem test_witness_PopsAndPushes :
    let k : Core := stacked (List.replicate 32 7)
    let vs : List (Word × Home) := [(1, hm 0x80F8), (2, hm 0x80F0)]
    32 ≤ k.cache.length ∧ k.cache.length ≤ 32 ∧ 8 * vs.length ≤ k.sp + 8 * 32 ∧ k.sp + 8 * 32 < 2 ^ 64 := by decide +kernel

theorem test_witness_StackStepReadsTop :
    32 ≤ ((deep 32).core sh).cache.length ∧ ((deep 32).core sh).stackOk .H 32 (32 - 31) = true ∧ ((deep 32).core sh).lvl = .H := by decide +kernel

theorem test_witness_FailedConditionOnlyRetires :
    conditionOf (.syscall sh foEQ) = some (sh, 1) ∧ Fetched two two sh (.syscall sh foEQ) ∧ condHolds (two.core sh).fl 1 = false
      ∧ Quiet two sh 0 :=
  ⟨rfl, fetched_of (by decide +kernel) (by decide +kernel), by decide +kernel, quiet_of (by decide +kernel)⟩

theorem test_witness_IllFormedTrapsIllegal :
    (conditionOf (.drop sh (fo 1)) = some (sh, 0) ∧ (Instr.drop sh (fo 1)).ok = false)
    ∧ insnOf sh 0x0FC00000 = none ∧ canRun two sh = true ∧ makeRoom two sh = two ∧ (two.core sh).brks = [] ∧ (two.core sh).knot = none
    ∧ fetchAt two sh = (two, .ok ()) ∧ CanTrap two sh 0x01 .H :=
  have h : CanTrap two sh 0x01 .H := trapsAtH_of (by decide +kernel)
  have d : ∀ i ∈ [Instr.drop sh (fo 1)], conditionOf i = some (sh, 0) ∧ i.ok = false := by decide +kernel
  ⟨d _ (.head _), by decide +kernel, by decide +kernel, by decide +kernel, rfl, by decide +kernel, by decide +kernel, h⟩

theorem test_witness_LevelTooLowTrapsPriv :
    (∀ mk ∈ [Instr.tret, .retg, .tlbiVa, .tlbiAsid, .tlbiS1all, .tlbsync], Fetched (atLevel .U core0) (atLevel .U core0) co (mk co (fo 0)))
    ∧ (∀ mk ∈ [Instr.tlbiIpa, .tlbiTenant], Fetched (atLevel .S core0) (atLevel .S core0) co (mk co (fo 0)))
    ∧ Fetched (atLevel .S core0) (atLevel .S core0) co (.inval co (fl 0))
    ∧ (∀ l ∈ [Level.U, .S], let s := atLevel l core0
      condHolds (s.core co).fl 0 = true ∧ ((makeRoom s co).core co).knot = none ∧ (s.core co).lvl = l ∧ CanTrap s co 0x02 .S) :=
  ⟨fun mk h => fetched_of (by decide +kernel) (all_here (f := fun mk => Instr.ok (mk co (fo 0))) (fun _ h => h) (by decide +kernel) mk h),
    fun mk h => fetched_of (by decide +kernel) (all_here (f := fun mk => Instr.ok (mk co (fo 0))) (fun _ h => h) (by decide +kernel) mk h),
    fetched_of (by decide +kernel) (by decide +kernel), fun l h => ⟨by revert l; decide +kernel, by revert l; decide +kernel, by revert l; decide +kernel,
      all_here (f := fun l => trapsAtS (atLevel l core0) co 0x02) (fun _ => trapsAtS_of) (by decide +kernel) l h⟩⟩

/-- A Shuttle whose SP lies below its SL. -/
def sunk : State := onShuttle { core0 with stkH := { sp := 0x0FF8, sb := 0x9000, sl := 0x1000 } }

theorem test_witness_ControlTransfer :
    (∀ r ∈ ([⟨two, .b sh { cond := 0, s := false, off := 0x3FFFFF }, (0, 0, 0), [], []⟩
        , ⟨two, .call sh { cond := 0, s := false, off := 1 }, (0, 0, 1), [], [0x7FF8]⟩
        , ⟨onShuttle (stacked [4]), .jmp sh (fo 0), (1, 1, 0), [4], []⟩, ⟨onShuttle (stacked [3]), .jmp sh (fo 0), (1, 1, 0), [3], []⟩
        , ⟨onShuttle (stacked [4]), .ret sh (fo 0), (1, 1, 0), [4], []⟩, ⟨onShuttle (stacked [3]), .ret sh (fo 0), (1, 1, 0), [3], []⟩
        , ⟨onShuttle (stacked [4]), .calli sh (fo 0), (1, 1, 1), [4], [0x8000]⟩
        , ⟨onShuttle (stacked [3]), .calli sh (fo 0), (1, 1, 1), [3], [0x8000]⟩] : List Row), r.holds sh)
    ∧ CanTrap (onShuttle (stacked [3])) sh 0x03 .H
    ∧ (∀ mk ∈ [Instr.nop, .lbar, .cinch, .slip, .sbar, .fbar, .waite, .ssync, .syscall, .break], Begins sunk sunk sh (mk sh (fo 0)) 0 .U)
    ∧ (sunk.core sh).stackOk .H 0 0 = false ∧ CanTrap sunk sh 0x06 .H :=
  ⟨rows_of (by decide +kernel), trapsAtH_of (by decide +kernel),
    all_here (f := fun mk => begins sunk sh (mk sh (fo 0)) 0 .U) (fun _ => begins_of) (by decide +kernel), by decide +kernel,
    trapsAtH_of (by decide +kernel)⟩

/-! ### System instructions, traps, gates, events, knots -/

/-- A core whose special registers hold something. -/
def rich : Core :=
  { stacked [5, 6] with
    flags := 0xA, fcsr := 0x0203, retire := 77, ee := true, trS := { tvec := 0x5000, epc := 0x100, estat := 0x600, eval := 9, gate := 3 }
    trH := { tvec := 0x6000, epc := 0x200, estat := 0x501, eval := 8, gate := 4 }
    ags := [(2, { base := 1, idx := 2, step := 3, len := 4, brk := 5 })] }

theorem test_witness_PlainRetirements :
    (∀ mk ∈ [Instr.nop, .lbar, .cinch, .slip], Begins two two sh (mk sh (fo 0)) 0 .U) ∧ Quiet two sh 0
    ∧ (two.core sh).stackOk .H 0 0 = true ∧ Here two sh (.ktest sh (fo 0)) 0 0 1 [] [0x7FF8] 1 :=
  ⟨all_here (f := fun mk => begins two sh (mk sh (fo 0)) 0 .U) (fun _ => begins_of) (by decide +kernel), quiet_of (by decide +kernel),
    by decide +kernel, here_of (by decide +kernel)⟩

/-- RDCR of the first and the last number; WRCR of a defined and of a reserved rounding mode and translation mode. -/
theorem test_witness_ControlRegisters :
    (∀ p ∈ [(0, Level.U), (0x31, .H)], crReadLevel (fo p.1).opnd.toNat = some p.2
      ∧ Ready (onCord rich) (onCord rich) co (.rdcr co (fo p.1)) 0 p.2 0 0 1 { ins := [], homes := [hm 0x7FF8] } 1)
    ∧ crValue (onCord rich) co 0 = some 0xA ∧ crValue (onCord rich) co 0x31 = some 0
    ∧ (∀ p ∈ [(2, Level.U, 5), (2, .U, 4), (0x2A, .H, 0x311), (0x2A, .H, 0x10)],
      crWriteLevel (fo p.1).opnd.toNat = some p.2.1 ∧ (fo p.1).opnd.toNat ≠ spNumber .H
      ∧ Ready (onCord (stacked [p.2.2])) (onCord (stacked [p.2.2])) co (.wrcr co (fo p.1)) 0 p.2.1 1 1 0 { ins := [p.2.2], homes := [] } 0)
    ∧ 4 < (5 : Word).toNat % 8 ∧ 0x10 < (0x311 : Word).toNat % 256
    ∧ CanTrap (onCord (stacked [5])) co 0x01 .H ∧ CanTrap (onCord (stacked [0x311])) co 0x01 .H :=
  ⟨fun p h => ⟨by revert p; decide +kernel,
      all_here (f := fun p : Nat × Level => ready (onCord rich) (onCord rich) co (.rdcr co (fo p.1)) 0 p.2 0 0 1 { ins := [], homes := [hm 0x7FF8] } 1)
        (fun _ => ready_of) (by decide +kernel) p h⟩, by decide +kernel, by decide +kernel,
    fun p h => ⟨by revert p; decide +kernel, by revert p; decide +kernel,
      all_here (f := fun p : Nat × Level × Word => ready (onCord (stacked [p.2.2])) (onCord (stacked [p.2.2])) co (.wrcr co (fo p.1)) 0 p.2.1 1 1 0
        { ins := [p.2.2], homes := [] } 0) (fun _ => ready_of) (by decide +kernel) p h⟩,
    by decide, by decide, trapsAtH_of (by decide +kernel), trapsAtH_of (by decide +kernel)⟩

theorem test_witness_RdtimeReadsTime :
    Here two sh (.rdtime sh (fo 0)) 0 0 1 [] [0x7FF8] 1 ∧ two.recording = false := ⟨here_of (by decide +kernel), by decide +kernel⟩

/-- Part 4 of generator 7, BRK 32 and 33. -/
theorem test_witness_AddressGeneratorParts :
    Here two sh (.rdag sh (fo 60)) 0 0 1 [] [0x7FF8] 1 ∧ (fo 60).opnd.toNat / 8 % 8 = 7 ∧ (fo 60).opnd.toNat % 8 = 4
    ∧ Here (onShuttle (stacked [33])) sh (.wrag sh (fo 60)) 1 1 0 [33] [] 0 ∧ CanTrap (onShuttle (stacked [33])) sh 0x01 .H
    ∧ Here (onShuttle (stacked [32])) sh (.wrag sh (fo 60)) 1 1 0 [32] [] 0 :=
  ⟨here_of (by decide +kernel), by decide, by decide, here_of (by decide +kernel), trapsAtH_of (by decide +kernel), here_of (by decide +kernel)⟩

theorem test_witness_SyscallAndBreakTrap :
    (∀ mk ∈ [Instr.syscall, .break], Begins two two sh (mk sh (fo 0xFFFF)) 0 .U) ∧ (two.core sh).stackOk .H 0 0 = true
      ∧ CanTrap two sh 0x0F .H ∧ CanTrap two sh 0x0E .H :=
  ⟨all_here (f := fun mk => begins two sh (mk sh (fo 0xFFFF)) 0 .U) (fun _ => begins_of) (by decide +kernel), by decide +kernel,
    trapsAtH_of (by decide +kernel), trapsAtH_of (by decide +kernel)⟩

theorem test_witness_TrapAtActiveHHalts :
    let s := onCord { rich with trH := { rich.trH with estat := 0x801 } }
    Begins s s co (.syscall co (fo 0)) 0 .U ∧ (s.cord 0).lvl = .H ∧ (s.cord 0).trH.active = true ∧ 0 < s.cordCount
      ∧ (s.cord 0).stackOk .H 0 0 = true ∧ (haltCord s 0 0).wants = [] :=
  ⟨begins_of (by decide +kernel), by decide +kernel⟩

/-- A cord at H about to return with this ESTAT. -/
def returns (e : Word) : State := onCord { stacked [3] with trH := { tvec := 0, epc := 0x100, estat := e, eval := 0, gate := 0 } }

/-- ESTAT.PLEV above the level, at it, and below it; a Shuttle's below it too. -/
theorem test_witness_TrapReturn :
    (∀ e ∈ [(0x300 : Word), 0x200, 0], Begins (returns e) (returns e) co (.tret co (fo 0)) 0 .S ∧ ((returns e).cord 0).stackOk .H 0 0 = true)
    ∧ CanTrap (returns 0x300) co 0x02 .H ∧ Quiet (returns 0x200) co 1 ∧ Quiet (returns 0) co 1
    ∧ (lvlCode .H < (0x300 : Word).toNat / 256 % 4 ∧ (0x200 : Word).toNat / 256 % 4 = lvlCode .H ∧ (0 : Word).toNat / 256 % 4 < lvlCode .H)
    ∧ Begins two two sh (.tret sh (fo 0)) 0 .S ∧ (two.core sh).lvl = .H ∧ (two.core sh).stackOk .H 0 0 = true ∧ Quiet two sh 2 :=
  ⟨fun e h => ⟨all_here (f := fun e => begins (returns e) co (.tret co (fo 0)) 0 .S) (fun _ => begins_of) (by decide +kernel) e h,
      all_here (f := fun e => ((returns e).cord 0).stackOk .H 0 0) (fun _ h => h) (by decide +kernel) e h⟩,
    trapsAtH_of (by decide +kernel), quiet_of (by decide +kernel), quiet_of (by decide +kernel), by decide,
    begins_of (by decide +kernel), rfl, by decide +kernel, quiet_of (by decide +kernel)⟩

/-- Bytes of a line from offset o. -/
def putBytes (d : LineData) (o v : Nat) : LineData := d ||| (BitVec.ofNat 2048 v <<< (8 * o))

/-- A cord at S below a table of two gates at 0x2000, the first to 0x2040 for U and S, the second to a target that S may not use. -/
def gated (l : Level) (xs : List Word) : State :=
  (atLevel l { stacked xs with trS := { rich.trS with estat := 0, gate := 0x2002 }, trH := { rich.trH with estat := 0, gate := 0x2002 } }).setL2 0 0x20
    (whole (putBytes (putBytes (putBytes (putBytes 0 0 0x2040) 8 3) 16 0x2040) 24 1))

theorem test_witness_GateEntersLevel :
    let s := gated .S [9, 7]
    let f : FO := fo 1
    (Begins s s co (.gate co f) 0 .U ∧ Quiet s co 5) ∧ ((s.cord 0).lvl = .S ∧ f.opnd.toNat / 256 < (((s.cord 0).trOf .H).gate.toNat) % 256)
    ∧ (loadAt s co (opWord (.gate co f)) .H 0x2000 8 = (s, .ok (.now 0x2040)) ∧ loadAt s co (opWord (.gate co f)) .H 0x2008 8 = (s, .ok (.now 3)))
    ∧ ((1 : Int) ≤ (s.cord 0).depth ∧ (s.cord 0).stackOk .H 0 3 = true ∧ fillTo s co (opWord (.gate co f)) 1 1 = (s, .ok ()))
    ∧ homesBelow s co (opWord (.gate co f)) .H 0x8000 3 = (s, .ok ([0x7FF8, 0x7FF0, 0x7FE8].map hm))
    ∧ (Begins s s co (.gate co (fo 0x200)) 0 .U ∧ CanTrap s co 0x02 .S)
    ∧ ((s.cord 0).trOf .H).gate.toNat % 256 ≤ (fo 0x200).opnd.toNat / 256 :=
  ⟨⟨begins_of (by decide +kernel), quiet_of (by decide +kernel)⟩, by decide +kernel, by decide +kernel, by decide +kernel, by decide +kernel,
    ⟨begins_of (by decide +kernel), trapsAtS_of (by decide +kernel)⟩, by decide +kernel⟩

/-- RETG from H with one result: to S, to S with an unaligned address, and with an old PSTATE of H. -/
theorem test_witness_GateReturns :
    let s (ps ret : Word) := gated .H [7, ps, ret]
    (∀ p ∈ [((1 : Word), (0x2050 : Word)), (1, 0x2051), (2, 0x2050)],
      Ready (s p.1 p.2) (s p.1 p.2) co (.retg co (fo 1)) 0 .S 3 3 0 { ins := [7, p.1, p.2], homes := [] } 0)
    ∧ (CanTrap (s 2 0x2050) co 0x02 .H ∧ CanTrap (s 1 0x2051) co 0x03 .H ∧ Quiet (s 1 0x2050) co 4)
    ∧ lvlCode .H ≤ (2 : Word).toNat % 4 ∧ (1 : Word).toNat % 4 < lvlCode .H
    ∧ ((s 1 0x2050).cord 0).stackOk .S 0 1 = true ∧ (0x2051 : Word).toNat % 4 ≠ 0
    ∧ homesBelow (s 1 0x2050) co (opWord (.retg co (fo 1))) .S 0x8000 1 = (s 1 0x2050, .ok [hm 0x7FF8]) :=
  ⟨all_here (f := fun p : Word × Word => ready (gated .H [7, p.1, p.2]) (gated .H [7, p.1, p.2]) co (.retg co (fo 1)) 0 .S 3 3 0
      { ins := [7, p.1, p.2], homes := [] } 0) (fun _ => ready_of) (by decide +kernel),
    ⟨trapsAtH_of (by decide +kernel), trapsAtH_of (by decide +kernel), quiet_of (by decide +kernel)⟩, by decide +kernel⟩

/-- A record queued for cord 0, and none. -/
def queued (k : Core) : State := (onCord k).setEvq 0 0 { recs := [(1, 2)], lost := 0 }

theorem test_witness_WaitingForAndTakingEvents :
    (∀ s ∈ [queued core0, onCord core0], Begins s s co (.waite co (fo 0)) 0 .U ∧ Here s co (.evpop co (fo 0)) 0 0 2 [] [0x7FF8, 0x7FF0] 2)
    ∧ (((queued core0).evq 0 0).recs ≠ [] ∧ ((onCord core0).evq 0 0).recs = [] ∧ ((queued core0).cord 0).stackOk .H 0 0 = true
      ∧ ((onCord core0).cord 0).stackOk .H 0 0 = true ∧ (onCord core0).wants = [])
    ∧ Quiet (queued core0) co 0
    ∧ (let s := queued { core0 with run := .waitEvent }
       Quiet s co 0 ∧ (s.cord 0).run = .waitEvent ∧ (s.cord 0).paused = false ∧ (s.evq (s.tenantOf 0) 0).recs ≠ []) :=
  ⟨fun s h => ⟨begins_of (by revert s; decide +kernel), here_of (by revert s; decide +kernel)⟩, by decide +kernel, quiet_of (by decide +kernel),
    quiet_of (by decide +kernel), by decide +kernel⟩

/-- A queue with a quota of 2: with one record, with two, and with one and discards. -/
theorem test_witness_EventQueueing :
    let s (q : Evq) := (State.reset.put (CHS_EVQ.QUOTA 127) 2).setEvq 0 127 q
    let one := s { recs := [(1, 2)], lost := 0 }
    let full := s { recs := [(1, 2), (3, 4)], lost := 0 }
    let back := s { recs := [(1, 2)], lost := 3 }
    (full.get (CHS_EVQ.QUOTA 127) ≤ evqUsed full 127) ∧ (evqUsed one 127 < one.get (CHS_EVQ.QUOTA 127) ∧ (one.evq 0 127).lost = 0)
    ∧ (back.evq 0 127).lost ≠ 0 ∧ evqUsed back 127 < back.get (CHS_EVQ.QUOTA 127) := by decide +kernel

/-- A signal of H to the last cord there is, and of S to a cord of another tenant. -/
theorem test_witness_SignalSends :
    (let s := onCord (stacked [63, 47])
     Here s co (.signal co (fo 0)) 2 2 0 [63, 47] [] 0 ∧ 47 < s.cordCount ∧ (s.cord 0).lvl = .H ∧ s.recording = false)
    ∧ (let s := atLevel .S (stacked [64, 48])
       Here s co (.signal co (fo 0)) 2 2 0 [64, 48] [] 0 ∧ CanTrap s co 0x02 .S ∧ ¬ 48 < s.cordCount) :=
  ⟨⟨here_of (by decide +kernel), by decide +kernel⟩, here_of (by decide +kernel), trapsAtS_of (by decide +kernel), by decide +kernel⟩

/-- An FSYNC at 0x2000, with PEND set and with none. -/
def atFsync (fcsr : Word) : State := (queued { core0 with ee := true, fcsr := fcsr }).setL2 0 0x20 (whole ((wordOf (.fsync co (fo 0))).getD 0 |>.setWidth 2048))

/-- EVENT with PEND 0; with PEND set before an FSYNC, and before an instruction of another kind. -/
theorem test_witness_EventTrapTaken :
    let pend (s : State) : Nat := (s.cord 0).fcsr.toNat / 2 ^ 24 % 32
    let other := queued { core0 with ee := true, fcsr := 0x1000000 }
    (∀ s ∈ [atFsync 0, atFsync 0x1000000, other], (canRun s co = true ∧ (s.cord 0).answers = [] ∧ (s.cord 0).ee = true ∧ (s.cord 0).knot = none)
      ∧ (s.evq (s.tenantOf 0) 0).recs ≠ [] ∧ s.tenantOf 0 = 0)
    ∧ (pend (atFsync 0) = 0 ∧ pend (atFsync 0x1000000) ≠ 0 ∧ pend other ≠ 0)
    ∧ (fetchWord (atFsync 0x1000000) 0).1.wants = []
    ∧ (∃ w f, (fetchWord (atFsync 0x1000000) 0).2 = .ok w ∧ insnOf co w = some (.fsync co f) ∧ condHolds ((atFsync 0x1000000).cord 0).fl f.cond = true)
    ∧ (∃ w, (fetchWord other 0).2 = .ok w ∧ insnOf co w = some (.nop co (fo 0))) ∧ CanTrap (atFsync 0) co 0x10 .H
    ∧ CanTrap (fetchWord other 0).1 co 0x10 .H :=
  ⟨by decide +kernel, by decide +kernel, by decide +kernel, ⟨_, fo 0, rfl, by decide +kernel, by decide +kernel⟩, ⟨_, rfl, by decide +kernel⟩,
    trapsAtH_of (by decide +kernel), trapsAtH_of (by decide +kernel)⟩

/-- Invalidations of cord 0 and of cord 1. -/
def inv0 : List (Nat × TlbInv) := [(0, .asid 0 0), (1, .va 0 3 0)]

/-- A channel operation, whose translations a TLBI has hit. -/
def staleOp : JRec := { newRec State.reset 0 0 0 (orbOf 0) 0 with stale := true }

theorem test_witness_TlbMaintenance :
    let s := onCord (stacked [5, 6])
    (∀ mk ∈ [Instr.tlbiVa, .tlbiAsid], Ready s s co (mk co (fo 0)) 0 .S 1 1 0 (stk [5] []) 0)
    ∧ Ready (onCord core0) (onCord core0) co (.tlbiS1all co (fo 0)) 0 .S 0 0 0 (stk [] []) 0
    ∧ Ready s s co (.tlbiIpa co (fo 0)) 0 .H 2 2 0 (stk [5, 6] []) 0 ∧ Ready s s co (.tlbiTenant co (fo 0)) 0 .H 1 1 0 (stk [5] []) 0 :=
  ⟨all_here (f := fun mk => ready (onCord (stacked [5, 6])) (onCord (stacked [5, 6])) co (mk co (fo 0)) 0 .S 1 1 0 (stk [5] []) 0)
      (fun _ => ready_of) (by decide +kernel),
    ready_of (by decide +kernel), ready_of (by decide +kernel), ready_of (by decide +kernel)⟩

/-- TLBSYNC with nothing outstanding, with an invalidation outstanding, and with a channel operation that uses what was invalidated. -/
theorem test_witness_TlbsyncWaits :
    let free := { onCord core0 with tlbi := [(1, .va 0 3 0)] }
    let held := { onCord core0 with tlbi := inv0 }
    let laid (s : State) : State := { s with chs := { s.chs with cells := [(0, staleOp)] } }
    let due := { onCord { core0 with run := .waitTlb } with tlbi := inv0, tlb := [page 3] }
    (∀ s ∈ [free, held, laid free], Begins s s co (.tlbsync co (fo 0)) 0 .S) ∧ (Quiet free co 0 ∧ Quiet due co 0 ∧ Quiet (laid due) co 0)
    ∧ (∀ s ∈ [free, held, laid free], (s.cord 0).stackOk .H 0 0 = true ∧ s.wants = [])
    ∧ ((∀ e ∈ free.tlbi, e.1 ≠ 0) ∧ (∀ e ∈ free.chs.cells, e.2.stale = false)) ∧ (∃ e ∈ held.tlbi, e.1 = 0)
    ∧ (∃ e ∈ (laid free).chs.cells, e.2.stale = true)
    ∧ (∀ x ∈ [due, laid due], (x.cord 0).run = .waitTlb ∧ (x.cord 0).paused = false)
    ∧ staleOps (applyInvs due 0) = false ∧ staleOps (applyInvs (laid due) 0) = true :=
  ⟨fun s h => begins_of (by revert s; decide +kernel), ⟨quiet_of (by decide +kernel), quiet_of (by decide +kernel), quiet_of (by decide +kernel)⟩,
    by decide +kernel⟩

/-- An open knot. -/
def knot1 (opened : Nat) : Knot :=
  { handler := 0x2080, home := hm 0x9010, sp := 0x8000, cache := [{ val := 4, home := 0x8000, attr := .cached }], opened := opened, reads := [], writes := [0x90], bytes := [] }

/-- A buffered store, of an open knot or of none. -/
def stored (inKnot : Bool) : SbEnt :=
  { line := 0x90, mask := 0xF, bytes := 0, tenant := 0, lvl := .H, attr := .cached, pa := 0x9000, size := 4, stores := [(0, 0x9000)], knot := inKnot
    closed := false, sent := false, port := 0, seq := 0 }

theorem test_witness_SlipRestoresAndContinues :
    let k : Core := { rich with knot := some (knot1 0) }
    k.knot = some (knot1 0) ∧ (knot1 0).cache.length < 32 ∧ 8 ≤ (knot1 0).sp.toNat ∧ 7 < 256 ∧ 255 < 256 := by decide

/-- The parts of `BeginsInKnot`, as a check. -/
def beginsInKnot (s : State) (a : Agent) (i : Instr) (cond : BitVec 3) : Bool :=
  fetches s a && i.ok && ((makeRoom s a).core a).inKnot && (s.core a).inKnot && s.wants == [] && condHolds (s.core a).fl cond

theorem beginsInKnot_of {s : State} {a : Agent} {i : Instr} {cond : BitVec 3} (h : beginsInKnot s a i cond = true) :
    BeginsInKnot s s a i cond := by
  simp only [beginsInKnot, Bool.and_eq_true, beq_iff_eq] at h
  exact { toFetched := fetched_of h.1.1.1.1.1 h.1.1.1.1.2, inKnot := h.1.1.1.2, stillInKnot := h.1.1.2, settled := h.1.2, holds := h.2 }

/-- A cord inside a knot, at H and at S. -/
def inKnot (k : Core) : State := onCord { k with knot := some (knot1 0) }
def inKnotS : State := atLevel .S { core0 with knot := some (knot1 0) }

theorem test_witness_UnsupportedInsideKnotSlips :
    (∀ mk ∈ [Instr.waite, .evpop, .signal, .knot, .syscall, .gate, .break], BeginsInKnot inKnotS inKnotS co (mk co (fo 0)) 0)
    ∧ (inKnotS.cord 0).lvl ≠ .H
    ∧ ∀ mk ∈ [Instr.loadReserved, .storeConditional], BeginsInKnot (inKnot rich) (inKnot rich) co (mk co (fm 3 0 0)) 0 :=
  ⟨all_here (f := fun mk => beginsInKnot inKnotS co (mk co (fo 0)) 0) (fun _ => beginsInKnot_of) (by decide +kernel), by decide +kernel,
    all_here (f := fun mk => beginsInKnot (inKnot rich) co (mk co (fm 3 0 0)) 0) (fun _ => beginsInKnot_of) (by decide +kernel)⟩

theorem test_witness_KnotLifecycle :
    (let s := onCord (stacked [3])
     (Begins s s co (.knot co (fo 0xFFFF)) 0 .U ∧ Quiet s co 0) ∧ (s.cord 0).stackOk .H 0 1 = true ∧ (s.cord 0).sbuf = [] ∧ (s.cord 0).bounced = []
       ∧ homeAt s co (opWord (.knot co (fo 0xFFFF))) .H ((s.cord 0).sp - 8) = (s, .ok (hm 0x7FF8)))
    ∧ (∀ mk ∈ [Instr.cinch, .slip], BeginsInKnot (inKnot rich) (inKnot rich) co (mk co (fo 0)) 0)
    ∧ (((inKnot rich).cord 0).stackOk .H 0 0 = true ∧ ((inKnot rich).cord 0).buffers ≤ 16 ∧ knotStores (inKnot rich) co = none)
    ∧ Plain (inKnot rich) 0
    ∧ (let s := inKnot { rich with run := .waitCinch }
       Plain s 0 ∧ (s.cord 0).run = .waitCinch ∧ (s.cord 0).knot = some (knot1 0) ∧ (s.cord 0).sbuf = [] ∧ (s.cord 0).paused = false)
    ∧ (let s := { inKnot rich with time := { State.reset.time with now := 25600 } }
       (s.cord 0).knot = some (knot1 0) ∧ (knot1 0).opened + 25600 ≤ s.time.now) :=
  ⟨⟨⟨begins_of (by decide +kernel), quiet_of (by decide +kernel)⟩, by decide +kernel⟩,
    all_here (f := fun mk => beginsInKnot (inKnot rich) co (mk co (fo 0)) 0) (fun _ => beginsInKnot_of) (by decide +kernel), by decide +kernel,
    plainCord_of (by decide +kernel), ⟨plainCord_of (by decide +kernel), by decide +kernel⟩, by decide +kernel⟩

theorem test_witness_BarriersWaitForStores :
    (∀ mk ∈ [Instr.sbar, .fbar], ∀ b ∈ [[], [stored false]], Begins (onCord { rich with sbuf := b }) (onCord { rich with sbuf := b }) co (mk co (fo 0)) 0 .U)
    ∧ (∀ b ∈ [[], [stored false]], ((onCord { rich with sbuf := b }).cord 0).stackOk .H 0 0 = true ∧ (onCord { rich with sbuf := b }).wants = [])
    ∧ ((onCord rich).cord 0).bounced = [] ∧ (stored false).knot = false ∧ Quiet (onCord { rich with sbuf := [] }) co 0
    ∧ (let s := onCord { rich with run := .waitBarrier .fbar 0 }
       Quiet s co 0 ∧ (s.cord 0).run = .waitBarrier .fbar 0 ∧ BarKind.fbar ≠ .knot ∧ (s.cord 0).paused = false ∧ (s.cord 0).sbuf = []
         ∧ (s.cord 0).bounced = [])
    ∧ (let s := onCord { rich with run := .waitBarrier .sbar 0, bounced := [(0, 0x55)] }
       (s.cord 0).run = .waitBarrier .sbar 0 ∧ (s.cord 0).paused = false ∧ (s.cord 0).sbuf = [] ∧ (s.cord 0).bounced = [(0, 0x55)]
         ∧ (s.cord 0).knot = none ∧ (s.cord 0).lvl = .H ∧ (s.cord 0).trH.active = false ∧ s.recording = false ∧ s.replaying = false) :=
  ⟨fun mk hm b hb => begins_of (all_here (f := fun x : (Agent → FO → Instr) × List SbEnt => begins (onCord { rich with sbuf := x.2 }) co (x.1 co (fo 0)) 0 .U)
      (L := [Instr.sbar, .fbar].flatMap (fun mk => [[], [stored false]].map (fun b => (mk, b)))) (fun _ h => h) (by decide +kernel) (mk, b)
      (List.mem_flatMap.mpr ⟨mk, hm, List.mem_map.mpr ⟨b, hb, rfl⟩⟩)),
    by decide +kernel, by decide +kernel, by decide, quiet_of (by decide +kernel), ⟨quiet_of (by decide +kernel), by decide +kernel⟩, by decide +kernel⟩

/-- STORE_BOUNCE_TIMEOUT with no store sent, with a knot's store sent, and with another sent, under a waiting barrier and under none; a store sent to
another module and one behind a port. -/
theorem test_witness_StoreBouncesReport :
    let s (k : Core) : State := onCord k
    let sent (b : Bool) : SbEnt := { stored b with sent := true }
    ((∀ e ∈ ((s rich).cord 0).sbuf, e.sent = false) ∧ ∀ x ∈ (s rich).claimsOf (tileOf (s rich) 0), x.cord = 0 → ∀ e ∈ x.stores, e.sent = false)
    ∧ (∀ b ∈ [true, false], ((s { rich with sbuf := [stored false, sent b] }).cord 0).sbuf.find? SbEnt.sent = some (sent b) ∧ (sent b).knot = b)
    ∧ ((s { rich with run := .waitBarrier .sbar 0 }).cord 0).run = .waitBarrier .sbar 0 ∧ (∀ b h, ((s rich).cord 0).run ≠ .waitBarrier b h)
    ∧ ({ sent false with port := 48 } : SbEnt).port = 48 ∧ (sent false).port ≠ 48 :=
  ⟨by decide +kernel, by decide +kernel, by decide +kernel, fun _ _ h => by injection h, by decide, by decide⟩

theorem test_witness_ImpreciseFloatingPointTraps :
    (Begins (onCord rich) (onCord rich) co (.fsync co (fo 0)) 0 .U ∧ Quiet (onCord rich) co 0
      ∧ ((onCord rich).cord 0).fcsr.toNat / 2 ^ 24 % 32 = 0 ∧ ((onCord rich).cord 0).stackOk .H 0 0 = true)
    ∧ (let s := atLevel .S { rich with fcsr := 0x1F000000 }
       Begins s s co (.fsync co (fo 0)) 0 .U ∧ (s.cord 0).fcsr.toNat / 2 ^ 24 % 32 ≠ 0 ∧ s.wants = [] ∧ (s.cord 0).lvl ≠ .H
         ∧ (s.cord 0).trS.active = false)
    ∧ (let s := atLevel .U { rich with fcsr := 0x1000000, fpCount := [(0, 0)] }
       (s.cord 0).run = .running ∧ (s.cord 0).paused = false ∧ (0, 0) ∈ (s.cord 0).fpCount ∧ s.fcu.safe = none ∧ (s.cord 0).knot = none
         ∧ (s.cord 0).lvl ≠ .H ∧ (s.cord 0).trS.active = false) :=
  ⟨⟨begins_of (by decide +kernel), quiet_of (by decide +kernel), by decide +kernel⟩, ⟨begins_of (by decide +kernel), by decide +kernel⟩,
    by decide +kernel⟩

theorem test_witness_SilentTargetTraps :
    let w : LoadWait := { port := 1, seq := 2, pa := 0x44, size := 4, whole := true, pops := 1, home := hm 0, ag := none }
    let s := onCord { rich with run := .waitLoad w }
    ((s.cord 0).run = .waitLoad w ∧ (s.cord 0).paused = false ∧ (s.cord 0).knot = none ∧ (s.cord 0).trH.active = false ∧ s.recording = false
      ∧ s.replaying = false)
    ∧ ∀ w, ((onCord rich).core co).run ≠ .waitLoad w :=
  ⟨by decide +kernel, fun _ h => by injection h⟩

/-! ### Memory instructions -/

/-- A word whose bytes differ, at the address 0x9000. -/
def word : Nat := 0x8877665544332211

/-- A cord with this core, line 0x90 holding `word` at its start, dirty. -/
def dataCord (k : Core) : State := (onCord k).setL2 0 0x90 { whole (putBytes 0 0 word) with dirty := 15 }

/-- Three entries of this value; generator 2 at 0x9000. -/
def pointing (v : Word) : Core :=
  { stacked [v, v, v] with ags := [(2, { base := 0x9000, idx := 8, step := 3, len := 4, brk := 5 })] }

/-- Port 1 up, with a window that begins at 0xF00000000000. -/
def withPort (s : State) : State :=
  (((s.putFlag (CHP_MMIO.EN 1) true).put (CHP_MMIO.BASE 1) 0xF00000).put (CHP_MMIO.LIMIT 1) 0xF00000).put (CHP_STAT.LINK 1) 2

theorem test_witness_AddressForms :
    let k := pointing 0x9000
    (fm 3 2 2).am.toNat = 2 ∧ (k.ag 2).len ≠ 0 ∧ (k.ag 2).brk.toNat ≤ 32 ∧ (k.ag 3).len = 0 ∧ (k.ag 3).brk.toNat ≤ 32 := by decide

/-- A load of 8 bytes across the boundary of the last line of `word`'s neighbour, and one behind a port. -/
theorem test_witness_LoadPushesValue :
    (let s := dataCord (pointing 0x9000)
     Here s co (.load co (fm 3 0 0)) 1 1 1 [0x9000] [0x8000] 1
       ∧ loadAt s co (opWord (.load co (fm 3 0 0))) .H 0x9000 8 = (s, .ok (.now word)))
    ∧ (let s := withPort (onCord (pointing 0xF00000000010))
       Here s co (.load co (fm 2 0 0)) 1 1 1 [0xF00000000010] [0x8000] 1
         ∧ loadAt s co (opWord (.load co (fm 2 0 0))) .H 0xF00000000010 4 = (s, .ok (.later 1 0x10 0xF00000000010 4 true))
         ∧ s.wants = []) :=
  ⟨⟨here_of (by decide +kernel), by decide +kernel⟩, here_of (by decide +kernel), by decide +kernel, by decide +kernel⟩

theorem test_witness_StoreEntersBuffer :
    let s := dataCord (pointing 0x9001)
    let ps : List Piece := [{ va := 0x9001, pa := 0x9001, size := 8, attr := .cached }]
    Here s co (.store co (fm 3 0 0)) 2 2 0 [0x9001, 0x9001] [] 0 ∧ storeAt s co (opWord (.store co (fm 3 0 0))) .H 0x9001 8 = (s, .ok ps)
      ∧ Quiet s co 8 :=
  ⟨here_of (by decide +kernel), by decide +kernel, quiet_of (by decide +kernel)⟩

/-- A store that ends where its line ends. -/
theorem test_witness_BufferedStoresForward :
    let st : StoreReq := { pa := 0x90F8, va := 0x90F8, size := 8, val := word, tenant := 0, attr := .cached }
    7 < st.size ∧ st.pa % 256 + st.size ≤ 256 ∧ core0.stackByte (st.pa + 7) = none := by decide

theorem test_witness_ReservedPair :
    let p : Piece := { va := 0x9000, pa := 0x9000, size := 8, attr := .cached }
    (let s := dataCord (pointing 0x9000)
     let w := opWord (.loadReserved co (fm 3 0 0))
     Here s co (.loadReserved co (fm 3 0 0)) 1 1 1 [0x9000] [0x8000] 1 ∧ atomicAt s co w .H 0x9000 8 .load = (s, .ok p)
       ∧ takeGranule s co (usesCache s co p) (p.pa / s.granule * s.granule) (s.granule / 256) = (s, .ok ())
       ∧ atomicRead s co (usesCache s co p) p = (s, .ok (putBytes 0 0 word, 0)) ∧ (s.core co).meetsPoison 0 p.pa p.size = false)
    ∧ (let s := dataCord (pointing 0x9000)
       let w := opWord (.storeConditional co (fm 3 0 0))
       Here s co (.storeConditional co (fm 3 0 0)) 2 2 1 [0x9000, 0x9000] [0x8008] 1 ∧ atomicAt s co w .H 0x9000 8 .store = (s, .ok p)
         ∧ (s.core co).resv = none)
    ∧ (let r : Resv := { base := 0x8F00, size := 0x101 }
       let s := dataCord { pointing 0x9000 with resv := some r }
       let w := opWord (.storeConditional co (fm 3 0 0))
       let s4 := (performNow s co (usesCache s co p) p 0x9000).1
       (Here s co (.storeConditional co (fm 3 0 0)) 2 2 1 [0x9000, 0x9000] [0x8008] 1 ∧ Quiet s4 co 1) ∧ atomicAt s co w .H 0x9000 8 .store = (s, .ok p)
         ∧ ((s.core co).resv = some r ∧ r.base ≤ p.pa ∧ p.pa < r.base + r.size) ∧ (s.core co).buffered p.pa = false
         ∧ performNow s co (usesCache s co p) p 0x9000 = (s4, .ok ())) :=
  ⟨⟨here_of (by decide +kernel), by decide +kernel⟩, ⟨here_of (by decide +kernel), by decide +kernel⟩,
    ⟨here_of (by decide +kernel), quiet_of (by decide +kernel)⟩, by decide +kernel⟩

theorem test_witness_AtomicOperations : (2 ^ 64 - 1 < 2 ^ 64 ∧ 0 < 2 ^ 64) ∧ (2 ^ 32 - 1 < 2 ^ 32) ∧ 0xA ≤ 0xA ∧ 15 < 16 := by decide

theorem test_witness_FarAtomicPushesOld :
    let f (aop : Nat) : FA := { cond := 0, s := false, sz := 3, am := 0, ag := 0, aop := BitVec.ofNat 4 aop, disp := 0 }
    let s := dataCord (pointing 0x9000)
    let p : Piece := { va := 0x9000, pa := 0x9000, size := 8, attr := .cached }
    (∀ aop ∈ [0, 9], let s4 := (atomNow s (agentSrc s co) (requester co) (requestTenant s co) 0x9000 true (f aop).aop 0x9000 0x9000).1
      Here s co (.farAtomic co (f aop)) 2 2 1 [0x9000, 0x9000] [0x8008] 0 ∧ atomicAt s co (opWord (.farAtomic co (f aop))) .H 0x9000 8 .fill = (s, .ok p)
        ∧ (s.core co).buffered p.pa = false
        ∧ atomNow s (agentSrc s co) (requester co) (requestTenant s co) 0x9000 true (f aop).aop 0x9000 0x9000 = (s4, .done, 0, false) ∧ Quiet s4 co 1)
    ∧ (let s4 := (atomNow s (agentSrc s co) (requester co) (requestTenant s co) 0x9000 true (f 5).aop 0x9000 0x9000).1
       Here s co (.farAtomic co (f 5)) 3 3 1 [0x9000, 0x9000, 0x9000] [0x8010] 0
        ∧ atomNow s (agentSrc s co) (requester co) (requestTenant s co) 0x9000 true (f 5).aop 0x9000 0x9000 = (s4, .done, 0, false) ∧ Quiet s4 co 1) := by
  refine ⟨fun aop h => ?_, here_of (by decide +kernel), by decide +kernel, quiet_of (by decide +kernel)⟩
  simp only [List.mem_cons, List.not_mem_nil, or_false] at h
  obtain rfl | rfl := h
  all_goals exact ⟨here_of (by decide +kernel), by decide +kernel, rfl, by decide +kernel, quiet_of (by decide +kernel)⟩

/-- Whether a part of an instruction answers. -/
def answers {α : Type} : Got α → Bool
  | .ok _ => true
  | _ => false

/-- A line operation that answers has nothing left to do when it retires. -/
theorem cmoNow_ok {a : Agent} {o : CmoOp} {s : State} {p : Piece} {l : Lead} (h : answers (cmoNow a o s p l).2 = true) :
    cmoNow a o s p l = ((cmoNow a o s p l).1, .ok id) := by
  revert h
  simp only [cmoNow]
  split
  · intro h
    cases h
  · unfold onceThen
    split
    · exact fun _ => rfl
    · intro h
      cases h
    · intro h
      exact absurd h (by simp [refusedTrap, trapAt, answers])

/-- The line of `word`, as a line operation checks it. -/
def piece90 (n : Nat) : Piece := { va := 0x9000, pa := 0x9000, size := n, attr := .cached }

/-- A line operation on the line of `word`, at the state that its check leaves. -/
def lineOp (i : Instr) (lvl : Level) (acc : Acc1) (o : CmoOp) : Prop :=
  let s := dataCord (pointing 0x9000)
  ∃ s4 p l, (Ready s s co i 0 lvl 1 1 0 (stk [0x9000] []) 0 ∧ Quiet s4 co 0)
    ∧ lineAt s co (opWord i) acc .atomic 0x9000 = (s, .ok (p, l)) ∧ cmoNow co o s p l = (s4, .ok id)

theorem lineOp_of {i : Instr} {lvl : Level} {acc : Acc1} {o : CmoOp} (h : let s := dataCord (pointing 0x9000)
    (ready s s co i 0 lvl 1 1 0 (stk [0x9000] []) 0 && quiet (cmoNow co o s (piece90 256) (.mem 0)).1 co 0
      && lineAt s co (opWord i) acc .atomic 0x9000 == (s, .ok (piece90 256, .mem 0)) && answers (cmoNow co o s (piece90 256) (.mem 0)).2) = true) :
    lineOp i lvl acc o := by
  simp only [Bool.and_eq_true, beq_iff_eq] at h
  exact ⟨_, _, _, ⟨ready_of h.1.1.1, quiet_of h.1.1.2⟩, h.1.2, cmoNow_ok h.2⟩

theorem test_witness_LineOperations :
    (lineOp (.clean co (fl 0)) .U .rx .clean ∧ lineOp (.flush co (fl 0)) .U .rx .flush ∧ lineOp (.inval co (fl 0)) .H .rx .inval
      ∧ lineOp (.icinv co (fl 0)) .U .exec .icinv)
    ∧ (let s := dataCord (pointing 0x9000)
       let s4 := (obtain s 0 (normLine s 0x9000) 0 true true).1
       (Here s co (.zline co (fl 0)) 1 1 0 [0x9000] [] 0 ∧ Quiet (touchL1 (zeroL2 s4 (s4.triadOf 0) (normLine s 0x9000)) 0 (normLine s 0x9000) false) co 0)
         ∧ lineAt s co (opWord (.zline co (fl 0))) .store .store 0x9000 = (s, .ok (piece90 256, .mem 0))
         ∧ ((s.cord 0).knot = none ∧ drainFor s co 0x9000 = s ∧ (s.cord 0).buffered 0x9000 = false)
         ∧ l1dOff s (s.triadOf 0) (s.shareOf 0) = false ∧ obtain s 0 (normLine s 0x9000) 0 true true = (s4, .ready)) :=
  ⟨⟨lineOp_of (by decide +kernel), lineOp_of (by decide +kernel), lineOp_of (by decide +kernel), lineOp_of (by decide +kernel)⟩,
    ⟨here_of (by decide +kernel), quiet_of (by decide +kernel)⟩, by decide +kernel, by decide +kernel, by decide +kernel, rfl⟩

/-- What answers a translation that reaches no cached page. -/
theorem not_cached {r : State × Got (List Piece)} (h : (match r.2 with | .ok [q] => q.attr != .cached | _ => true) = true) :
    ∀ s3 p, r ≠ (s3, .ok [p]) ∨ p.attr ≠ .cached := by
  intro s3 p
  by_cases e : r = (s3, .ok [p])
  · subst e
    exact .inr (by simpa using h)
  · exact .inl e

theorem test_witness_PrefetchesRetire :
    let s := dataCord (pointing 0x9000)
    let far := onCord (pointing 0xF00000000000)
    ∀ b ∈ [(Instr.pfr, false), (Instr.pfw, true)],
      let acc : Acc1 := if b.2 then .probe else .load
      (Here far co (b.1 co (fl 0)) 1 1 0 [0xF00000000000] [] 0 ∧ (physAll far 0 .H acc [(0xF00000000000, 1)]).1.wants = []
        ∧ ∀ s3 p, physAll far 0 .H acc [(0xF00000000000, 1)] ≠ (s3, .ok [p]) ∨ p.attr ≠ .cached)
      ∧ Here s co (b.1 co (fl 0)) 1 1 0 [0x9000] [] 0 ∧ physAll s 0 .H acc [(0x9000, 1)] = (s, .ok [piece90 1])
      ∧ Quiet (prefetchGo co b.2 s (piece90 1) (leadOf s (s.tenantOf 0) .H 0x9000)) co 0 := by
  intro s far b h
  simp only [List.mem_cons, List.not_mem_nil, or_false] at h
  obtain rfl | rfl := h
  all_goals
    exact ⟨⟨here_of (by decide +kernel), by decide +kernel, not_cached (by decide +kernel)⟩, here_of (by decide +kernel), by decide +kernel,
      quiet_of (by decide +kernel)⟩

/-- A Shuttle's prefetch, and one on an empty stack. -/
theorem test_witness_PrefetchesOfShuttles :
    ∀ mk ∈ [Instr.pfr, .pfw], Here two sh (mk sh (fl 0)) 1 1 0 [3] [] 0
      ∧ (let s := onShuttle { core0 with stkH := { core0.stkH with sp := 0x9000 } }
         (Begins s s sh (mk sh (fl 0)) 0 .U ∧ Quiet s sh 0)
           ∧ stackStep s sh (opWord (mk sh (fl 0))) 1 1 0 = (s, .trap { cause := 6, eval := 0x9000 }) ∧ s.wants = []) := by
  intro mk h
  simp only [List.mem_cons, List.not_mem_nil, or_false] at h
  obtain rfl | rfl := h
  all_goals exact ⟨here_of (by decide +kernel), ⟨begins_of (by decide +kernel), quiet_of (by decide +kernel)⟩, by decide +kernel⟩

/-! ### Floating point -/

/-- 1.5 over 2.5 in binary64, and in binary32. -/
def floats : Core := stacked [0x3FF8000000000000, 0x4004000000000000, 0x3FF0000000000000]

theorem test_witness_FloatingPointResults :
    (∀ mk ∈ [Instr.fadd, .fsub, .fmul, .fdiv, .fmin, .fmax, .fcpys], ∀ p ∈ [true, false],
      Here (onCord floats) co (mk co (ff p)) 2 2 1 [0x3FF8000000000000, 0x4004000000000000] [0x8008] 1)
    ∧ (∀ mk ∈ [Instr.fsqrt, .fneg, .fabs, .f2i, .f2u, .i2f, .u2f, .fcvt, .frint],
      Here (onCord floats) co (mk co (ff true)) 1 1 1 [0x3FF8000000000000] [0x8000] 1)
    ∧ ∀ mk ∈ [Instr.fma, .fnma],
      Here (onCord floats) co (mk co (ff true)) 3 3 1 [0x3FF8000000000000, 0x4004000000000000, 0x3FF0000000000000] [0x8010] 1 :=
  ⟨fun mk h p hp => all_here (f := fun x : (Agent → FF → Instr) × Bool =>
      ready (onCord floats) (onCord floats) co (x.1 co (ff x.2)) 0 .U 2 2 1 (stk [0x3FF8000000000000, 0x4004000000000000] [0x8008]) 1)
      (P := fun x : (Agent → FF → Instr) × Bool =>
        Here (onCord floats) co (x.1 co (ff x.2)) 2 2 1 [0x3FF8000000000000, 0x4004000000000000] [0x8008] 1)
      (L := [Instr.fadd, .fsub, .fmul, .fdiv, .fmin, .fmax, .fcpys].flatMap (fun mk => [true, false].map (fun p => (mk, p))))
      (fun _ => here_of) (by decide +kernel) (mk, p) (List.mem_flatMap.mpr ⟨mk, h, List.mem_map.mpr ⟨p, hp, rfl⟩⟩),
    all_here (fun _ => here_of) (by decide +kernel), all_here (fun _ => here_of) (by decide +kernel)⟩

theorem test_witness_FloatingPointCompares :
    (∀ mk ∈ [Instr.fcmp, .fcmpe], Here (onCord floats) co (mk co (ff true)) 2 2 0 [0x3FF8000000000000, 0x4004000000000000] [] 0)
    ∧ Here (onCord floats) co (.fclass co (ff false)) 1 1 1 [0x3FF8000000000000] [0x8000] 1 :=
  ⟨all_here (fun _ => here_of) (by decide +kernel), here_of (by decide +kernel)⟩

/-- The largest finite number, a quiet NaN and a signalling one. -/
theorem test_witness_RoundingAndNaNs :
    (∃ neg m e, Fmt.b32.decode 0x7F7FFFFF = .fin neg m e) ∧ Fmt.b32.isNaN 0x7FC00000 = true ∧ Fmt.b32.isSNaN 0x7FC00000 = false
    ∧ Fmt.b64.isSNaN 0x7FF0000000000001 = true ∧ Fmt.b64.isSNaN (2 ^ 64 - 1) = false ∧ 0x7FF0000000000001 < 2 ^ 64 :=
  ⟨⟨_, _, _, rfl⟩, by decide, by decide, by decide, by decide, by decide⟩

/-! ### Words and ill-formed terms -/

/-- The words of the worked example of chapter 03. -/
theorem test_words :
    let a : Agent := .cord 0
    insnOf a 0x008003F9 = some (.push a { cond := 0, s := false, imm := 0x3F9 })
    ∧ insnOf a 0x00C00000 = some (.pushh a { cond := 0, s := false, rz := false, imm := 0 })
    ∧ insnOf a 0x000B0010 = some (.wrag a { cond := 0, s := false, opnd := 0x10 })
    ∧ insnOf a 0x00420000 = some (.swap a (fo 0))
    ∧ insnOf a 0x02348000 = some (.load a { cond := 0, s := false, sz := 3, am := 2, ag := 2, disp := 0 })
    ∧ insnOf a 0x11000000 = some (.add a { cond := 0, s := true, opnd := 0 })
    ∧ insnOf a 0x01020000 = some (.adc a (fo 0))
    ∧ insnOf a 0x1110FFFF = some (.addi a { cond := 0, s := true, opnd := 0xFFFF })
    ∧ insnOf a 0x463FFFF9 = some (.b a { cond := 2, s := false, off := 0x3FFFF9 })
    ∧ insnOf a 0x00400000 = some (.drop a (fo 0)) := ⟨rfl, rfl, rfl, rfl, rfl, rfl, rfl, rfl, rfl, rfl⟩

theorem test_ill_formed_fields :
    (.nop co (fo 1) : Instr).ok = false ∧ (.nop co { fo 0 with s := true } : Instr).ok = false
    ∧ (.retg co (fo 8) : Instr).ok = false ∧ (.rdag co (fo 5) : Instr).ok = false ∧ (.wrag co (fo 0x40) : Instr).ok = false
    ∧ (.dupn co (fo 32) : Instr).ok = false ∧ (.xchn co (fo 0) : Instr).ok = false ∧ (.dropn co (fo 0) : Instr).ok = false
    ∧ (.push co { cond := 0, s := true, imm := 0 } : Instr).ok = false ∧ (.pushh co { cond := 0, s := false, rz := true, imm := 0 } : Instr).ok = false
    ∧ (.add co (fo 1) : Instr).ok = false ∧ (.shl co (fo 0x80) : Instr).ok = false ∧ (.shl co (fo 5) : Instr).ok = false
    ∧ (.shl co (fo 0x45) : Instr).ok = true ∧ (.cmpi co { fo 0 with s := true } : Instr).ok = false ∧ (.setf co (fo 8) : Instr).ok = false
    ∧ (.b co { cond := 0, s := true, off := 0 } : Instr).ok = false ∧ (.gate co (fo 8) : Instr).ok = false ∧ (.gate co (fo 7) : Instr).ok = true := by
  decide

theorem test_ill_formed_memory :
    (.load co (fm 3 6 0) : Instr).ok = false ∧ (.load co (fm 3 0 1) : Instr).ok = false ∧ (.load co (fm 3 2 1) : Instr).ok = true
    ∧ (.loadReserved co (fm 1 0 0) : Instr).ok = false ∧ (.storeConditional co (fm 2 0 0) : Instr).ok = true
    ∧ (.farAtomic co { cond := 0, s := false, sz := 3, am := 0, ag := 0, aop := 10, disp := 0 } : Instr).ok = false
    ∧ (.farAtomic co { cond := 0, s := false, sz := 1, am := 0, ag := 0, aop := 0, disp := 0 } : Instr).ok = false
    ∧ (.pfr co { fl 0 with rz := 1 } : Instr).ok = false := by decide

theorem test_ill_formed_floats :
    (.fadd co { ff false with rm := 6 } : Instr).ok = false ∧ (.fneg co { ff false with rm := 1 } : Instr).ok = false
    ∧ (.fadd co { ff false with rz := 1 } : Instr).ok = false ∧ (.fadd co (ff true) : Instr).ok = true := by decide

theorem test_ill_formed_control_registers :
    (.rdcr co (fo 6) : Instr).ok = false ∧ (.wrcr co (fo 3) : Instr).ok = false ∧ (.rdcr co (fo 0x1000) : Instr).ok = false
    ∧ (.rdcr sh (fo 2) : Instr).ok = false ∧ (.rdcr co (fo 2) : Instr).ok = true := by decide

/-- Instructions that a Shuttle does not have. -/
theorem test_ill_formed_on_a_shuttle :
    (.mul sh (fo 0) : Instr).ok = false ∧ (.fadd sh (ff false) : Instr).ok = false ∧ (.tlbiVa sh (fo 0) : Instr).ok = false
    ∧ (.fsync sh (fo 0) : Instr).ok = false ∧ (.mul co (fo 0) : Instr).ok = true := by decide

/-- A word of no instruction, and one with a reserved field set. -/
theorem test_undefined_words : insnOf co 0x0FC00000 = none ∧ insnOf co 0x00010001 = none ∧ insnOf co 0xFFFFFFFF = none := by decide

theorem test_witness_TrapRouting : (1 ≤ 5 ∧ 5 ≤ 0x10) ∧ Level.U ≠ .H := by decide

end Sys2Proof.Tests
end

