-- ==== Sys2Proof/Tests/Block.lean ====
section
/-! SUPPORT. Tests: the Loom, registers, coherence, memory, channels, ports and engines. A state and operands that meet the hypotheses
of each statement together (`test_witness_<statement>`). -/

namespace Sys2Proof.Tests
open Sys2Proof Sys2Proof.Machine

set_option Elab.async false

/-! ### The Loom -/

/-- Reset with the Loom counting, in this beat. -/
def beatAt (b : Nat) : State := ({ withMemory with time := { withMemory.time with loom := true } }).put LOOM_PICK.BEAT b

theorem plain_of {s : State} (h : ((s.pwr.retained == false && s.pwr.retain == 0 && s.spl.release == false)
    && (s.flag LOOM_STAT.PENDING == false && s.loom.deferred == []) && s.triads == []
    && (s.pwr.railHalf == [] && s.pwr.thermHalf == [] && s.pwr.thermUntil == [])
    && (s.recording == false && s.replaying == false && s.rpl.wait == .none && s.rpl.staged == [])
    && s.ports == [] && s.loom.lostPick == false
    && (List.range 260).all (fun d => s.flag (PWR_DOM.PINNED d) == (pinnedDomains s).contains d
      && (!(pinnedDomains s).contains d || s.get (PWR_DOM.CUR d) == pst.ON))) = true) : PlainPick s := by
  simp only [Bool.and_eq_true, beq_iff_eq, List.all_eq_true, List.mem_range, Bool.or_eq_true, Bool.not_eq_true'] at h
  obtain ⟨⟨⟨⟨⟨⟨⟨⟨⟨a1, a2⟩, a3⟩, b1, b2⟩, c⟩, ⟨d1, d2⟩, d3⟩, ⟨⟨e1, e2⟩, e3⟩, e4⟩, f⟩, g⟩, i⟩ := h
  refine ⟨⟨a1, a2, a3⟩, ⟨b1, b2⟩, fun k => ?_, ⟨d1, d2, d3⟩, ⟨e1, e2, e3, e4⟩, fun p _ => ?_, g, fun d hd => ⟨(i d hd).1, fun hp => ?_⟩⟩
  · simp [State.triad, c, mget, mget?]; rfl
  · have h : s.port p = Port.zero := by simp [State.port, f, mget, mget?]
    exact ⟨by rw [h]; rfl, by rw [h]; rfl⟩
  · rcases (i d hd).2 with h | h
    · rw [h] at hp; cases hp
    · exact .inl h

theorem test_witness_BeatsAdvance :
    (let s := beatAt 61
     s.time.loom = true ∧ s.stopped = false ∧ s.beat < 62 ∧ s.pwr.retained = false ∧ s.rpl.staged = [] ∧ s.ports = [] ∧ s.closedWeave = true
       ∧ s.loom.flushes = [] ∧ s.ctls = [])
    ∧ (let s := { beatAt 62 with pwr := { State.reset.pwr with retained := true } }
       s.time.loom = true ∧ s.stopped = false ∧ s.beat < 63 ∧ s.pwr.retained = true ∧ s.loom.flushes = [] ∧ s.ctls = [])
    ∧ ¬ ((beatAt 63).time.loom = true ∧ (beatAt 63).stopped = false ∧ (beatAt 63).beat ≠ 63) := by decide +kernel

theorem test_witness_MinutesSwapBanks :
    let s := { beatAt 0 with loom := { (beatAt 0).loom with minuteDue := true } }
    s.loom.minuteDue = true ∧ s.stopped = false ∧ (∀ k, k < 4 → min (([] : List Nat).getD k 0) 65535 ≤ s.get (PWR_AGE.LIMIT k))
      ∧ s.pwr.retained = false ∧ (beatAt 0).loom.minuteDue = false := by decide +kernel

/-- The pick before a minute boundary, of a manager. -/
theorem test_witness_PicksAdvance :
    let s := ((beatAt 63).put LOOM_PICK.PICK 468749).put MOD_MODE.MODE 1
    s.time.loom = true ∧ s.stopped = false ∧ s.beat = 63 ∧ s.role = 1 ∧ s.lifecycle ≠ life.STANDBY ∧ (s.pick + 1) % 468750 = 0 ∧ PlainPick s
      ∧ { s with pwr := { s.pwr with retained := true } }.pwr.retained = true :=
  have p : _ ∧ _ ∧ _ ∧ _ ∧ _ ∧ _ := by decide +kernel
  ⟨p.1, p.2.1, p.2.2.1, p.2.2.2.1, p.2.2.2.2.1, p.2.2.2.2.2, plain_of (by decide +kernel), rfl⟩

/-- A worker, its edges unused and accepted so often, SOURCE so. -/
def worker (s : State) (n : Nat) (source : Bool) : State :=
  let u := (s.put MOD_MODE.MODE 2).putFlag LOOM_SYNC.SOURCE source
  { u with loom := { u.loom with unused := n, accepted := n } }

def pulsed (s : State) (held : Bool) : State := { s with loom := { s.loom with syncEdge := some (0, held) } }

theorem test_witness_PicksyncEdges :
    (beatAt 5).role ≠ 2
    ∧ (∀ b ∈ [true, false], ∀ x ∈ [true, false], let s := worker (beatAt 5) 2 b
       let s := { s with loom := { s.loom with missed := x, edge := !x } }
       s.role = 2 ∧ s.stopped = false ∧ s.loom.admitPick = none ∧ s.time.loom = true ∧ s.loom.syncEdge = none ∧ s.loom.missed = x ∧ s.loom.edge = !x
         ∧ s.flag LOOM_SYNC.SOURCE = b ∧ s.loom.unused = 2 ∧ s.beat ≠ 63 ∧ 0 ≤ (s.time.pickStart : Int) + 1)
    ∧ (let s := worker (beatAt 63) 0 true
       PlainPick s ∧ s.role = 2 ∧ s.flag LOOM_SYNC.SOURCE = true ∧ s.beat = 63)
    ∧ (∀ b ∈ [true, false], ∀ h ∈ [true, false], let s := pulsed (worker (beatAt 5) 3 b) h
       s.loom.syncEdge = some (0, h) ∧ s.loom.lostPick = false ∧ s.flag LOOM_SYNC.SOURCE = b ∧ 3 ≤ s.loom.accepted ∧ s.loom.unused ≠ 2)
    ∧ (let s := { worker (beatAt 5) 0 false with loom := { (worker (beatAt 5) 0 false).loom with syncEdge := some (-1, false) } }
       s.loom.syncEdge = some (-1, false) ∧ (-1 : Int) ≤ s.time.pickStart)
    ∧ (2 ≤ 2 ∧ 6 ≤ 6 ∧ 10 ≤ 10 ∧ 14 ≤ 14) ∧ (1 < 2 ∧ 6 < 7 ∧ 9 < 10 ∧ 14 < 15) ∧ (2 : Int).natAbs = 2 ∧ (-1 : Int).natAbs = 1 :=
  ⟨by decide +kernel, by decide +kernel, ⟨plain_of (by decide +kernel), by decide +kernel⟩, by decide +kernel, by decide⟩

/-- A commit of every table for the next pick, and one pending for the present. -/
theorem test_witness_CommitLoadsShadows :
    (let s := ((beatAt 5).put LOOM_COMMITAT.PICK 1).putFlag LOOM_COMMITAT.EN true
     (0x1FFFFFFFFFFFFF : Word).toNat % 2 ^ 53 ≠ 0 ∧ s.flag LOOM_STAT.PENDING = false ∧ s.flag LOOM_COMMITAT.EN = true
       ∧ (s.get LOOM_COMMITAT.PICK + 2 ^ 32 - s.pick % 2 ^ 32) % 2 ^ 32 = 1 ∧ s.time.now + 16 ≤ s.time.pickStart + 12800
       ∧ (s.putFlag LOOM_STAT.PENDING true).flag LOOM_STAT.PENDING = true)
    ∧ (let s := ({ beatAt 0 with loom := { (beatAt 0).loom with marks := 1, commitPick := some 0, lateAtApply := true } }).putFlag LOOM_STAT.PENDING true
       s.flag LOOM_STAT.PENDING = true ∧ s.loom.commitFrom ≤ s.time.now ∧ s.loom.commitPick = some 0 ∧ s.pick % 2 ^ 32 = 0 ∧ s.loom.markCords = false
         ∧ s.loom.deferred = [] ∧ s.recording = false ∧ s.loom.lateAtApply = true ∧ s.loom.marks.testBit 0 = true ∧ s.loom.marks.testBit 51 = false) := by
  decide +kernel

/-- A read that waits, a message at a warp link, a tenant's write, and a write of the flush reserve in the house beat. -/
theorem test_witness_WaitingRequestIssues :
    let w (k : Wait) : Waiting := { table := 0, tenant := 0, line := 9, issued := false, what := k }
    let done : Waiting := { w .read with issued := true }
    let s (b : Nat) (k : Wait) : State := { beatAt b with loom := { (beatAt b).loom with waiting := [done, w k] } }
    (∀ k ∈ [Wait.read, .link (.reject 3), .write 0 0xFF 7 0 .none false], (s 5 k).loom.waiting = [done] ++ w k :: [] ∧ waitingMay (s 5 k) (w k) = true)
    ∧ (∀ h ∈ [true, false], waitingMay (s 63 .read) (w (.write 0 0xFF 7 0 .none h)) = h)
    ∧ (s 63 (.write 0 0xFF 7 0 .none true)).loom.waiting = [done] ++ w (.write 0 0xFF 7 0 .none true) :: [] := by decide +kernel

/-- Cord 0 in this step of its flush, so long after the boundary, with one claim. -/
def flushing (step n : Nat) (new : Word) : State :=
  let s := (onCord { core0 with sbuf := [stored false, stored true] }).setL2 0 0xA0 { whole 7 with dirty := 3 }
  ({ s with time := { s.time with now := s.time.pickStart + n }
            loom := { s.loom with claims := [(0, [{ way := 0, cord := 0, tenant := 3, filled := false, lines := [], stores := [] }])] } }).setFlush 0
    (some { old := 0x1403, new := new, step := step, ran := false, loaded := step == 4 })

theorem test_witness_ReassignmentFlush :
    let at_ (s : State) (n t : Nat) : Prop := (s.flushOf 0).map Flush.step = some n ∧ t ≤ s.since
    (let s := flushing 0 200 0
     at_ s 0 200 ∧ (s.cord 0).bounced = [] ∧ tileOf s 0 = 0 ∧ s.claimsOf 0 = [] ++ { way := 0, cord := 0, tenant := 3, filled := false, lines := [], stores := [] } :: [])
    ∧ ¬ 200 ≤ (flushing 0 199 0).since
    ∧ (at_ (flushing 1 200 0) 1 200 ∧ ∃ y ∈ (flushing 1 300 0).claimsOf 0, y.cord = 0 ∧ y.filled = false)
    ∧ at_ (flushing 2 3480 0) 2 3480 ∧ ¬ 3480 ≤ (flushing 2 3479 0).since
    ∧ at_ (flushing 3 3890 0) 3 3890 ∧ ((flushing 3 3890 0).flushOf 0).all (fun f => bits f.new.toNat 10 2 != 1)
    ∧ at_ (flushing 3 3890 0x2405) 3 3890 ∧ ((flushing 3 3890 0x2405).flushOf 0).all (fun f => bits f.new.toNat 10 2 == 1)
    ∧ at_ (flushing 4 4000 0) 4 4000 ∧ ((flushing 4 4000 0).flushOf 0).all (fun f => f.loaded) := by decide +kernel

/-- The incoming slot of a cord that is to run: it holds a saved context. -/
theorem test_witness_ReassignmentFlush_loads :
    let s := flushing 3 3890 0x405
    let r := readSlot s (s.triadOf 0) (s.ctxOf 0)
    (∃ f, s.flushOf 0 = some f ∧ bits f.new.toNat 10 2 = 1) ∧ r.1.wants.length ≤ s.wants.length ∧ (r.1.triad (s.triadOf 0)).ckptBad = [] :=
  ⟨⟨_, rfl, by decide⟩, by decide +kernel⟩

/-- A claim of line 0x90 with a store to it, in the house beat. -/
def draining (cl : Claim) (b : Nat) : State :=
  { beatAt b with loom := { (beatAt b).loom with claims := [(0, [cl])] }, warp := [(0x90, { bytes := 9, dirty := 0, poison := 0, tenant := 0, way := 0 })] }

/-- One sector of line 0x90. -/
def line90 (sent : Bool) : ClaimLine := { line := 0x90, sel := 1, poison := 0, bytes := 5, sent := sent }

def claim90 : Claim := { way := 0, cord := 0, tenant := 3, filled := true, lines := [line90 false], stores := [stored false] }

theorem test_witness_ReserveDrains :
    ((draining claim90 63).claimsOf 0)[1]? = none
    ∧ (let s := draining claim90 63
       (s.claimsOf 0)[0]? = some claim90 ∧ claim90.lines.find? (fun y => !y.sent) = some (line90 false)
         ∧ claim90.stores.find? (fun y => !y.sent) = some (stored false) ∧ reserveBeat s 0x90 = true ∧ homeOfLine s 0x90 = some 0
         ∧ normLine s (stored false).pa = 0x90 ∧ (stored false).attr ≠ .device ∧ mget? s.warp 0x90 ≠ none)
    ∧ reserveBeat (draining claim90 5) 0x90 = false
    ∧ (let s := (draining claim90 63).put MOD_MODE.MODE 1
       let s := s.put SPL_BOLT.MEMBERS 3
       reserveBeat s 0x10000000090 = true ∧ homeOfLine s 0x10000000090 = none ∧ farModule s 0x10000000090 = some 1)
    ∧ (let cl : Claim := { claim90 with lines := [line90 true], stores := [{ stored false with sent := true }] }
       ((draining cl 5).claimsOf 0)[0]? = some cl ∧ (∀ x ∈ cl.lines, x.sent = true) ∧ ∀ e ∈ cl.stores, e.sent = true)
    ∧ ({ stored false with pa := 0xA000 }.toMem (draining claim90 5) = true)
    ∧ (draining claim90 5).get (LOOM_FLUSHRES.free 3) + ((draining claim90 5).claimsOf 3).length ≤ 15 := by decide +kernel

/-! ### Control-window registers -/

/-- The register of an offset has a field at this bit with this access, which takes v. -/
def fieldAt (s : State) (off lsb : Nat) (acc : Acc) (v : Nat) : Bool :=
  match rowAt off with
  | some r => r.fields.any (fun f => f.lsb == lsb && f.acc == acc && gateOpen s off f.gate && ruleOk s off v (bits v f.lsb f.w) f.rule)
  | none => false

/-- A field of each access that takes a write, one that is already locked, one that refuses, a bit in no field, and an unassigned offset. -/
theorem test_witness_HostWritesFields :
    rowAt 0x99 = none ∧ fieldAt State.reset 80 0 .rw 0 = true ∧ fieldAt State.reset 50331904 0 .held 0 = true ∧ fieldAt State.reset 104 0 .wo 0 = true
    ∧ fieldAt State.reset 256 62 .w1c (2 ^ 64 - 1) = true ∧ fieldAt State.reset 50331648 0 .lock (2 ^ 64 - 1) = true
    ∧ 50331648 * 64 + 0 ∉ State.reset.locks ∧ (50331648 * 64 + 0 ∈ ({ State.reset with locks := [50331648 * 64] } : State).locks)
    ∧ fieldAt State.reset 1052672 14 .rw (2 ^ 64 - 1) = false
    ∧ (match rowAt 80 with | some r => r.fields.all (fun f => 63 < f.lsb || f.lsb + f.w ≤ 63) | none => false) = true := by decide +kernel

/-- A write of ones to the first word of a shadow heddle table refuses four fields; one of zeros refuses none. -/
theorem test_witness_RefusedFieldsRecorded :
    let refuses (v : Nat) : Nat := match rowAt 1052672 with
      | some r => (r.fields.filter (fun f => gateOpen State.reset 1052672 f.gate && !ruleOk State.reset 1052672 v (bits v f.lsb f.w) f.rule)).length
      | none => 9
    refuses (2 ^ 64 - 1) = 4 ∧ refuses 0 = 0 ∧ State.reset.flag MOD_CFGERR.VALID = false
      ∧ (State.reset.putFlag MOD_CFGERR.VALID true).flag MOD_CFGERR.VALID = true := by decide +kernel

theorem test_witness_UnassignedOffsets : rowAt 0x99 = none ∧ rowAt 0xF0000 = none ∧ rowAt (0xFFFFFF + 8) = none := by decide +kernel

/-- MOD_MODE, an unassigned offset, and the first and last doorbell word beyond the slots of an open page. -/
theorem test_witness_RegisterWrites :
    let s := State.reset.putFlag (CHS_VI_CFG.EN 3) true
    (pageVi 80 = none ∧ (match rowAt 80 with | some r => !commandRegisters.contains r.base | none => false) = true)
    ∧ (pageVi 0x99 = none ∧ rowAt 0x99 = none)
    ∧ (pageVi 0x8003400 = some 3 ∧ 0x400 ≤ 0x8003400 % 0x1000 ∧ pageOpen s 3 host = true)
    ∧ (pageVi 0x8003FF8 = some 3 ∧ 0x400 ≤ 0x8003FF8 % 0x1000) ∧ 80 ≠ MOD_CFGERR.off := by decide +kernel

/-- A port in Weft mode and one in another; the first index past each array. -/
theorem test_witness_CounterReads :
    (State.reset.putFlag (CHP_CFG.MODE 47) true).flag (CHP_CFG.MODE 47) = true ∧ State.reset.flag (CHP_CFG.MODE 47) = false
    ∧ 47 < 48 ∧ 48 ≤ 48 ∧ 31 < 32 ∧ 32 ≤ 32 ∧ 1023 < 1024 ∧ (1 ≤ 1 ∧ 9 < 10) := by decide +kernel

/-! ### Coherence -/

/-- A request of cache 5, by the host, for line 0x90. -/
def req5 : Req := { src := 5, line := 0x90, tenant := 0, stamp := none, bad := 0 }

def warp90 : WLine := { bytes := 7, dirty := 1, poison := 0, tenant := 0, way := 0 }

/-- An open transaction of cache 3 on line 0x90 that waits for caches 5 and 7. -/
def open3 : Txn := { kind := .rdS, req := { req5 with src := 3 }, waits := [5, 7], told := Told.none, queue := [] }

/-- Line 0x90 held by cache 3 in X. -/
def owned3 : State := { withMemory with dir := [(0x90, { st := .X, owner := 3, sharers := [], stamp := none, used := 0 })] }

theorem test_witness_RequestsAtHome :
    (req5.src ≠ selfReq ∧ ∀ n, placeFor withMemory (0x5000000000 * 256) 0 ≠ .mem n)
    ∧ (let s := withMemory.put (PWR_DOM.CUR (dom.mem 0)) 3
       placeFor s (0x90 * 256) 0 = .mem 0 ∧ s.lit (dom.mem 0) = false)
    ∧ (let s := { owned3 with txns := [(0x90, open3)] }
       placeFor s (0x90 * 256) 0 = .mem 0 ∧ s.lit (dom.mem 0) = true ∧ normLine s (0x90 * 256) = 0x90 ∧ s.flag SPL_LEAVE.BUSY = false
         ∧ mget? s.txns 0x90 = some open3)
    ∧ (let part : ReqKind := .wrPart 1 7 0
       let s := owned3
       let u := { s with txns := (List.range 16).map (fun i => (0x100 + 2 * i, { open3 with kind := part })) }
       (mget? s.txns 0x90 = none ∧ selfOwned (s.dirAt 0x90) .rdS 5 = false ∧ mergesFull s 0 .rdS = false ∧ snoopPlan (s.dirAt 0x90) .rdS 5 ≠ [])
         ∧ mergesFull u 0 part = true ∧ mget? u.txns 0x90 = none ∧ selfOwned (u.dirAt 0x90) part 5 = false) :=
  ⟨⟨by decide, (show placeFor withMemory (0x5000000000 * 256) 0 = .hole by decide +kernel) ▸ (fun n h => (nomatch h))⟩, by decide +kernel⟩

theorem test_witness_RequestsServedFromWarpCache :
    let s := { withMemory with warp := [(0x90, warp90)] }
    placeFor s (0x90 * 256) 0 = .mem 0 ∧ s.lit (dom.mem 0) = true ∧ normLine s (0x90 * 256) = 0x90 ∧ s.flag SPL_LEAVE.BUSY = false
      ∧ mget? s.txns 0x90 = none ∧ (s.dirAt 0x90).st = .I ∧ warpLine s 0 0x90 = some warp90 ∧ dirRoom s 0 0x90 = (s, true) ∧ mergesHeld s 0 < 16
      ∧ throughShared s 0 (0x90 * 256) = false ∧ undoBlocks s 0 0x90 = false
      ∧ atomOp 64 0 (lineBytes warp90.bytes 248 8) 1 0 = some 1 := by decide +kernel

def snoop5 : Snoop := { agent := 5, line := 0x90, req := 3 }

/-- Cache 5 with this line 0x90 and these messages on their way. -/
def cached5 (l : CLine) (net : List Msg) : State := { withMemory.setL2 5 0x90 l with net := net }

/-- The line in this state with these dirty sectors. -/
def in5 (st : Moesi) (dirty : BitVec 4) : CLine := { whole 99 with st := st, dirty := dirty, l1d := 1, l1i := 2 }

def evicted : EvEnt := { line := 0x90, st := .M, valid := 15, dirty := 3, poison := 0, bytes := 7 }

theorem test_witness_SnoopsAnswered :
    (49 ≤ ({ snoop5 with agent := 49 } : Snoop).agent ∧ withMemory.flies (.snp .S snoop5) = false ∧ homeOfLine withMemory 0x90 ≠ none)
    ∧ (let s := cached5 { in5 .M 3 with held := true } [.snp .S snoop5]
       snoop5.agent < 48 ∧ s.flies (.snp .S snoop5) = true ∧ (s.l2At 5 0x90).held = true)
    ∧ (∀ l ∈ [CLine.none, in5 .S 0, in5 .M 3, in5 .M 0, in5 .O 3, in5 .E 0], ∀ k ∈ [SnpKind.S, .C, .O, .I, .IZ, .L1I],
       let s := cached5 l [.snp k snoop5]
       s.flies (.snp k snoop5) = true ∧ (s.l2At 5 0x90).held = false ∧ fillPending s 5 0x90 = false
         ∧ (∀ c ∈ s.cordsOf 5, (s.cord c).knot = none ∧ (s.cord c).resv = none ∧ mput s.cords c (s.cord c) Core.zero = s.cords)
         ∧ l2Off s 5 (s.l2At 5 0x90).share = false ∧ wayLocked s 5 (s.l2At 5 0x90).way = false ∧ mget? s.txns 0x90 = none ∧ evFind s 5 0x90 = none
         ∧ (s.l2At 5 0x90).st = l.st ∧ (s.l2At 5 0x90).dirty = l.dirty)
    ∧ evFind { withMemory with ev := [(82, evicted)] } 5 0x90 = some (2, evicted) := by decide +kernel

/-- A record of what cache 5 is owed for line 0x90. -/
def owed5 (k : ReqKind) : Owed := { agent := 5, who := 5, line := 0x90, kind := k, cmp := none, copy := none }

theorem test_witness_GrantsAndData :
    let cmp (a : Nat) (st : Moesi) : Msg := .cmp a 0x90 st .good
    (withMemory.flies (cmp 5 .M) = false ∧ homeOfLine withMemory 0x90 ≠ none)
    ∧ (∀ a ∈ [5, 48], ∀ st ∈ [Moesi.M, .I], ∀ o ∈ [[], [owed5 .rdOnce], [owed5 .rdS]], let s := { withMemory with net := [cmp a st], owed := o }
       s.flies (cmp a st) = true)
    ∧ ((owed5 .rdOnce).kind.allocs = false ∧ (owed5 .rdOnce).kind.noted = true ∧ (owed5 .rdOnce).kind.answers = true
      ∧ (owed5 .rdS).kind.allocs = true ∧ CmpEnd.hole.refuses = true)
    ∧ (let data (a : Nat) : Msg := .data a 0x90 5 4 1 77
       let s := ({ withMemory with net := [data 5, data 48, data 50] }).putFlag CHS_CFG.DCEN true
       (∀ x ∈ s.net, ∀ v d p b, x = .data 5 0x90 v d p b → x = data 5) ∧ (∀ a ∈ [5, 48, 50], s.flies (data a) = true) ∧ (s.l2At 5 0x90).st = .I ∧ s.flag CHS_CFG.DCEN = true
         ∧ freeWay s 5 (placeIn s 5 0x90) (s.tenantOf (s.cordOf 5 (placeIn s 5 0x90))) 0x90 ≠ none ∧ dcWays s (lineOwner s 0x90) ≠ [])
    ∧ fillPending withMemory 5 0x90 = false
    ∧ (let s := { withMemory.setL2 5 0x90 (in5 .S 0) with net := [cmp 5 .M] }
       fillPending s 5 0x90 = true ∧ (s.l2At 5 0x90).held = false)
    ∧ (let s := { withMemory.setL2 5 0x90 { in5 .M 3 with held := true } with snoops := [(.I, snoop5), (.S, { snoop5 with agent := 6 })] }
       (s.l2At 5 0x90).held = true ∧ s.snoops = (.I, snoop5) :: [(.S, { snoop5 with agent := 6 })]
         ∧ (∀ e ∈ [(SnpKind.S, ({ snoop5 with agent := 6 } : Snoop))], ¬ (e.2.agent = 5 ∧ e.2.line = 0x90)))
    ∧ (let s := withMemory.setL2 5 0x90 { in5 .M 3 with held := true }
       (s.l2At 5 0x90).held = true ∧ s.snoops = [] ∧ s.txns = []) := by
  refine ⟨by decide +kernel, by decide +kernel, by decide, ⟨?_, by decide +kernel⟩, by decide +kernel⟩
  intro x h v d p b e
  subst e
  simpa [State.putFlag, State.put, State.wr] using h

theorem test_witness_WritebacksAndAnswers :
    (let s := { withMemory with ev := [(82, evicted)], evPend := [82] }
     mget? s.ev (5 * 16 + 2) = some evicted ∧ 82 ∈ s.evPend)
    ∧ (let s := { withMemory with ev := [(82, evicted)], net := [.wbD 5 2 0x90, .wbC 5 2 0x90, .wbAck 5 2] }
       mget? s.ev 82 = some evicted ∧ 82 ∉ s.evPend ∧ s.flies (.wbD 5 2 0x90) = true ∧ s.flies (.wbC 5 2 0x90) = true ∧ s.flies (.wbAck 5 2) = true
         ∧ homeOfLine s 0x90 = some 0 ∧ snoopOut s 5 0x90 = false ∧ evicted.dirty ≠ 0)
    ∧ (let s := { withMemory with ev := [(82, evicted)], net := [.wbD 5 2 0x90], txns := [(0x90, open3)] }
       snoopOut s 5 0x90 = true ∧ 82 ∉ s.evPend)
    ∧ (let s := { withMemory with net := [.rspI 5 0x90, .rspS 5 0x90, .rspFwd 5 0x90 3, .rspEvicting 5 0x90 2 3], txns := [(0x90, open3)] }
       mget? s.txns 0x90 = some open3 ∧ 5 ∈ open3.waits ∧ open3.waits.erase 5 ≠ [] ∧ homeOfLine s 0x90 = some 0
         ∧ s.flies (.rspI 5 0x90) = true ∧ s.flies (.rspS 5 0x90) = true ∧ s.flies (.rspFwd 5 0x90 3) = true
         ∧ s.flies (.rspEvicting 5 0x90 2 3) = true)
    ∧ (withMemory.flies (.rspI 63 0x90) = false ∧ withMemory.flies (.rspS 63 0x90) = false ∧ 63 < 64) := by decide +kernel

/-- A home whose lowest region is SHARED, in an ACTIVE bolt, with an undo ring of this size. -/
def sharing (size : Nat) : State :=
  ((((((withMemory.put SPL_STAT.STATE 1).putFlag (MEM_RGN_LO.EN 0 0) true).putFlag (MEM_RGN_LO.SHARED 0 0) true).put (MEM_RGN_HI.LIMIT 0 0) 0xFFFF).putFlag
    SPL_CKPT.EN true).put SPL_CKPT.BASE 0x1000).put SPL_CKPT.SIZE size

theorem test_witness_CacheMaintenance :
    47 < 48
    ∧ (let s := ((withMemory.setL2 5 0x90 (in5 .M 3)).setL2 6 0x91 (in5 .M 3)).put (CRD_RNGBASE.BASE 5) 0x90
       let v (op : Nat) : Word := BitVec.ofNat 64 (2 ^ 63 + op * 2 ^ 24 + 2)
       (s.putFlag (CRD_RNGCTL.BUSY 5) true).flag (CRD_RNGCTL.BUSY 5) = true ∧ s.flag (CRD_RNGCTL.BUSY 5) = false
         ∧ (∀ op ∈ [1, 2], (v op).getLsbD 63 = true ∧ bits (v op).toNat 24 2 = op ∧ bits (v op).toNat 0 24 = 2)
         ∧ (∀ e ∈ s.l2, ¬ (e.1 / 2 ^ 44 = 7 ∧ 0x90 ≤ e.1 % 2 ^ 44 ∧ e.1 % 2 ^ 44 < 0x92)))
    ∧ (let s := withMemory.setL2 5 0x90 (in5 .M 3)
       (s.l2At 5 0x90).dirty ≠ 0 ∧ homeOfLine s 0x90 = some 0 ∧ throughShared s 0 (0x90 * 256) = false)
    ∧ (∀ b ∈ [true, false], let s := { sharing (if b then 0 else 64) with l2 := (withMemory.setL2 5 0x90 (in5 .M 3)).l2 }
       (s.l2At 5 0x90).dirty ≠ 0 ∧ homeOfLine s 0x90 = some 0 ∧ throughShared s 0 (0x90 * 256) = true ∧ undoBlocks s 0 0x90 = b) := by decide +kernel

/-! ### Memory controllers -/

theorem test_witness_MemoryKeyCommands :
    (withMemory.putFlag MEM_KEYCMD.BUSY true).flag MEM_KEYCMD.BUSY = true ∧ withMemory.flag MEM_KEYCMD.BUSY = false
    ∧ (∀ op ∈ [0, 1, 2, 3], bits (BitVec.ofNat 64 (op * 1024 + 1023)).toNat 10 2 = op) := by decide +kernel

/-- A merge entry of a whole sector, and memory to fill. -/
theorem test_witness_MarksAndMergeEntries :
    let e : MergeEnt := { sector := 4, tenant := 0, mask := 0xFFFFFFFFFFFFFFFF, bytes := 7, poison := false, opened := 0 }
    let s := { withMemory with ctls := [(0, { merge := [e], unfilled := [], marked := [], parts := [] })] }
    (31 < 32 ∧ 7 < 8 ∧ 32 ≤ 32 ∧ 8 ≤ 8) ∧ mergeEntry s 0 5 = none ∧ mergeEntry s 0 4 = some e ∧ sectorFound s 0 4 = .clean
      ∧ s.flag (MEM_FLIPC.ARM 0) = false ∧ mget s.mem.keyVer 4 0 = keyVersion s 0 4 := by decide +kernel

/-- Fill under way, its first controller with this region SHARED, its token elsewhere. -/
def filling (shared : Bool) : State :=
  let s := { withMemory with boot := { withMemory.boot with stage := .fill } }
  if shared then ((s.putFlag (MEM_RGN_LO.EN 0 63) true).putFlag (MEM_RGN_LO.SHARED 0 63) true).put (MEM_RGN_LO.TOKEN 0 63) 5 else s

theorem test_witness_FillMemory :
    withMemory.boot.stage ≠ .fill
    ∧ (let s := filling false
       s.boot.stage = .fill ∧ s.flag (MEM_FILLSTAT.DONE 31) = false ∧ s.flag (MEM_FILLSTAT.UNUSED 31) = false
         ∧ (∀ r, r < 64 → sharedRegion s 31 r = false) ∧ memHome s 0 = some 0 ∧ memHome s 0xFF0000000000 ≠ some 0)
    ∧ (let s := filling true
       regionsWaiting s 0 ≠ [] ∧ 62 ∉ regionsWaiting s 0 ∧ 63 ∈ regionsWaiting s 0 ∧ s.boot.stage = .fill) := by decide +kernel

/-! ### The channel subsystem -/

/-- VI 3 enabled over an identity page table, subchannel 7 bound to port 0, its link up, four Shuttles running. -/
def channels : State :=
  let s := (((withMemory.put (CHS_SHUT.STATE 0) shutst.RUNNING).put (CHS_SHUT.STATE 1) shutst.RUNNING).put (CHS_SHUT.STATE 2) shutst.RUNNING).put
    (CHS_SHUT.STATE 3) shutst.RUNNING
  let s := s.put (CHP_STAT.LINK 0) lnk.UP
  let s := (((s.putFlag (CHS_VI_CFG.EN 3) true).put (CHS_VI_CFG.QUOTA 3) 8).put (CHS_VI_RING.BASE 3) 16).put (CHS_VI_S2.ROOT 3) 16
  let s := { s with mem := (s.mem.write 0x10000 0x11003 8).write 0x11000 0xCD 8 }
  { s with chs := { s.chs with scbs := [(7, { Scb.reset with state := 1, vi := 3, port := 0, blk := 9, opMax := 4, opened := 1 })] } }

/-- An operation of subchannel 7, accepted. -/
def op7 : JRec :=
  { state := .accepted, vi := 3, orb := 0x4000, subch := 7, seq := 1, prio := 2, tag := 9, notify := false, ncord := 0, order := false, xform := false
    xjob := 0, tmo := 5, opened := 0, age := 0, comp := 1, door := none, first := 0x5000, ccw := 0x5000, ccwCount := 0, ccwno := 0
    afterJump := false, cmd := 0, md := 0, run := [], more := false, spans := [], got := 0, skip := 0, lba := 100, dev := .none, mark := 0
    goal := none, cmds := 0, stale := false, sense := [], past := [], xdone := false, endCcw := 0, resid := 0, moved := 0, status := 0, lenx := false, dstat := 0, faddr := 0, slot := none
    phase := false, half := false, wrote := false, mirrored := false, epoch := 0, shut := none }

def withOp (s : State) (j : JRec) : State := { s with chs := { s.chs with cells := [(0, j)] } }
def poke (s : State) (a v n : Nat) : State := { s with mem := s.mem.write a v n }

/-- A line poisoned in the warp cache. -/
def bad (s : State) (line : Nat) : State := { s with warp := [(line, { bytes := 0, dirty := 15, poison := 15, tenant := 0, way := 0 })] }

/-- An ORB of subchannel x. -/
def orbAt (s : State) (x : Nat) : State := poke s 0x4000 (x + 2 * 2 ^ 16 + 9 * 2 ^ 32 + 0x500 * 2 ^ 68) 64

/-- A doorbell at slot 63 of VI 3 for the ORB at a. -/
def rung (s : State) (a : Nat) : State := setDoor s 3 63 (some a)

/-- The read answers an ORB that is good, with two free cells for it, or one that is not. -/
def answersOrb (r : State × Desc) (good : Bool) : Bool :=
  match r.2 with
  | .ok x => ((orbReason r.1 3 (orbOf x) == 0) == good) && (freeCells (usedCells r.1) 0 ((usedCells r.1).length + 2) 2 == [0, 1])
      && (r.1.get SPL_STAT.STATE != 1) && r.1.wants.isEmpty
  | _ => false

theorem test_witness_DoorbellsAndAcceptance :
    (64 ≤ 64 ∧ pageOpen (channels.putFlag (CHS_VI_CFG.EN 3) false) 3 { level := .S, tenant := 0 } = false
      ∧ pageOpen channels 3 { level := .S, tenant := 0 } = true
      ∧ (channels.put (VI_STAT.STATE 3 63) 1).get (VI_STAT.STATE 3 63) = 1 ∧ channels.get (VI_STAT.STATE 3 63) ≠ 1)
    ∧ (∀ a ∈ [0x4000, 0x4001, 2 ^ 52, 2 ^ 51], mget? (rung channels a).chs.doorbells (3 * 64 + 63) = some a)
    ∧ (rung channels 0).stopped = false ∧ ((rung channels 0).putFlag (CHS_VI_CFG.SUSPEND 3) true).flag (CHS_VI_CFG.SUSPEND 3) = true
    ∧ (rung channels 0).flag (CHS_VI_CFG.SUSPEND 3) = false ∧ (rung channels 0).spl.refusing = false
    ∧ (let r := descRead (setDoor channels 3 63 none) acceptorSrc 3 (2 ^ 51) 64
       r.2 = .fault ∧ r.1.wants = [])
    ∧ (let r := descRead (bad channels 0x40) acceptorSrc 3 0x4000 64
       r.2 = .poison ∧ r.1.wants = [])
    ∧ answersOrb (descRead (setDoor (orbAt channels 7) 3 63 none) acceptorSrc 3 0x4000 64) true = true
    ∧ answersOrb (descRead (setDoor (orbAt channels 8) 3 63 none) acceptorSrc 3 0x4000 64) false = true
    ∧ mget? channels.chs.doorbells (3 * 64 + 63) = none
    ∧ (let s := withOp channels { op7 with mirrored := true, door := some 63 }
       let mine (e : Nat × JRec) : Bool := e.2.vi == 3 && e.2.door == some 63 && e.2.mirrored
       s.chs.cells.find? mine = some (0, { op7 with mirrored := true, door := some 63 }) ∧ channels.chs.cells.find? mine = none) := by decide +kernel

/-- The orders of R208, on a good ORB. -/
theorem test_witness_DoorbellsAndAcceptance_orb :
    let o : Orb := orbOf (7 + 2 * 2 ^ 16 + 9 * 2 ^ 32 + 0x500 * 2 ^ 68)
    let b := channels.scb 7
    (o.rz = false ∧ b.state ≠ 0 ∧ b.vi = 3 ∧ o.ncord < channels.cordCount ∧ (o.xform = (o.xjob != 0)) ∧ o.subch = 7)
    ∧ (channels.setScb 7 { b with state := 2 }).scb 7 = { b with state := 2 } ∧ (channels.setScb 7 { b with state := 3 }).scb 7 = { b with state := 3 }
    ∧ (let s := channels.put (CHS_VI_CFG.QUEUED 3) 8
       s.get (CHS_VI_CFG.QUOTA 3) ≤ s.get (CHS_VI_CFG.QUEUED 3))
    ∧ ¬ channels.get (CHS_VI_CFG.QUOTA 3) ≤ channels.get (CHS_VI_CFG.QUEUED 3) ∧ b.opened < b.opMax
    ∧ ((channels.setScb 7 { b with opened := 4 }).scb 7).opMax ≤ ((channels.setScb 7 { b with opened := 4 }).scb 7).opened := by decide +kernel

/-- BIND asks for this kind of device at this port. -/
def binds (kind port : Nat) (link : Bool) : State :=
  let s := channels.setScb 7 Scb.reset
  let s := ((s.put CHS_SCDATA0.KIND kind).put CHS_SCDATA0.PORT port).put CHS_SCDATA1.TARGET 5
  let s := if link then s else s.put (CHP_STAT.LINK 0) lnk.DOWN
  { s.putFlag (CHP_CFG.MODE 1) true with ports := [(1, { Port.zero with sessions := [(5, 2)] })] }

theorem test_witness_SubchannelCommands :
    ((channels.putFlag CHS_SCCMD.BUSY true).flag CHS_SCCMD.BUSY = true ∧ channels.flag CHS_SCCMD.BUSY = false)
    ∧ (∀ n ∈ [1, 2, 3, 4, 5], bits (BitVec.ofNat 64 (n * 65536 + 7)).toNat 16 3 = n ∧ bits (BitVec.ofNat 64 (n * 65536 + 7)).toNat 0 16 = 7)
    ∧ (let b := channels.scb 7
       b.state = 1 ∧ b.opened ≠ 0 ∧ ({ b with opened := 0 } : Scb).opened = 0 ∧ (channels.scb 8).state = 0
         ∧ ((channels.setScb 7 { b with state := 2 }).scb 7).state = 2 ∧ ((withOp channels op7).chs.cells.map Prod.fst).Nodup)
    ∧ (let p : BindProbe := { answers := true, active := true, formatOk := true, blkLog2 := 12, mdts := 5 }
       p.answers = true ∧ p.active = true ∧ p.formatOk = true ∧ 9 ≤ p.blkLog2 ∧ p.blkLog2 ≤ 12)
    ∧ (∀ k ∈ [0, 1], let s := binds k 0 true
       (s.scb 7).state = 0 ∧ s.get CHS_SCDATA0.KIND = k ∧ s.flag (CHP_CFG.MODE (s.get CHS_SCDATA0.PORT)) = false ∧ linkUp s 0 = true)
    ∧ linkUp (binds 1 0 false) 0 = false
    ∧ (let s := binds 2 1 true
       (s.scb 7).state = 0 ∧ s.get CHS_SCDATA0.KIND = 2 ∧ s.flag (CHP_CFG.MODE (s.get CHS_SCDATA0.PORT)) = true
         ∧ mget (s.port 1).sessions (s.get CHS_SCDATA1.TARGET % 2 ^ 16) 0 = 2)
    ∧ (let s := binds 2 0 true
       ¬ (s.get CHS_SCDATA0.KIND = 2 ↔ s.flag (CHP_CFG.MODE (s.get CHS_SCDATA0.PORT)) = true)) := by decide +kernel

theorem test_witness_ShuttlesTakeOperations :
    (nextOp (channels.shut 3).lastVi (dispatchable channels 3) = none)
    ∧ (let s := withOp channels op7
       let n := 3
       (s.shut n).saved = false ∧ nextOp (s.shut n).lastVi (dispatchable s n) = some 0 ∧ s.op? 0 = some op7
         ∧ serverOf s (opPort s op7 / 4) op7.subch ≠ none ∧ s.flag (CHP_CTL.DISABLE (opPort s op7)) = false
         ∧ s.domOn (dom.quad (opPort s op7 / 4)) = true ∧ s.domOn (dom.cluster n) = true ∧ 0 ∉ s.chs.poisonCells ∧ op7.xform = false)
    ∧ (let s := (withOp channels op7).putFlag (CHP_CTL.DISABLE 0) true
       nextOp (s.shut 3).lastVi (dispatchable s 3) = some 0 ∧ s.flag (CHP_CTL.DISABLE (opPort s op7)) = true)
    ∧ (let s := (withOp channels op7).put (PWR_DOM.CUR (dom.quad 0)) 3
       nextOp (s.shut 3).lastVi (dispatchable s 3) = some 0 ∧ s.domOn (dom.quad 0) = false ∧ serverOf s 0 op7.subch ≠ none)
    ∧ (let s := { channels with time := { channels.time with now := 62 * 200 + 190 } }.put LOOM_PICK.BEAT 62
       s.get (CHS_SHUT.STATE 3) = shutst.RUNNING ∧ s.closedWeave = true ∧ 190 ≤ s.since % 200 ∧ lastOfRun s (32 + s.get (CHS_SHUT.QUAD 3)) = true) := by
  decide +kernel

/-- The Shuttles of no quad serve the port: the operation's path is lost. -/
theorem test_witness_ShuttlesTakeOperations_lost :
    ∃ n, n < 32 ∧ (let s := withOp ([0, 1, 2, 3].foldl (fun (s : State) k => s.put (CHS_SHUT.STATE k) 0) channels) op7
      nextOp (s.shut n).lastVi (dispatchable s n) = some 0 ∧ serverOf s 0 op7.subch = none) := ⟨0, by decide +kernel⟩

/-- A Shuttle at work on an operation whose CCW is this. -/
def program (c : Nat) (j : JRec) : State := withOp (poke channels 0x5000 c 16) { j with state := .active, shut := some 3 }

theorem test_witness_ChannelProgramSteps :
    channels.op? 0 = none
    ∧ (let s := withOp channels op7
       s.op? 0 = some op7 ∧ opCanRun s 0 op7 = false)
    ∧ (∀ c ∈ [0x1E, 0x1F + 0x6000 * 2 ^ 64], let j := { op7 with state := .active, shut := some 3 }
       let s := program c op7
       s.op? 0 = some j ∧ opCanRun s 0 j = true
         ∧ (ccwAt s (57 + opPort s j / 4 / 3) j.vi j.ccw j.ccwCount).1.wants = []
         ∧ (match (ccwAt s (57 + opPort s j / 4 / 3) j.vi j.ccw j.ccwCount).2 with | .ok _ => true | _ => false) = true)
    ∧ (match (ccwAt (program 0x99 op7) 57 3 0x5000 0).2 with | .bad 0x5000 _ => true | _ => false) = true
    ∧ (match (ccwAt (bad (program 0x1E op7) 0x50) 57 3 0x5000 0).2 with | .poison 0x5000 _ => true | _ => false) = true := by
  decide +kernel

theorem test_witness_ChannelCommands :
    (let s := channels
     let down := channels.put (CHP_STAT.LINK 0) lnk.DOWN
     ∀ cmd ∈ [0x10, 0x11], let j := { op7 with cmd := cmd }
       (s.scb j.subch).kind = 0 ∧ 1024 % 2 ^ (s.scb j.subch).blk = 0 ∧ 1000 % 2 ^ (s.scb j.subch).blk ≠ 0 ∧ linkUp s (opPort s j) = true
         ∧ linkUp down (opPort down j) = false)
    ∧ (∀ md ∈ [2, 1, 7], ({ op7 with cmd := 0x12, md := md } : JRec).cmd = 0x12)
    ∧ ({ channels.scb 7 with kind := 1 } : Scb).kind ≠ 0
    ∧ (match (ctlData channels 57 { op7 with cmd := 0x12, md := 1, spans := [{ pa := 0x7000, tpa := 0x7000, len := 8 }] } 8).2 with
       | .ok _ => true
       | _ => false) = true := by decide +kernel

/-- An operation in this state at its device. -/
def at7 (st : JState) (d : DevState) : JRec := { op7 with state := st, dev := d }

theorem test_witness_DeviceAnswers :
    channels.op? 0 = none
    ∧ (∀ j ∈ [at7 .accepted .none, at7 .active .sent, { at7 .active .aborting with goal := some cst.TIMEOUT }, { at7 .active .sent with status := 5, cmd := 0x12 }],
       (withOp channels j).op? 0 = some j ∧ weftMode (withOp channels j) (opPort (withOp channels j) j) = false)
    ∧ (at7 .active .sent).goal = none ∧ (⟨0, 512, 5, 6, false⟩ : NvmeEnd).abort = false ∧ (⟨0, 0, 0, 0, true⟩ : NvmeEnd).abort = true
    ∧ (let late (j : JRec) : State := let s := withOp channels j
        { s with time := { s.time with now := 500000 } }
       1 < ({ at7 .active .sent with cmds := 2 } : JRec).cmds ∧ ∀ d ∈ [DevState.none, .sent, .aborting], let s := late (at7 .active d)
         s.stopped = false ∧ (at7 .active d).opened + (at7 .active d).tmo * 100000 ≤ s.time.now ∧ s.time.now < (at7 .active d).mark + 10000000)
    ∧ (let s := withOp channels (at7 .active .aborting)
       let s := { s with time := { s.time with now := 10000000 } }
       s.stopped = false ∧ (at7 .active .aborting).mark + 10000000 ≤ s.time.now) := by decide +kernel

theorem test_witness_CompletionRing :
    (let j := at7 .ending .none
     let s := withOp channels j
     s.op? 0 = some j ∧ s.stopped = false ∧ xformBusy s 0 = false ∧ s.replays (s.viTenant j.vi) = false ∧ 0 ∉ s.chs.poisonCells
       ∧ j.comp ∉ s.chs.poisonCells ∧ s.recording = false)
    ∧ (channels.putFlag (CHS_VI_CFG.RINGFAULT 3) true).flag (CHS_VI_CFG.RINGFAULT 3) = true
    ∧ (let j := at7 .posted .none
       let s := { withOp channels j with chs := { (withOp channels j).chs with posted := [(3, [0])] } }
       let full := s.put (VI_CQTAIL.TAIL 3) 1
       let last := (s.put (VI_CQHEAD.HEAD 3) 63).put (VI_CQTAIL.TAIL 3) 5
       (∀ u ∈ [s, full, last], u.stopped = false ∧ u.flag (CHS_VI_CFG.RINGFAULT 3) = false ∧ u.postedOf 3 = [0] ∧ u.op? 0 = some j
          ∧ u.get (CHS_VI_RING.SIZE 3) ≤ 10)
       ∧ j.wrote = false ∧ j.slot = none ∧ (s.get (VI_CQHEAD.HEAD 3) + 1) % 64 ≠ s.get (VI_CQTAIL.TAIL 3)
       ∧ (full.get (VI_CQHEAD.HEAD 3) + 1) % 64 = full.get (VI_CQTAIL.TAIL 3))
    ∧ (∀ n ∈ [true, false], let j := { at7 .posted .none with wrote := true, notify := n }
       let s := withOp channels j
       s.op? 0 = some j ∧ s.stopped = false ∧ j.door = none ∧ s.get SPL_STAT.STATE ≠ 1 ∧ s.flag (CHP_CTL.DISABLE (s.scb j.subch).port) = false)
    ∧ pageOpen channels 3 { level := .S, tenant := 0 } = true
    ∧ (∀ e ∈ [CmpEnd.failed, .hole], let o : Owed := { agent := 57, who := opWho 0, line := 0x90, kind := .wrPart 1 7 0, cmp := some e, copy := none }
       let s := { withOp channels (at7 .ending .none) with owed := [o] }
       s.owed = [o] ∧ o.who = opWho 0 ∧ o.cmp = some e ∧ e ≠ .good ∧ awaited s (opWho 0) = false ∧ awaited s (ringWho 0) = false
         ∧ awaited { s with owed := [{ o with cmp := none }] } (opWho 0) = true) := by decide +kernel

/-- A write of CHS_VI_CFG: EN, SUSPEND, CANCEL, the clear of RINGFAULT. -/
theorem test_witness_ChannelSetUp :
    (let busy := channels.put (CHS_VI_CFG.QUEUED 3) 2
     busy.flag (CHS_VI_CFG.EN 3) = true ∧ (0#64).getLsbD 0 = false ∧ busy.get (CHS_VI_CFG.QUEUED 3) ≠ 0)
    ∧ (let s := channels.putFlag (CHS_VI_CFG.EN 3) false
       s.flag (CHS_VI_CFG.EN 3) = false ∧ s.flag (CHS_VI_CFG.RINGFAULT 3) = false ∧ (1#64).getLsbD 0 = true ∧ (1#64).getLsbD 2 = false)
    ∧ channels.get (CHS_VI_CFG.QUEUED 3) = 0
    ∧ (let s := { channels with chs := { channels.chs with cells := [(0, op7), (2, { op7 with vi := 4 }), (4, at7 .active .none)] } }
       (s.chs.cells.map Prod.fst).Nodup ∧ s.flag (CHS_VI_CFG.EN 3) = true ∧ s.flag (CHS_VI_CFG.RINGFAULT 3) = false
         ∧ (7#64).getLsbD 0 = true ∧ (7#64).getLsbD 1 = true ∧ (7#64).getLsbD 2 = true)
    ∧ (let s := channels.putFlag (CHS_VI_CFG.RINGFAULT 3) true
       s.flag (CHS_VI_CFG.EN 3) = true ∧ s.flag (CHS_VI_CFG.RINGFAULT 3) = true ∧ (0x4001#64).getLsbD 0 = true ∧ (0x4001#64).getLsbD 2 = false
         ∧ (0x4001#64).getLsbD 14 = true)
    ∧ (channels.putFlag CHS_DCINV.BUSY true).flag CHS_DCINV.BUSY = true ∧ channels.flag CHS_DCINV.BUSY = false
    ∧ (let s := { channels.putFlag CHS_CFG.DCEN true with dir := [(0x90, { st := .O, owner := 3, sharers := [5, 48], stamp := none, used := 0 })] }
       s.flag CHS_CFG.DCEN = true ∧ (hostWrite s CHS_CFG.off 0).flag CHS_CFG.DCEN = false ∧ 48 ∈ (s.dirAt 0x90).holders
         ∧ ∀ e ∈ s.dir, e.2.st = .O → e.2.owner = 48 → 48 ∉ e.2.sharers) := by decide +kernel

/-- Shuttle 0 with this run state and these restarts in the last 60 s. -/
def shuttle0 (run : Run) (l : List Nat) : State :=
  { channels with chs := { channels.chs with shuts := [(0, { channels.shut 0 with core := { Core.zero with run := run }, restarts := l })] }
                  time := { channels.time with now := 100 } }

theorem test_witness_ShuttleRestarts :
    (∀ l ∈ [[], [5, 6], [5, 6, 7]], let s := shuttle0 .halted l
     s.get (CHS_SHUT.STATE 0) = shutst.RUNNING ∧ (s.shut 0).core.run = .halted
       ∧ (s.shut 0).restarts.filter (fun t => s.time.now < t + 6000000000) = l ∧ (∀ i, i < 4 → heldBy s (4 * (0 / 4) + i) = []))
    ∧ (shuttle0 .running []).shut 0 ≠ (shuttle0 .halted []).shut 0
    ∧ (∀ st ∈ [shutst.OFF, shutst.FAILED], ((shuttle0 .halted []).put (CHS_SHUT.STATE 0) st).get (CHS_SHUT.STATE 0) = st)
    ∧ (let s := (shuttle0 .halted []).put (CHS_SHUT.STATE 0) shutst.RESTARTING
       s.get (CHS_SHUT.STATE 0) = shutst.RESTARTING ∧ dom.cluster 0 ∉ s.fcu.held ∧ heldBy s 0 = []) := by decide +kernel

/-! ### Channel ports -/

/-- Port 0 in Weft mode, its link in this state, subchannel 7 its device. -/
def weft (l : Nat) : State := ((channels.putFlag (CHP_CFG.MODE 0) true).setScb 7 { channels.scb 7 with kind := 2, target := 5 }).put (CHP_STAT.LINK 0) l
def later (s : State) (n : Nat) : State := { s with time := { s.time with now := n } }
def idle7 (s : State) : State := s.setScb 7 { s.scb 7 with opened := 0 }

theorem test_witness_PortService :
    (∀ w ∈ [0, 1, 3, 4], ∀ s ∈ [channels, channels.putFlag (CHP_CTL.DISABLE 0) true], taken s (CHP_CTL.off 0) (BitVec.ofNat 64 w) = w
       ∧ s.get (CHP_STAT.LINK 0) ≠ lnk.DOWN)
    ∧ (∃ x ∈ subsOf channels 0, (channels.scb x).opened ≠ 0)
    ∧ (∀ s ∈ [idle7 channels, idle7 (weft lnk.UP)], (¬ ∃ x ∈ subsOf s 0, (s.scb x).opened ≠ 0)
       ∧ s.get (CHP_STAT.LINK 0) ≠ lnk.DOWN ∧ (hostWrite s (CHP_CTL.off 0) 1).flag (CHP_CTL.DISABLE 0) = true)
    ∧ (weft lnk.UP).flag (CHP_CFG.MODE 0) = true ∧ channels.flag (CHP_CTL.DISABLE 0) = false
    ∧ (channels.putFlag (CHP_CTL.DISABLE 0) true).flag (CHP_CTL.DISABLE 0) = true
    ∧ (hostWrite (channels.putFlag (PWR_DOM.PADLATCH (dom.quad 0)) true) (CHP_CTL.off 0) 0).flag (PWR_DOM.PADLATCH (dom.quad 0)) = true
    ∧ (hostWrite channels (CHP_CTL.off 0) 0).flag (PWR_DOM.PADLATCH (dom.quad 0)) = false
    ∧ (hostWrite channels (CHP_CTL.off 0) 0).domOn (dom.quad 0) = true := by decide +kernel

/-- A flit that waits for its acknowledgement. -/
def owing (n at_ : Nat) : SentFlit := { fseq := n, at_ := at_, kind := 1, body := [] }

/-- Flits 5 to 7 wait for their acknowledgement. -/
def replaying (s : State) (n : Nat) : State := s.modPort 0 (fun x => { x with replay := [owing 5 0, owing 6 100, owing 7 200], replays := n })

theorem test_witness_WeftLink :
    (∀ l ∈ [lnk.TRAINING, lnk.RETRAIN, lnk.UP], (weft l).flag (CHP_CFG.MODE 0) = true ∧ (weft l).get (CHP_STAT.LINK 0) = l
       ∧ ((weft l).port 0).released = false ∧ ((weft l).port 0).initAcked = false ∧ ((weft l).port 0).replay.length < 512)
    ∧ channels.flag (CHP_CFG.MODE 0) = false ∧ 512 ≤ (List.replicate 512 (owing 5 0)).length
    ∧ (let m : InitMsg := { version := 1, credits := 34, fseq := 6, kind := 0, mid := 0, ident := 0 }
       let s := replaying (weft lnk.RETRAIN) 0
       m.version = 1 ∧ 34 ≤ m.credits ∧ (s.port 0).replay = [owing 5 0] ++ owing 6 100 :: [owing 7 200] ∧ (owing 6 100).fseq = m.fseq
         ∧ (∀ x ∈ [owing 5 0], x.fseq ≠ m.fseq) ∧ (∀ e ∈ ((weft lnk.RETRAIN).port 0).replay, e.fseq ≠ m.fseq)
         ∧ ({ m with version := 2 } : InitMsg).version ≠ 1 ∧ ¬ 34 ≤ ({ m with credits := 33 } : InitMsg).credits)
    ∧ (let s := (((weft lnk.TRAINING).setScb 7 { channels.scb 7 with state := 0 }).modPort 0 (fun x => { x with initAcked := true }))
       (s.port 0).initAcked = true ∧ (s.port 0).tx = [] ∧ subsOf s 0 = [])
    ∧ (∀ n ∈ [0, 3], let s := replaying (weft lnk.UP) n
       (s.port 0).replay = owing 5 0 :: [owing 6 100, owing 7 200] ∧ s.get (CHP_STAT.LINK 0) = lnk.UP ∧ s.time.now < 0 + 200
         ∧ 0 + 200 ≤ (later s 200).time.now ∧ (s.port 0).replays = n)
    ∧ (let s := (weft lnk.RETRAIN).modPort 0 (fun x => { x with leftUp := some 0 })
       s.get (CHP_STAT.LINK 0) ≠ lnk.UP ∧ (s.port 0).leftUp = some 0 ∧ 0 + s.get (CHP_CFG.HOLDMS 0) * 100000 ≤ (later s (2 ^ 40)).time.now) := by
  decide +kernel

/-- A flit whose payload begins with this byte. -/
def flit (kind fseq first : Nat) (ackv : Bool) : Flit :=
  { kind := kind, fseq := fseq, ackSeq := 6, nak := false, ackv := ackv, credit := 3, corrected := 0, crcOk := true
    body := BitVec.ofNat 8 first :: List.replicate 239 0 }

/-- What the port reads from a flit of ours. -/
theorem flit_read (kind fseq first : Nat) (ackv : Bool) (hk : kind < 4) (hs : fseq < 1024) :
    flitOf (flit kind fseq first ackv).bytes = flit kind fseq first ackv ∧ (flit kind fseq first ackv).bytes.length = 256 :=
  have h : (flit kind fseq first ackv).body.length = 240 := congrArg (· + 1) List.length_replicate
  ⟨flitOf_bytes _ hk hs (show 6 < 1024 by decide) (show 3 < 4096 by decide) h, length_flit _ h⟩

/-- A flit of zeros, whose CRC does not hold. -/
theorem test_witness_FlitsInOrder_crc :
    let b : List Byte := List.replicate 250 0
    (b ++ fecBytes b).length = 256 ∧ (flitOf (b ++ fecBytes b)).crcOk = false := by
  refine ⟨length_sealed _ List.length_replicate, ?_⟩
  rw [flitOf, fecDecode_sealed _ List.length_replicate]
  decide +kernel

/-- KIND, FSEQ, first byte of the payload and ACKV of the flits below. -/
def heads : List (Nat × Nat × Nat × Bool) := [1, 5].map (fun n => (1, n % 5 * n, 0, true)) ++ [0, 2, 3].map (fun k => (k, 0, k % 3, false)) ++ [(1, 5, 0, true), (2, 5, 2, false)]

/-- Idle flits, a release, data in order with an ACK, a flit out of order, of KIND 3, and the ports that take them. -/
theorem test_witness_FlitsInOrder :
    (∀ x ∈ heads,
       let f := flit x.1 x.2.1 x.2.2.1 x.2.2.2
       flitOf f.bytes = f ∧ f.bytes.length = 256)
    ∧ (let s := weft lnk.UP
       s.flag (CHP_CFG.MODE 0) = true ∧ s.get (CHP_STAT.LINK 0) = lnk.UP ∧ (s.port 0).rxSeq = 0 ∧ (s.port 0).tx = [] ∧ (s.port 0).nakWait = false
         ∧ (s.port 0).nakDue = false ∧ (s.port 0).ackPending = false ∧ (s.port 0).freed = 0)
    ∧ (let s := (weft lnk.UP).modPort 0 (fun x => { x with nakWait := true })
       (s.port 0).nakWait = true ∧ (s.port 0).nakDue = false ∧ (s.port 0).ackPending = false ∧ (s.port 0).freed = 0 ∧ (s.port 0).rxSeq = 0)
    ∧ (flit 2 0 2 false).body.headD 0 = 2 ∧ (flit 2 5 2 false).body.headD 0 ≠ 1
    ∧ (let s := replaying (weft lnk.UP) 2
       let f := flit 1 0 0 true
       (s.port 0).replay = [owing 5 0] ++ owing 6 100 :: [owing 7 200] ∧ (owing 6 100).fseq = f.ackSeq ∧ f.fseq = (s.port 0).rxSeq
         ∧ (s.port 0).tx = [] ∧ s.get (CHP_STAT.LINK 0) = lnk.UP ∧ (∀ x ∈ [owing 5 0], x.fseq ≠ f.ackSeq)
         ∧ framesIn (((s.port 0).rxPart ++ f.body).length / 16 + 1) ((s.port 0).rxPart ++ f.body) = ([], [])) := by
  have fits : ∀ x ∈ heads, x.1 < 4 ∧ x.2.1 < 1024 := by
    decide
  exact ⟨fun x h => flit_read _ _ _ _ (fits x h).1 (fits x h).2, by decide +kernel⟩

def inSession (st : Nat) : State := (weft lnk.UP).modPort 0 (fun x => { x with sessions := [(5, st)] })

theorem test_witness_Sessions :
    (let s := inSession 1
     s.get (CHP_STAT.LINK 0) = lnk.UP ∧ mget (s.port 0).sessions 5 0 = 1 ∧ s.flag (CHP_CFG.MODE 0) = true
       ∧ (∀ e ∈ s.chs.cells, e.2.subch ∈ sessionSubs s 0 5 → e.2.state ≠ .active ∨ e.2.shut ≠ none))
    ∧ mget ((inSession 2).port 0).sessions 5 0 ≠ 1 ∧ channels.flag (CHP_CFG.MODE 0) = false
    ∧ (∀ d ∈ [0, 1, 2], (BitVec.ofNat 16 d).toNat = d) ∧ 2 < (3 : BitVec 16).toNat := by decide +kernel

/-- A frame for the operation in cell 0. -/
def frame (typ : Nat) : Frame :=
  { typ := typ, smid := 0, ver := 1, session := 5, subch := 7, device := 0, seq := 1, len := 0, poison := false, last := false, count := 0, cmd := 0
    md := 0, ccwno := 0, dstat := 0, rzOk := true, crcOk := true, payload := [] }

def dataFrame : Frame := { frame 6 with len := 8, payload := [1, 2, 3, 4, 5, 6, 7, 8] }

/-- Subchannel 7's operation at its device, data for 512 bytes at 0x7000. -/
def atWeft (d : DevState) : JRec := { at7 .active d with cmd := 0x10, spans := [{ pa := 0x7000, tpa := 0x7000, len := 512 }] }

theorem test_witness_FramesOfOperations :
    (let s := inSession 2
     s.flag (CHP_CFG.MODE 0) = true ∧ s.get (CHP_STAT.LINK 0) = lnk.UP ∧ frameOp s 0 (frame 7) = none)
    ∧ (weft lnk.DOWN).get (CHP_STAT.LINK 0) ≠ lnk.UP ∧ ({ frame 7 with crcOk := false } : Frame).crcOk = false
    ∧ frameGood { frame 7 with rzOk := false } = false
    ∧ frameGood dataFrame = true ∧ (∀ t ∈ [7, 8, 10], frameGood (frame t) = true ∧ ((frame t).subch, (frame t).seq) ∉ ((inSession 2).port 0).aborted)
    ∧ (let s := withOp (inSession 2) (atWeft .sent)
       let j := atWeft .sent
       frameOp s 0 (frame 7) = some (0, j) ∧ atDevice j = true ∧ j.cmd = 0x10 ∧ burstMay s 0 (s.viTenant j.vi) dataFrame.len true = true ∧ inTurn s 0 = true
         ∧ (frame 7).ccwno = j.ccwno ∧ j.status = 0 ∧ j.goal = none)
    ∧ (let j := { atWeft .aborting with goal := some 5 }
       frameOp (withOp (inSession 2) j) 0 (frame 10) = some (0, j) ∧ j.dev = .aborting)
    ∧ (∀ c ∈ [0, 1, 2, 3, 4, 5], (BitVec.ofNat 16 c).toNat % 256 = c) := by decide +kernel

/-- A store that was sent on port 0 as request 1. -/
def sentStore : SbEnt :=
  { line := 0x90, mask := 0xF, bytes := 0, tenant := 0, lvl := .H, attr := .device, pa := 0x9000, size := 4, stores := [(0, 0x9000)], knot := false
    closed := false, sent := true, port := 0, seq := 1 }

theorem test_witness_RegisterResponses :
    (let s := inSession 2
     s.flag (CHP_CFG.MODE 0) = true ∧ s.get (CHP_STAT.LINK 0) = lnk.UP ∧ loadWaiter s 0 1 = none ∧ (7, 1) ∉ (s.port 0).aborted)
    ∧ (let f : Frame := { frame 13 with len := 8, payload := [1, 2, 3, 4, 5, 6, 7, 8] }
       f.crcOk = true ∧ frameGood f = true ∧ f.typ = 13 ∧ f.len = 8)
    ∧ frameGood (frame 13) = true ∧ (frame 13).len = 0 ∧ frameGood (frame 7) = true
    ∧ (let s := (inSession 2).setCord 2 { core0 with run := .waitLoad { port := 0, seq := 1, pa := 5, size := 8, whole := true, pops := 0, home := hm 0, ag := none } }
       loadWaiter s 0 1 = some 2)
    ∧ (let s := (inSession 2).setCord 3 { Core.zero with sbuf := [sentStore] }
       (s.core (.cord 3)).sbuf.filter (fun e => !(e.sent && e.port == 0 && e.seq == 1)) = []) ∧ (inSession 2).loom.claims = [] := by decide +kernel

theorem test_witness_BusyRetries :
    channels.op? 0 = none
    ∧ (let j := { atWeft .none with run := [{ addr := 0x7000, count := 512, supl := false }] }
       let s := later (withOp (inSession 2) j) 10000
       s.op? 0 = some j ∧ j.state = .active ∧ j.dev = .none ∧ j.run ≠ [] ∧ s.flag (CHP_CFG.MODE (opPort s j)) = true
         ∧ j.mark + 10000 ≤ s.time.now ∧ weftReady s j = true ∧ ¬ j.mark + 10000 ≤ (withOp (inSession 2) j).time.now) := by decide +kernel

/-- A port of a module whose ports beyond the quads do I/O. -/
theorem test_witness_PcieEvents :
    channels.flag (CHP_CFG.MODE 0) = false ∧ wideIo channels 0 = false ∧ (channels.modPort 0 (fun x => { x with present := true })).port 0 ≠ channels.port 0
    ∧ channels.get (CHP_STAT.LINK 0) = lnk.UP ∧ (channels.put (CHP_STAT.LINK 0) lnk.RETRAIN).get (CHP_STAT.LINK 0) = lnk.RETRAIN
    ∧ (channels.put (CHP_STAT.LINK 0) lnk.DOWN).get (CHP_STAT.LINK 0) ≠ lnk.UP
    ∧ tlpSpan channels 0 0x7000 64 false = none ∧ tlpSpan channels 0 0x7000 64 true = none
    ∧ wideIo channels 50 = true ∧ channels.domOn (dom.mem (50 - 32)) = true
    ∧ (let s := withOp channels { atWeft .sent with shut := some 3 }
       tlpSpan s 0 0x7000 64 true = some (0, { atWeft .sent with shut := some 3 }, { pa := 0x7000, tpa := 0x7000, len := 512 })
         ∧ burstMay s 0 (s.viTenant 3) 64 true = true ∧ inTurn s 0 = true) := by decide +kernel

/-! ### Engines -/

/-- Ring 2 of engine e, of VI 3, its base at 0x20000. -/
def ring2 (e : Nat) : State := (((channels.put (PWR_DOM.CUR (dom.engine e)) 0).put (ringCfg e 2 0 1) 1).put (ringCfg e 2 16 12) 3).wr (engBase e + 0x1028) 0x20000

/-- A CTR job of no input in slot 0 of the ring of engine 0, which names key slot 5: word 0, then source, length, destination, limits, context,
parameters and key slot. -/
def slotted (w0 : Nat) : State :=
  ([w0, 0x30000, 0, 0x32000, 64, 0x38000, 0x35000, 5].zip (List.range 8)).foldl (fun s d => poke s (0x20200 + 8 * d.2) d.1 8)
    (poke ((((ring2 0).put (CIP_KS_CFG.STATE 5) 1).put (CIP_KS_CFG.KTYPE 5) 0).putFlag (CIP_KS_CFG.GRANT 5) true) 0x20000 1 8)

/-- What the poll of the slotted ring meets: the ring, the slot, and how the job starts. -/
def starts (s : State) : Option (Nat × Start) :=
  match pollRing s 0 2 with
  | (s1, .job cons) =>
    let blank := jobAt s1 3 0x20200 (some 2) none []
    match jobRead s1 0 blank 0x20200 128 with
    | (s2, some g) => if g.poison.isSome then none else some (cons, (startJob s2 0 { blank with desc := wordsOf (bytesOf g.val 128) 16 }).2)
    | _ => none
  | _ => none

/-- A job at engine e with no work yet, from ring 2. -/
def jobOf (e w0 : Nat) : Job := jobAt (ring2 e) 3 0x20200 (some 2) none [BitVec.ofNat 64 w0, 0x30000, 0, 0x32000, 64, 0x38000]
def working (e : Nat) (j : Job) : State := (ring2 e).modEng e (fun g => { g with job := some j })

theorem test_witness_EnginePolls :
    (let s := ring2 4
     s.domOn (dom.engine 4) = true ∧ (s.engAt 4).job = none ∧ s.fcu.safe = none)
    ∧ engServes ((ring2 4).put LOOM_PICK.BEAT 63) 4 = none
    ∧ (let s := slotted 0x21800
       engServes s 0 = some 0 ∧ mget? (s.engAt 0).susp 0 = none ∧ xformsOf s 0 0 = [] ∧ ringsOf s 0 0 = [2])
    ∧ (let s := (ring2 4).modEng 4 (fun g => { g with susp := [(0, jobOf 4 0)] })
       engServes s 4 = some 0 ∧ mget? (s.engAt 4).susp 0 = some (jobOf 4 0)) := by decide +kernel

theorem test_witness_EnginePolls_starts :
    (match starts (slotted 0x21800) with
     | some (0, .go _) => true
     | _ => false) = true := by decide +kernel

theorem test_witness_EnginePolls_empty : (pollRing (ring2 4) 4 2).2 = .empty := by decide +kernel

theorem test_witness_JobsHalt :
    (jobOf 4 0).ring = some 2 ∧ (2 : Nat) < 64
    ∧ (let j := { jobOf 4 0 with ring := none, cell := some 0 }
       j.ring = none ∧ j.cell = some 0 ∧ (withOp (ring2 4) op7).op? 0 = some op7) := by decide +kernel

theorem test_witness_JobsEnd :
    ((ring2 4).engAt 4).job = none
    ∧ (∀ e ∈ [0, 4], let s := working e (jobOf e 0)
       s.domOn (dom.engine e) = true ∧ (s.engAt e).job = some (jobOf e 0) ∧ (jobOf e 0).early = none ∧ (jobOf e 0).revoked = false
         ∧ (jobOf e 0).final = false)
    ∧ ({ jobOf 0 0 with early := some (3, 7) } : Job).early = some (3, 7)
    ∧ (match (takeUpTo (working 0 { jobOf 0 0 with rec_ := [1] }) 0 { jobOf 0 0 with rec_ := [1] } 0 none).2 with
       | some w => w.stop.isNone
       | none => false) = true
    ∧ (let j := { jobOf 0 0 with desc := [0, 0x30000, 16], rec_ := [1] }
       match (takeUpTo (bad (working 0 j) 0x300) 0 j 16 none).2 with
       | some w => w.stop.isSome && !w.job.hold
       | none => false) = true := by decide +kernel

/-- The writes of an end, one after another, and whether each was performed. -/
def endWrites (s : State) (e : Nat) (j : Job) (st f : Nat) : List Bool :=
  let s0 := jobWrite s e j j.msgDst 0 0
  let s1 := jobWrite s0.1 e j (j.slot + 72) 56 (ofBytes (bytesOfWords ([j.used, j.made, 0, 0, f, 0, 0].map (BitVec.ofNat 64))))
  let s2 := endContext s1.1 e j st false
  let s3 := jobWrite s2.1 e j (j.slot + 64) 8 (st + boolNat j.ctxBad * 2 ^ 8 + boolNat j.released * 2 ^ 9 + 2 ^ 63)
  let s4 := jobReport s3.1 e j st f
  [s0.2, s1.2, s2.2, s3.2, s4.2, decide (st ≠ cst.STATE_PARITY), !scrubs e j st]

theorem test_witness_JobsEnd_writes : endWrites (ring2 0) 0 (jobOf 0 0) cst.POISON 7 = List.replicate 7 true := by decide +kernel

theorem test_witness_JobsSuspend :
    (let s := working 0 { jobOf 0 0 with tenant := 9 }
     (s.engAt 0).job = some { jobOf 0 0 with tenant := 9 } ∧ s.domOn (dom.engine 0) = true ∧ engCutOff s 0 { jobOf 0 0 with tenant := 9 } = true
       ∧ s.closedWeave = true)
    ∧ engCutOff (working 0 (jobOf 0 0)) 0 (jobOf 0 0) = false
    ∧ (let j := { jobOf 0 0 with tenant := 9, hold := true }
       j.early = none ∧ j.revoked = false ∧ j.hold = true ∧ 0 < ({ jobOf 0 0 with desc := [0, 0x30000, 16] } : Job).srclen) := by decide +kernel

theorem test_witness_JobsSuspend_saves : (saveHalf (ring2 0) 0 { jobOf 0 0x2000 with tenant := 9 } 1).2 = true := by decide +kernel

theorem test_witness_RingRegisters :
    (∀ w ∈ [0, 1, 4, 5], taken (ring2 4) (ringCfg 4 2 0 1).off (BitVec.ofNat 64 w) = w)
    ∧ (hostWrite ((ring2 4).put (PWR_DOM.CUR (dom.engine 4)) pst.OFF) (ringCfg 4 2 0 1).off 1).get (PWR_DOM.CUR (dom.engine 4)) = pst.OFF
    ∧ (hostWrite (ring2 4) (ringCfg 4 2 0 1).off 1).get (PWR_DOM.CUR (dom.engine 4)) ≠ pst.OFF := by decide +kernel

theorem test_witness_KeySlots :
    channels.flag CIP_KSCMD.BUSY = false ∧ (channels.putFlag CIP_KSCMD.BUSY true).flag CIP_KSCMD.BUSY = true
    ∧ (∀ c ∈ [(0, false), (1, false), (2, false), (3, false), (1, true), (2, true)], let (op, target) := c; let v := BitVec.ofNat 64 (5 + op * 2 ^ 13 + boolNat target * 2 ^ 19)
       taken channels CIP_KSCMD.off v / 2 ^ 13 % 4 = op ∧ (hostWrite channels CIP_KSCMD.off v).flag CIP_KSCMD.TARGET = target)
    ∧ (hostWrite channels (CIP_KS_CFG.off 5) 0).flag (CIP_KS_CFG.GRANT 5) = false
    ∧ (∃ v : Word, (hostWrite channels (CIP_KS_CFG.off 5) v).flag (CIP_KS_CFG.GRANT 5) = true) := by
  refine ⟨by decide +kernel, by decide +kernel, by decide +kernel, by decide +kernel, BitVec.ofNat 64 (2 ^ 64 - 1), by decide +kernel⟩

theorem test_witness_EngineParity :
    (working 4 (jobOf 4 0)).domOn (dom.engine 4) = true ∧ ((raise ((ring2 4).bump (engStat 4 48 8) 1) (dom.engine 4) .CE).engAt 4).job = none
    ∧ ((raise ((working 4 (jobOf 4 0)).bump (engStat 4 48 8) 1) (dom.engine 4) .CE).engAt 4).job = some (jobOf 4 0) := by decide +kernel

end Sys2Proof.Tests
end

