-- ==== Sys2Proof/Tests/Module.lean ====
section
/-! SUPPORT. Tests: faults, splice, power, boot, access, replay, triads and the whole module. A state and operands that meet the hypotheses
of each statement together (`test_witness_<statement>`). -/

namespace Sys2Proof.Tests
open Sys2Proof Sys2Proof.Machine

set_option Elab.async false

/-! ### Faults -/

theorem test_witness_FaultReports :
    (withMemory.putFlag (FCU_SRC.WIRE 5) true).flag (FCU_SRC.WIRE 5) = true ∧ (withMemory.put (PWR_DOM.CUR 5) pst.OFF).domOn 5 = false
    ∧ (let r := Report.of 5 .CE
       r.far < 512 ∧ bitAt (caps 5) 0 = true ∧ withMemory.flag (FCU_SRC.WIRE 5) = false ∧ withMemory.domOn 5 = true
         ∧ (withMemory.putFlag (FCU_SRC.MASK 5) true).flag (FCU_SRC.MASK 5) = true ∧ withMemory.flag (FCU_SRC.MASK 5) = false
         ∧ withMemory.flag FCU_REC.VALID = false ∧ consequential withMemory r = false ∧ bits (withMemory.rd (FCU_SRC.off 5)) 0 3 = react.LOG
         ∧ (withMemory.putFlag FCU_REC.VALID true).flag FCU_REC.VALID = true ∧ withMemory.time.loom = false
         ∧ consequential { withMemory with fcu := { withMemory.fcu with windows := [.domain 5] } } r = true)
    ∧ chosen [⟨Report.of 5 .CE, 0, false, false⟩, ⟨Report.of 4 .UC, 2, false, false⟩] = some ⟨Report.of 4 .UC, 2, false, false⟩ := by decide +kernel

/-- Pool errors and failed handovers to a port: their reports, and a cell of an operation. -/
theorem test_witness_BlockInputs :
    (let r : Report := { Report.of 244 .DE with info := 3 }
     r.src ≠ 295 ∧ 244 ≤ r.src ∧ r.src < 256 ∧ r.sev = .DE ∧ r.info.toNat / 4 = r.src - 244)
    ∧ (Report.of 5 .CE).src ≠ 295 ∧ ¬ 244 ≤ (Report.of 5 .CE).src
    ∧ (∀ sev ∈ [Severity.CE, .DE, .UC, .UF], (Report.of 295 sev).src = 295 ∧ (Report.of 295 sev).sev = sev)
    ∧ (channels.putFlag CHS_CFG.POOLPROT true).flag CHS_CFG.POOLPROT = true ∧ 0 ∈ usedCells (withOp channels op7) := by decide +kernel

/-- Domain d was reset at these times. -/
def resetAt (d : Nat) (l : List Nat) (held : Bool) : State :=
  { withMemory with fcu := { withMemory.fcu with resets := [(d, l)], held := if held then [d] else [] } }

theorem test_witness_FaultReactions :
    (let r : Report := { Report.of 144 .CE with rails := .bothLow }
     r.rails ≠ .fault ∧ withMemory.flag (FCU_SRC.WIRE 144) = false ∧ withMemory.domOn 144 = true ∧ consequential withMemory r = false
       ∧ bits (withMemory.rd (FCU_SRC.off 144)) 6 3 = react.INTR ∧ r.far < 512)
    ∧ (∀ l ∈ [[], [0, 0, 0]], let s := resetAt 204 l false
       bitAt (caps 204) 2 = true ∧ s.flag (FCU_SRC.MASK 204) = false ∧ s.domOn 204 = true ∧ bits (s.rd (FCU_SRC.off 204)) 6 3 = react.BLOCKRST
         ∧ (recentResets s 204).length = l.length)
    ∧ (∀ d ∈ [311, 260], bitAt (caps d) 3 = true ∧ withMemory.flag (FCU_SRC.WIRE d) = false ∧ withMemory.fcu.safe = none)
    ∧ (let s := { withMemory with fcu := { withMemory.fcu with safe := some .safe, windows := [.all] } }
       s.fcu.safe = some .safe ∧ consequential s (Report.of 260 .UF) = true) := by decide +kernel

theorem test_witness_ResetsWindowsSafeState :
    (∀ d ∈ [0, 195, 212, 243, 259, 204, 211], let s := later (resetAt d [0] true) 100
     d ∈ s.fcu.held ∧ lastReset s d + 100 ≤ s.time.now ∧ ¬ lastReset s d + 100 ≤ (resetAt d [0] true).time.now)
    ∧ (let s := [0, 1, 2, 3].foldl (fun (s : State) p => (s.putFlag (CHP_CFG.MODE p) true).put (CHP_STAT.LINK p) lnk.UP) (later (resetAt 244 [0] true) 100)
       244 ∈ s.fcu.held ∧ lastReset s 244 + 100 ≤ s.time.now
         ∧ ∀ i, i < 4 → s.flag (CHP_CFG.MODE (4 * (244 - 244) + i)) = true ∧ s.get (CHP_STAT.LINK (4 * (244 - 244) + i)) = lnk.UP)
    ∧ (let s := { withMemory with fcu := { withMemory.fcu with windows := [.triad 3, .domain 5, .all] } }
       s.fcu.windows[0]? = some (.triad 3) ∧ s.fcu.windows[1]? = some (.domain 5) ∧ s.fcu.windows[2]? = some .all ∧ s.fcu.windows.length ≤ 3
         ∧ (s.triad 3).mig = none ∧ (∀ k ∈ s.places, retriesNow s 3 k = 0) ∧ 5 ∉ s.fcu.held ∧ lastReset s 5 + 2100 ≤ (later s 2100).time.now)
    ∧ (let s := { withMemory with fcu := { withMemory.fcu with safe := some .safe } }
       s.fcu.safe ≠ none ∧ s.fcu.safeDone = false) := by decide +kernel

theorem test_witness_FaultRegisters :
    ∀ n ∈ [0, 1], let v := BitVec.ofNat 64 (n * 2 ^ 63)
      taken withMemory FCU_REC.off v / 2 ^ 63 % 2 = n ∧ taken (withMemory.put PWR_MODSTAT.LIFE life.FACTORY) FCU_INJ.off v / 2 ^ 63 % 2 = n := by
  decide +kernel

/-! ### Splice -/

/-- A worker, member of the bolt with MID 1, whose link 2 leads to MID 0. -/
def member1 : State :=
  let s := ((withMemory.put MOD_MODE.MODE 2).put SPL_BOLT.MID 1).put SPL_BOLT.MEMBERS 3
  let s := s.putFlag SPL_BOLT.ADMITTED true
  { s with spl := { s.spl with upLinks := [2], peers := [(2, 0)] } }

theorem test_witness_WarpLinks :
    withMemory.role = 0 ∧ member1.stopped = false ∧ member1.role = 2 ∧ member1.domOn (dom.link 2) = true
    ∧ (member1.put (PWR_DOM.CUR (dom.link 2)) pst.OFF).domOn (dom.link 2) = false ∧ mget? member1.spl.peers 3 = none
    ∧ mget? member1.spl.peers 2 = some 0
    ∧ (let u : State := { member1 with spl := { member1.spl with upLinks := member1.spl.upLinks.filter (· ≠ 2) } }
       let r := report u { Report.of (dom.link 2) .UC with info := BitVec.ofNat 64 0 }
       (¬ ∃ l ∈ r.spl.upLinks, mget? r.spl.peers l = some 0) ∧ r.boltBit SPL_BOLT.MEMBERS 0 = true ∧ r.boltBit SPL_BOLT.DEAD 0 = false)
    ∧ (let s := { member1 with spl := { member1.spl with upLinks := [2, 5], peers := [(2, 0), (5, 0)] } }
       let u : State := { s with spl := { s.spl with upLinks := s.spl.upLinks.filter (· ≠ 2) } }
       let r := report u { Report.of (dom.link 2) .UC with info := BitVec.ofNat 64 0 }
       ∃ l ∈ r.spl.upLinks, mget? r.spl.peers l = some 0) := by decide +kernel

/-- What waits at link 2 for the peer, when link 5 leads to it too. -/
theorem test_witness_WarpLinks_moved :
    let w : Waiting := { table := table.link 2, tenant := 0, line := 9, issued := false, what := .link (.leave 3) }
    let s := { member1 with spl := { member1.spl with upLinks := [5], peers := [(2, 0), (5, 0)] } }
    let s := { s with loom := { s.loom with waiting := [w, { w with table := 0 }] } }
    w ∈ s.loom.waiting ∧ w.table = table.link 2 ∧ linkFor s 0 w.line = some 5 ∧ ({ w with table := 0 } : Waiting).table ≠ table.link 2 := by decide +kernel

theorem test_witness_LostModules :
    member1.txns = [] ∧ member1.dir = [] ∧ member1.owed = []
    ∧ (let d := member1.put SPL_BOLT.DEAD (setBit (member1.get SPL_BOLT.DEAD) 0 true)
       (report d { Report.of (dom.link 2) .UC with info := BitVec.ofNat 64 0 }).spl.rejoining = false)
    ∧ member1.stopped = false ∧ member1.role ≠ 0 ∧ member1.mid = 1 ∧ member1.boltBit SPL_BOLT.DEAD 0 = false
    ∧ (member1.put SPL_BOLT.DEAD 1).boltBit SPL_BOLT.DEAD 0 = true := by decide +kernel

/-- The manager, with these announcements. -/
def manager (l : List Announcement) : State :=
  let s := (withMemory.put MOD_MODE.MODE 1).putFlag SPL_BOLT.ADMITTED true
  { s with spl := { s.spl with announces := l, upLinks := [4], peers := [] } }

def cand : Announcement := { link := 4, ident := [1, 2] }

/-- The manager shows the candidate, and MID 3 is chosen for it. -/
def showing : State :=
  (((manager [cand]).putFlag SPL_ADMIT.PENDING true).put SPL_ADMIT.LINK 4).put SPL_ADMIT.MID 3

theorem test_witness_Admission :
    (∀ l ∈ [[], [{ link := 5, ident := [7] }], [cand]], let s := manager l
     s.stopped = false ∧ s.role = 1 ∧ awaitsAdmission s = false ∧ cand.link ∉ s.spl.rejected)
    ∧ (let s := { (withMemory.put MOD_MODE.MODE 2) with boot := { withMemory.boot with stage := .ready } }
       s.stopped = false ∧ awaitsAdmission s = true ∧ s.boot.stage = .ready)
    ∧ awaitsAdmission member1 = false ∧ withMemory.role ≠ 1
    ∧ (hostWrite showing (SPL_NONCE.off 3) 5).role = 1 ∧ (hostWrite showing (SPL_NONCE.off 3) 5).flag SPL_ADMIT.PENDING = true
    ∧ (hostWrite (manager []) (SPL_NONCE.off 3) 5).flag SPL_ADMIT.PENDING = false
    ∧ (∀ op ∈ [0, 1, 2, 3], (BitVec.ofNat 64 (op * 2 ^ 12)).toNat / 2 ^ 12 % 4 = op)
    ∧ (∀ op ∈ [1, 2, 3], let v := BitVec.ofNat 64 (op * 2 ^ 12 + 3 * 2 ^ 8 + 3)
       taken showing SPL_ADMIT.off v / 2 ^ 12 % 4 = op ∧ (hostWrite showing SPL_ADMIT.off v).spl.announces = [cand]
         ∧ (hostWrite showing SPL_ADMIT.off v).flag SPL_ADMIT.PENDING = true
         ∧ (hostWrite (manager []) SPL_ADMIT.off v).flag SPL_ADMIT.PENDING = false ∧ admitResult (hostWrite (manager []) SPL_ADMIT.off v) ≠ 0) := by
  decide +kernel

theorem test_witness_Admission_good :
    ∃ v : Word, (v.toNat / 2 ^ 12 % 4 = 1 ∧ taken showing SPL_ADMIT.off v / 2 ^ 12 % 4 = 1) ∧ admitResult (hostWrite showing SPL_ADMIT.off v) = 0 :=
  ⟨BitVec.ofNat 64 (2 ^ 12 + 3 * 2 ^ 8), by decide +kernel⟩

theorem test_witness_Admission_nonce :
    let s := { showing with spl := { showing.spl with nonceSent := true } }
    s.flag SPL_ADMIT.PENDING = true ∧ s.spl.nonceSent = true ∧ s.get SPL_ADMIT.LINK = 4 ∧ showing.spl.nonceSent = false := by decide +kernel

/-- A worker without a MID. -/
def fresh2 : State := { withMemory.put MOD_MODE.MODE 2 with boot := { withMemory.boot with stage := .ready } }

theorem test_witness_AdmissionTaken :
    withMemory.role = 0 ∧ fresh2.stopped = false ∧ fresh2.role ≠ 0 ∧ awaitsAdmission fresh2 = true ∧ fresh2.boot.stage = .ready
    ∧ fresh2.l2 = [] ∧ fresh2.warp = [] ∧ fresh2.ctls = [] ∧ fresh2.loom.waiting = []
    ∧ member1.stopped = false ∧ member1.role ≠ 0 ∧ awaitsAdmission member1 = false ∧ member1.mid ≠ 5 := by decide +kernel

/-- An active spliced module that has captured epoch 5. -/
def active (cap fin : Option Nat) : State :=
  let s := ((member1.put SPL_STAT.STATE spst.ACTIVE).putFlag SPL_CFG.SPLICED true).put SPL_CFG.TWINMID 2
  { s with spl := { s.spl with capture := cap, final := fin } }

/-- A write-through of line 0x90 was issued before the capture and waits for its beat. -/
theorem test_witness_Commits_waiting :
    let s := sharing 64
    let w : Waiting := { table := 0, tenant := 0, line := 0x90, issued := false, what := .write 0 0xFF 7 0 .none false }
    let s := { s with loom := { s.loom with waiting := [w] }, spl := { s.spl with capture := some 5, image := some { imageNow s with writes := [0x90] } } }
    captureWaits s = true ∧ s.spl.capture = some 5 := by decide +kernel

/-- A module that watches MIDs 0 and 5. -/
def arbiter (missed : Nat) : State :=
  let s := (((member1.putFlag SPL_CFG.ARBEN true).put SPL_CFG.ARBA 0).put SPL_CFG.ARBB 5).put SPL_ARB.MISSED missed
  { later s 12750 with time := { (later s 12750).time with loom := true }, spl := { s.spl with lastFrom := some 0 } }

theorem test_witness_HeartbeatsAndDecisions :
    (active none none).spl.capture = none
    ∧ (∀ f ∈ [none, some 5], let s := active (some 5) f
       s.spl.capture = some 5 ∧ s.stopped = false ∧ s.get SPL_STAT.STATE = spst.ACTIVE ∧ captureWaits s = false
         ∧ ((((writeCommit s 5).put SPL_STAT.EPOCH 5).put SPL_STAT.CKFAIL 0).spl.final = f))
    ∧ (let b : Beat := { mid := 5, pick := 9, epoch := 4, yields := true }
       let s := arbiter 1
       s.stopped = false ∧ s.flag SPL_CFG.ARBEN = true ∧ b.mid = s.get SPL_CFG.ARBB ∧ s.boltBit SPL_BOLT.DEAD b.mid = false
         ∧ (s.put SPL_BOLT.DEAD 32).boltBit SPL_BOLT.DEAD b.mid = true)
    ∧ (∀ n ∈ [1, 2], let s := arbiter n
       let u : State := { s with spl := { s.spl with checked := true } }
       let r := raise (u.put SPL_ARB.MISSED (min 3 (s.get SPL_ARB.MISSED + 1))) src.splice .UC
       s.time.loom = true ∧ 12750 ≤ s.since ∧ s.spl.checked = false ∧ s.spl.lastFrom ≠ none ∧ s.spl.heard = false ∧ s.get SPL_ARB.MISSED = n
         ∧ r.boltBit SPL_BOLT.DEAD (watched r) = false)
    ∧ { member1.pins with fenceOut := false }.fenceOut = false ∧ 0 + 100 ≤ (later member1 100).time.now
    ∧ (∀ n ∈ [0, 1, 2], let v := BitVec.ofNat 64 n
       v.getLsbD 0 = decide (n = 1) ∧ v.getLsbD 1 = decide (n = 2) ∧ taken (arbiter 1) SPL_CTL.off v / 2 % 2 = n / 2
         ∧ (hostWrite (arbiter 1) SPL_CTL.off v).flag SPL_CFG.ARBEN = true) := by decide +kernel

theorem test_witness_Fences :
    (active none none).get SPL_STAT.STATE = spst.ACTIVE ∧ (active none none).stopped = false ∧ member1.get SPL_STAT.STATE ≠ spst.ACTIVE
    ∧ (active none none).spl.fenceLow = none
    ∧ (let s := (later member1 1000)
       { s with spl := { s.spl with fenceLow := some 950 } }.time.now - 50 < 950 + 100000)
    ∧ (member1.put SPL_STAT.STATE spst.STANDBY).get SPL_STAT.STATE = spst.STANDBY := by decide +kernel

/-- A twin that takes over, its claim written and its checkpoint loaded so far. -/
def taking (claim load : Option Nat) : State :=
  let s := (((member1.put SPL_STAT.STATE spst.TAKEOVER).putFlag SPL_CFG.SPLICED true).put SPL_CFG.TWINMID 0).putFlag SPL_BOLT.ALIASV false
  { s with spl := { s.spl with claimAt := claim, loaded := load } }

theorem test_witness_Takeovers :
    (let s := taking none none
     s.stopped = false ∧ s.get SPL_STAT.STATE = spst.TAKEOVER ∧ s.spl.claimAt = none
       ∧ (∀ d, d < 260 → s.get (PWR_DOM.CUR d) = pst.ON ∧ s.flag (PWR_DOM.PADLATCH d) = false))
    ∧ (let s := later (taking (some 0) none) 25600
       s.spl.loaded = none ∧ s.spl.claimAt = some 0 ∧ 0 + 25600 ≤ s.time.now)
    ∧ ({ epoch := 4, valid := true, crcOk := true, pick := 9 } : CommitWord).valid = true
    ∧ ({ epoch := 4, valid := true, crcOk := false, pick := 9 } : CommitWord).crcOk = false
    ∧ (let s := taking (some 0) (some 4)
       s.spl.rejoining = false ∧ s.flag SPL_BOLT.ALIASV = false ∧ s.spl.loaded = some 4
         ∧ (otherMembers s).filter (fun m => m ≠ s.get SPL_CFG.TWINMID ∧ s.boltBit SPL_BOLT.DEAD m = false ∧ s.boltBit SPL_BOLT.STANDBYS m = false) = []
         ∧ (otherMembers (s.put SPL_BOLT.MEMBERS 7)).filter (fun m => m ≠ s.get SPL_CFG.TWINMID ∧ s.boltBit SPL_BOLT.DEAD m = false
             ∧ s.boltBit SPL_BOLT.STANDBYS m = false) ≠ [])
    ∧ member1.boltBit SPL_BOLT.STANDBYS 3 = false
    ∧ (let s := (member1.put SPL_BOLT.STANDBYS 8).put SPL_BOLT.DEAD 1
       s.stopped = false ∧ s.role ≠ 0 ∧ s.boltBit SPL_BOLT.STANDBYS 3 = true ∧ s.boltBit SPL_BOLT.DEAD 0 = true)
    ∧ (∀ l ∈ [[3], [3, 4]], let s := { member1 with spl := { member1.spl with rejoining := true, awaiting := l } }
       s.stopped = false ∧ s.spl.rejoining = true ∧ (s.spl.awaiting.filter (· ≠ 3) = [] ∨ s.spl.awaiting.filter (· ≠ 3) ≠ [])) := by decide +kernel

theorem test_witness_Leaving :
    (∀ n ∈ [0, 1], taken member1 SPL_LEAVE.off (BitVec.ofNat 64 n) % 2 = n)
    ∧ (let u := hostWrite member1 SPL_LEAVE.off 1
       u.role = 2 ∧ (∀ c, c < u.cordCount → u.assigned c = false) ∧ enabledVis u = [] ∧ (∀ e, e < 8 → ringsEnabled u e = false))
    ∧ (hostWrite (manager []) SPL_LEAVE.off 1).role ≠ 2
    ∧ (let s := member1.putFlag SPL_LEAVE.BUSY true
       s.stopped = false ∧ s.flag SPL_LEAVE.BUSY = true ∧ s.l2 = [] ∧ s.ev = [] ∧ s.dir = [] ∧ s.txns = [])
    ∧ member1.flag SPL_LEAVE.BUSY = false ∧ member1.mid ≠ 0 ∧ member1.boltBit SPL_BOLT.DEAD 0 = false := by decide +kernel

/-! ### Power -/

/-- Domain d goes from one state to another. -/
def going (d : Nat) (x : Trans) : State := (withMemory.put (PWR_DOM.CUR d) x.src).setTrans d (some x)

theorem test_witness_DomainTransitions :
    (withMemory.putFlag (FCU_SRC.FAILED 5) true |> fun s => managed s 5 = true) ∧ managed withMemory 5 = false ∧ withMemory.transOf 5 = none
    ∧ domTarget 5 3 ≠ withMemory.get (PWR_DOM.CUR 5)
    ∧ (let x : Trans := { src := pst.ON, dst := pst.OFF, begun := false, wake := false }
       (going 200 x).transOf 200 = some x
         ∧ [ref.KNOT, ref.LOOM_PIN, ref.ENGINE_RING, ref.ROLE].find? (refuserHolds (going 200 x) 200) = none
         ∧ [ref.KNOT, ref.LOOM_PIN, ref.ENGINE_RING, ref.ROLE].find? (refuserHolds ((going 200 x).putFlag (PWR_DOM.PINNED 200) true) 200) = some ref.LOOM_PIN)
    ∧ (let x : Trans := { src := pst.ON, dst := pst.OFF, begun := true, wake := false }
       let code (s : State) (d : Nat) : Option Nat := [ref.STORE_BUFFER, ref.CHANNEL_OP, ref.ORDER].find? (refuserHolds s d)
       (going 200 x).transOf 200 = some x ∧ code (going 200 x) 200 = none ∧ refuserHolds (going 212 x) 212 ref.ORDER = false
         ∧ code (going 144 x) 144 = some ref.ORDER ∧ refuserHolds (going 144 x) 144 ref.ORDER = true
         ∧ ((setDom (latchPads (leaveOn (going 200 x) 200) 200 x.dst) 200 x.dst).setTrans 200 none).flag (PWR_DOM.PINNED 200) = false)
    ∧ (let x : Trans := { src := pst.GATED, dst := pst.OFF, begun := true, wake := false }
       (going 200 x).transOf 200 = some x ∧ ((setDom (latchPads (going 200 x) 200 x.dst) 200 x.dst).setTrans 200 none).flag (PWR_DOM.PINNED 200) = false)
    ∧ (let x : Trans := { src := pst.OFF, dst := pst.ON, begun := true, wake := true }
       (going 200 x).transOf 200 = some x ∧ x.dst = pst.ON) := by decide +kernel

/-- In the lifecycle state RUN, with no VI and no operation. -/
def runs : State := withMemory.put PWR_MODSTAT.LIFE life.RUN
def retaining (n : Nat) : State := { runs with pwr := { runs.pwr with retain := n } }

theorem test_witness_LifecycleRetain :
    (let u := hostWrite runs PWR_MODCMD.off 1
     taken runs PWR_MODCMD.off 1 % 4 = 1 ∧ u.flag PWR_MODCMD.BUSY = false ∧ u.lifecycle = life.RUN ∧ u.role = 0 ∧ u.chs.cells = []
       ∧ (∀ c, c < u.cordCount → (u.cord c).knot = none))
    ∧ (hostWrite (withOp runs op7) PWR_MODCMD.off 1).chs.cells ≠ []
    ∧ (let u := hostWrite (runs.put MOD_MODE.MODE 2) PWR_MODCMD.off 1
       u.role ≠ 0 ∧ u.lifecycle = life.RUN ∧ u.flag PWR_MODCMD.BUSY = false)
    ∧ (let kn : Knot := { handler := 0, home := hm 0, sp := 0, cache := [], opened := 0, reads := [], writes := [], bytes := [] }
       let u := hostWrite (runs.setCord 2 { core0 with knot := some kn }) PWR_MODCMD.off 1
       2 < u.cordCount ∧ (u.cord 2).knot ≠ none)
    ∧ (retaining 2).pwr.retain = 2 ∧ runs.pwr.retain ≠ 2
    ∧ (let s := (retaining 2).setCord 3 { Core.zero with sbuf := [sentStore] }
       3 < s.cordCount ∧ (s.cord 3).sbuf ≠ [])
    ∧ (let s := retaining 2
       (∀ c, c < s.cordCount → (s.cord c).sbuf = []) ∧ s.chs.cells = [] ∧ (∀ e, e < 8 → engineBusy s e = false) ∧ s.l2 = [] ∧ s.warp = [] ∧ s.ctls = [] ∧ s.loom.waiting = [])
    ∧ engineBusy { retaining 2 with eng := (working 4 (jobOf 4 0)).eng } 4 = true ∧ runs.lifecycle ≠ life.RETAIN := by decide +kernel

/-- The lifecycle state RETAIN, with every domain in RETAIN. -/
def retained : State :=
  let w := (withMemory.put (PWR_DOM.CUR 0) pst.RETAIN).rd (PWR_DOM.off 0)
  { withMemory with regs := (PWR_MODSTAT.off, (withMemory.put PWR_MODSTAT.LIFE life.RETAIN).rd PWR_MODSTAT.off)
      :: (List.range 260).map (fun d => (PWR_DOM.off d, w)) }

theorem test_witness_LifecycleRetain_wake :
    retained.lifecycle = life.RETAIN ∧ retained.pwr.stalled = [] ∧ (∀ d, d < 260 → retained.get (PWR_DOM.CUR d) = pst.RETAIN
      ∧ retained.flag (PWR_DOM.LOST d) = false ∧ mget retained.pwr.before d pst.ON = pst.ON) := by decide +kernel

theorem test_witness_PadReleases :
    ∀ n ∈ [0, 1], taken withMemory PWR_PADREL.off (BitVec.ofNat 64 (n * 2 ^ 63 + 230)) / 2 ^ 63 % 2 = n := by decide +kernel

/-- Sensor n has read this temperature. -/
def sensed (n c : Nat) : State :=
  let s : State := { withMemory with pwr := { withMemory.pwr with sensors := mset withMemory.pwr.sensors n c } }
  s.put PWR_THERM.TMAX (min 125 ((mset withMemory.pwr.sensors n c).foldl (fun (m : Nat) (e : Nat × Nat) => max m e.2) 0))

theorem test_witness_ClocksRailsSensors :
    (∀ n ∈ [-301, 301], (n : Int) < -300 ∨ 300 < n)
    ∧ (withMemory.putFlag (PWR_RAIL.ARMED 2) false).flag (PWR_RAIL.ARMED 2) = false
    ∧ (let s := withMemory.putFlag (PWR_RAIL.ARMED 2) true
       let r := raise ((s.bump (PWR_RAIL.WARNCNT 2) 1).putFlag (PWR_RAIL.BELOW 2) true) (src.rail 2) .CE
       s.flag (PWR_RAIL.ARMED 2) = true ∧ r.time.loom = false)
    ∧ (let s := { withMemory with pwr := { withMemory.pwr with railHalf := [(1, 0)], railUntil := [(2, 0)], thermUntil := [(1, 0)] } }
       mget? s.pwr.railHalf 1 = some 0 ∧ mget? s.pwr.railHalf 2 = none ∧ mget? s.pwr.railUntil 2 = some 0 ∧ (mget? s.pwr.railHalf 0).isNone
         ∧ s.time.loom = false ∧ mget? s.pwr.thermUntil 1 = some 0 ∧ ∀ i, i < 4 → mget s.pwr.sensors (4 * 1 + i) 0 ≤ 92)
    ∧ (raise (sensed 3 95) src.thermal .CE).time.loom = false
    ∧ (raise (sensed 3 95) src.thermal .CE).flag { off := PWR_THERM.off, lsb := 8 + 3 / 4, w := 1 } = false := by
  decide +kernel

/-! ### Resets, boot and access -/

theorem test_witness_ColdResets :
    withMemory.boot.warm = none ∧ withMemory.flag (PWR_RAIL.ARMED 9) = true
    ∧ (∀ n ∈ [1, 2], taken withMemory MOD_RST.off (BitVec.ofNat 64 n) = n)
    ∧ { withMemory with i3c := { withMemory.i3c with addr := some 0x30 } }.i3c.addr ≠ none ∧ withMemory.i3c.addr = none
    ∧ (withMemory.putFlag (PWR_RAIL.ARMED 2) false).flag (PWR_RAIL.ARMED 2) = false := by decide +kernel

def inputs : ResetInputs := { copyOk := true, prof := 0, claim := false, badSeals := [] }

/-- A module whose boot has come to this stage. -/
def booting (st : Stage) (warm : Option WarmBoot) (copy : Option FlashCopy) : State :=
  { withMemory with boot := { withMemory.boot with stage := st, warm := warm, copy := copy } }

def warm0 (held : Bool) : WarmBoot := { inp := inputs, kind := 5, mode := 0, prof := 0, safe := false, weft := [], doms := [], held := held }

/-- A copy with a profile, Shuttle firmware of no bytes and a HOSTCODE record. -/
def image : FlashCopy :=
  { readOk := true, magic := 0x00004547414D4954, format := 1, zeroOk := true, length := 1024, headerCrcOk := true, imgver := 1
    records := [
      { typ := 1, index := 0, crcOk := true, bytes := 304
        body := [0, BitVec.ofNat 64 (3600 + 750 * 2 ^ 12 + 750 * 2 ^ 24 + 750 * 2 ^ 36 + 750 * 2 ^ 48), 0x2010] ++ List.replicate 35 0 },
      { typ := 2, index := 0, crcOk := true, bytes := 64, body := [0x10000, 0x10000, 0x9000, 0x1000, 0x3000, 0, 0, 0] },
      { typ := 3, index := 0, crcOk := true, bytes := 16, body := [0, 0] },
      { typ := 0xFF, index := 0, crcOk := true, bytes := 96, body := [] }]
    endsAt := 1024, keyOk := true, sigOk := true }

theorem test_witness_WarmResets :
    (∀ st ∈ [Stage.off, Stage.released], let s := booting st none none
     warmCan s = (st == .released) ∧ s.fcu.safe ≠ some .fence ∧ promotes s inputs = false)
    ∧ promotes (booting .released none none) { inputs with copyOk := false } = true
    ∧ (booting .profile (some (warm0 true)) (some image)).boot.warm = some (warm0 true)
    ∧ recOf image recType.PROFILE 0 ≠ none ∧ modeOf image 0 = (warm0 true).mode ∧ (warm0 true).kind < 16
    ∧ (booting .profile (some (warm0 true)) (some image)).flag PROF_SEL.EN = false ∧ recOf image recType.PROFILE 3 = none
    ∧ (let s := { booting .released none none with fcu := { withMemory.fcu with safe := some .fence } }
       s.fcu.safe = some .fence) := by decide +kernel

def flash (a b : FlashCopy) : BootInputs := { prof := 0, copyA := a, copyB := b, railLow := false }

theorem test_witness_BootStages :
    copyReason image 0 = 0 ∧ copyReason { image with sigOk := false } 0 ≠ 0
    ∧ (∀ x ∈ [flash image image, flash { image with readOk := false } image, flash { image with readOk := false } { image with readOk := false }],
       let s := { booting .image none none with boot := { (booting .image none none).boot with inputs := some x } }
       s.boot.stage = .image ∧ s.boot.inputs = some x ∧ s.stopped = false ∧ s.boot.warm = none ∧ s.get BOOT_CAUSE.PROF = 0)
    ∧ (∀ st ∈ [Stage.off, .railWait, .profile, .selfTest, .training, .fill, .invalidate, .hostcode, .ready], (booting st none none).boot.stage = st
       ∧ (booting st none none).stopped = false)
    ∧ filled (booting .fill none none) = false
    ∧ filled ((List.range 32).foldl (fun (s : State) h => s.putFlag (MEM_FILLSTAT.DONE h) true) (booting .fill none none)) = true
    ∧ ∃ w, (booting .profile (some (warm0 true)) none).boot.warm = some w ∧ w.held ≠ false := by
  refine ⟨by decide +kernel, by decide +kernel, by decide +kernel, by decide +kernel, by decide +kernel, by decide +kernel, warm0 true, by decide +kernel⟩

theorem test_witness_BootCordRelease :
    (let s := booting .ready none (some image)
     let x := loomStart s 0
     s.boot.stage = .ready ∧ s.stopped = false ∧ awaitsAdmission s = false ∧ s.time.loom = false ∧ claimTaken s = false ∧ s.role = 0
       ∧ x.flag SPL_CFG.SPLICED = false ∧ bootCord x = some 0 ∧ x.boot.copy = some image ∧ (recOf image recType.HOSTCODE 0).isSome)
    ∧ (let s := booting .ready (some { warm0 false with inp := { inputs with claim := true } }) (some image)
       s.boot.stage = .ready ∧ claimTaken s = true ∧ awaitsAdmission s = false) := by decide +kernel

/-- A password has been set, or not. -/
def locked (n : Nat) : State := { withMemory with sec := { withMemory.sec with gen := n } }

theorem test_witness_AccessCommands :
    withMemory.flag SEC_STAT.BUSY = false ∧ (withMemory.putFlag SEC_STAT.BUSY true).flag SEC_STAT.BUSY = true
    ∧ withMemory.sec.delayed = false ∧ { withMemory.sec with delayed := true }.delayed = true
    ∧ (locked 0).sec.gen = 0 ∧ (locked 2).sec.gen ≠ 0 ∧ (locked 2).flag SEC_STAT.LOCKOUT = false
    ∧ ((locked 2).putFlag SEC_STAT.LOCKOUT true).flag SEC_STAT.LOCKOUT = true
    ∧ withMemory.flag SEC_STAT.CHALV = false ∧ (withMemory.putFlag SEC_STAT.CHALV true).flag SEC_STAT.CHALV = true
    ∧ (∀ n ∈ [0, 1], ((locked 2).put SEC_STAT.ACCESS n).get SEC_STAT.ACCESS = n) ∧ tenantsActive withMemory = false
    ∧ tenantsActive ((channels.put (CHS_VI_CFG.TENANT 3) 5)) = true := by decide +kernel

/-- The owner's password is one whose hash is kept. -/
theorem test_witness_AccessCommands_right :
    ∃ s : State, Config.sha384 (bytesOf s.sec.salt 16 ++ bytesOfWords (authWords s 4)) = s.sec.hash ∧ s.sec.gen ≠ 0 ∧ s.flag SEC_STAT.LOCKOUT = false :=
  ⟨{ locked 2 with sec := { (locked 2).sec with hash := Config.sha384 (bytesOf (locked 2).sec.salt 16 ++ bytesOfWords (authWords (locked 2) 4)) } },
    rfl, by decide +kernel, by decide +kernel⟩

theorem test_witness_I3cTarget :
    (let s := { withMemory.put PWR_MODSTAT.LIFE life.RUN with i3c := { withMemory.i3c with addr := some 0x30 } }
     s.i3c.addr ≠ none ∧ s.lifecycle ≠ life.RETAIN ∧ s.lifecycle ≠ life.STANDBY ∧ s.lifecycle ≠ life.BOOT
       ∧ (∀ off ∈ [PROF_SEL.off, SEC_CMD.off, PWR_WAKE.off, FCU_REC.off], i3cReaches off = true) ∧ i3cReaches 0x600008 = false
       ∧ FCU_REC.off ≠ SEC_CMD.off) := by decide +kernel

/-! ### Record and replay -/

/-- RPL_STAT in this state. -/
def rplIn (n : Nat) : State := withMemory.put RPL_STAT.STATE n

/-- A record in the ring, at its tail. -/
def ringed (r : List Word) : State :=
  let s := (r.zip (List.range 8)).foldl (fun s (e : Word × Nat) => poke s (rplBase withMemory + 8 * e.2) e.1.toNat 8) withMemory
  s.put RPL_HEAD.HEAD 32

theorem test_witness_RecordCommands :
    (∀ n ∈ [1, 2, 3, 4], ∀ st ∈ [0, 1, 2, 3], let s := rplIn st
     taken s RPL_CMD.off (BitVec.ofNat 64 n) % 8 = n ∧ s.flag RPL_CMD.BUSY = false ∧ s.get RPL_STAT.STATE = st)
    ∧ (withMemory.putFlag RPL_CMD.BUSY true).flag RPL_CMD.BUSY = true
    ∧ notQuiet (hostWrite withMemory RPL_CMD.off 1) = false
    ∧ notQuiet (hostWrite (channels.put (CHS_VI_CFG.TENANT 3) 5) RPL_CMD.off 1) = true
    ∧ (let u := hostWrite withMemory RPL_CMD.off 4
       (rplRecords u (rplTail u) (rplUsed u / 32) (rplUsed u / 32)).2 = [])
    ∧ (let s := { rplIn 1 with rpl := { withMemory.rpl with wait := .release, cords := [2] }, cords := [(2, { Core.zero with run := .held })] }
       s.rpl.wait = .release ∧ (s.cord 2).run = .held ∧ triadRuns s (s.triadOf 2) = true) := by decide +kernel

/-- The journal begins with this record. -/
theorem test_witness_RecordCommands_start :
    let s := ringed [0x00007F01, 0, 0, 0x77]
    let u := hostWrite s RPL_CMD.off 4
    ((rplRecords u (rplTail u) (rplUsed u / 32) (rplUsed u / 32)).2.head?.map jr.typ) = some rplType.START := by decide +kernel

theorem test_witness_Divergences :
    withMemory.rpl.divCord = none
    ∧ (let s := { withMemory with rpl := { withMemory.rpl with divCord := some 5, divNow := true } }
       s.rpl.divCord = some 5 ∧ s.rpl.divNow = true ∧ (3 : Nat) < 5) := by decide +kernel

/-- A replay whose journal is this. -/
def replays (l : List (List Word)) : State := { rplIn 3 with rpl := { withMemory.rpl with journal := l } }

/-- A record of this type for cord 2 at a retire count, and its value. -/
def rec2 (typ retire value : Nat) : List Word := [BitVec.ofNat 64 (typ + 2 * 2 ^ 8 + 2 ^ 16), 0, BitVec.ofNat 64 retire, BitVec.ofNat 64 value, 0, 0, 0, 0]

theorem test_witness_ReplayInputs :
    withMemory.replaying = false
    ∧ (∀ t ∈ [rplType.GAP, rplType.EVENT, rplType.SLIP, rplType.RECOVERY, rplType.COMPLETION], let s := replays [rec2 t 0 7]
       s.stopped = false ∧ s.replaying = true ∧ s.rpl.journal = rec2 t 0 7 :: [] ∧ jr.typ (rec2 t 0 7) = t
         ∧ jr.retire (rec2 t 0 7) = (s.cord (jr.cord (rec2 t 0 7))).retire.toNat)
    ∧ (let s := replays [rec2 rplType.RECOVERY 9 0, rec2 rplType.RECOVERY 0 7]
       recordDue s (rec2 rplType.RECOVERY 9 0) = false ∧ recordDue s (rec2 rplType.RECOVERY 0 7) = true
         ∧ s.rpl.journal = [rec2 rplType.RECOVERY 9 0] ++ rec2 rplType.RECOVERY 0 7 :: [])
    ∧ (let kn : Knot := { handler := 0x40, home := hm 0, sp := 0, cache := [], opened := 0, reads := [], writes := [], bytes := [] }
       ((replays []).setCord 2 { core0 with knot := some kn }).cord 2 = { core0 with knot := some kn }) := by decide +kernel

/-! ### Triads -/

/-- Cord 3 runs on triad 3, whose state, retries and failed words of checkpoint copies are these. -/
def triad3 (st retry : Nat) (badCk : List (Nat × Nat)) : State :=
  let s := (withMemory.put (TRI_STAT.TSTATE 3) st).setCord 3 core0
  s.setTriad 3 { s.triad 3 with retries := if retry = 0 then [] else [(0, retry)], ckptBad := badCk }

theorem test_witness_TriadVotes :
    (∀ st ∈ [tst.VOTED3, tst.DEGRADED], ∀ n ∈ [0, 1, 2], ∀ b ∈ [[], [(0, 5)]], let s := triad3 st n b
     s.get (TRI_STAT.TSTATE 3) = st ∧ s.voted = true ∧ (s.cord 3).run.live = true ∧ (s.cord 3).paused = false ∧ s.fcu.safe = none
       ∧ retriesNow s 3 0 = n ∧ (s.triad 3).resync = none ∧ (s.triad 3).copyBad 0 = !b.isEmpty ∧ mget (s.triad 3).kinds 0 0 < 4)
    ∧ ¬ (3 : Nat) ≤ 2 ∧ (3 : Nat) ≤ 3
    ∧ (withMemory.put MOD_MODE.MODE 6).voted = false := by decide +kernel

theorem test_witness_SuspectStrand :
    (let s := triad3 tst.VOTED3 2 []
     s.voted = true ∧ s.get (TRI_STAT.TSTATE 3) = tst.VOTED3 ∧ (s.cord 3).run.live = true ∧ (s.cord 3).paused = false ∧ s.fcu.safe = none
       ∧ 2 ≤ retriesNow s 3 0)
    ∧ (1 : Nat) ∈ [1] ∧ suspect withMemory 3 [1] = 1 ∧ suspect withMemory 3 [] = 2 := by decide +kernel

theorem test_witness_CordHalts :
    (∀ b ∈ [[], [(0, 5)]], let s := triad3 tst.VOTED3 0 b
     (s.cord (s.cordOf 3 0)).knot = none ∧ (s.triad 3).copyBad 0 = !b.isEmpty)
    ∧ withMemory.cordCount = 48 ∧ withMemory.flag (TRI_STAT.halt 3 0) = false
    ∧ (withMemory.putFlag (TRI_STAT.halt 3 0) true).flag (TRI_STAT.halt (withMemory.triadOf 3) (withMemory.shareOf 3)) = true := by decide +kernel

/-- Strand 1 of triad 3 resynchronises, so many groups before the majority stops; the limit of the minute is this. -/
def resyncing (left limit : Nat) (badCk : List (Nat × Nat)) : State :=
  let s := (triad3 tst.VOTED3 0 badCk).put (TRI_CFG.RSLIM 3) limit
  s.setTriad 3 { s.triad 3 with resync := some { strand := 1, opened := 0, left := left }, counts := [(1, 1)] }

theorem test_witness_ResyncsEnd :
    (withMemory.triad 3).resync = none
    ∧ (∀ l ∈ [0, 1, 2], ∀ n ∈ [0, 1, 5], ∀ b ∈ [[], [(0, 5)]], let s := resyncing l n b
       let u := if l = 0 then s else resyncStop s 3 { strand := 1, opened := 0, left := l }
       (s.triad 3).resync = some { strand := 1, opened := 0, left := l } ∧ (u.triad 3).copyBad 0 = !b.isEmpty ∧ u.recorded (s.cordOf 3 0) = false
         ∧ u.get (TRI_CFG.RSLIM 3) = n ∧ mget (u.triad 3).counts 1 0 + 1 = 2 ∧ u.get (TRI_STAT.TSTATE 3) = tst.VOTED3)
    ∧ (let kn : Knot := { handler := 0x40, home := hm 0, sp := 0, cache := [], opened := 0, reads := [], writes := [], bytes := [] }
       (((resyncing 1 0 []).setCord 3 { core0 with knot := some kn }).cord 3).knot = some kn) := by
  decide +kernel

/-- Split execution: cords 6 and 7 of triad 3 run. -/
def split3 (retry : Nat) (badCk : List (Nat × Nat)) (fenced : Bool) : State :=
  let s := ((((withMemory.put MOD_MODE.MODE 6).put (TRI_STAT.TSTATE 3) tst.SPLIT).setCord 6 core0).setCord 7 core0).putFlag (TRI_STAT.fenced 3 2) fenced
  s.setTriad 3 { s.triad 3 with retries := if retry = 0 then [] else [(0, retry), (1, retry)], ckptBad := badCk }

theorem test_witness_StrandChecks :
    (∀ n ∈ [0, 2], ∀ b ∈ [[], [(0, 5), (1, 5)]], ∀ f ∈ [false, true], let s := split3 n b f
     s.voted = false ∧ s.fcu.safe = none ∧ s.strandOf 3 0 = 0 ∧ s.strandOf 3 1 = 1 ∧ (s.cord 6).run.live = true ∧ (s.cord 6).paused = false
       ∧ (s.cord 6).knot = none ∧ retriesNow s 3 0 = n ∧ (s.triad 3).copyBad 0 = !b.isEmpty ∧ spareFree s 3 = !f)
    ∧ withMemory.voted = true ∧ ((split3 0 [] false).setCord 6 { core0 with run := .halted } |> fun s => (s.cord 6).run.live = false) := by
  decide +kernel

/-- The migration of cord 7 off strand 1 has come to this stage. -/
def moving (p : MigPhase) (badCk : List (Nat × Nat)) (es : List SbEnt) : State :=
  let s := (split3 0 badCk false).setCord 7 { core0 with paused := true, sbuf := es }
  s.setTriad 3 { s.triad 3 with mig := some { cord := 1, strand := 1, phase := p, opened := 0 } }

theorem test_witness_Migrations :
    (∀ p ∈ [MigPhase.drain, .power, .copy, .finish], ∀ b ∈ [[], [(1, 5)]], let s := moving p b []
     (s.triad 3).mig = some { cord := 1, strand := 1, phase := p, opened := 0 } ∧ (s.triad 3).copyBad 1 = !b.isEmpty ∧ s.cordOf 3 1 = 7 ∧ (s.cord 7).sbuf = [])
    ∧ (withMemory.triad 3).mig = none
    ∧ (let s := moving .drain [] [sentStore]
       (((drainList regWrite 7 [] (s.cord 7).sbuf s).cord 7).sbuf.all SbEnt.sent = true))
    ∧ (let s := moving .finish [] []
       let r := raise (s.setTriad 3 { s.triad 3 with mig := none }) (dom.strand 3 1) .CE
       r.recorded 7 = false) := by decide +kernel

/-- A halted cord with a valid context, on a triad that runs, for a tenant that holds it. -/
def resumable : State :=
  ((withMemory.putFlag (TRI_STAT.halt 3 0) true).putFlag (TRI_STAT.ctxv 3 0) true).put (LOOM_CORDA.STATE 3) 1

theorem test_witness_ResumesAndSelfTests :
    (let u := hostWrite resumable (TRI_CTL.off 3) 1
     0 ∈ resumable.places ∧ taken resumable (TRI_CTL.off 3) 1 / 2 ^ 0 % 2 = 1 ∧ u.flag (TRI_STAT.halt 3 0) = true ∧ u.flag (TRI_STAT.ctxv 3 0) = true
       ∧ u.get (TRI_STAT.TSTATE 3) ≠ tst.FAILED ∧ u.get (TRI_STAT.TSTATE 3) ≠ tst.UNUSABLE ∧ u.get (LOOM_CORDA.STATE (u.cordOf 3 0)) ≠ 0)
    ∧ 1 ∉ resumable.places ∧ (withMemory.triad 3).selfTest = false
    ∧ (let s := withMemory.setTriad 3 { withMemory.triad 3 with selfTest := true }
       (s.triad 3).selfTest = true)
    ∧ (let f : LaneFail := { lane := 37, pattern := 4, pol := true }
       f.lane < 38 ∧ f.pattern < 5 ∧ ¬ (({ f with lane := 38 } : LaneFail).lane < 38)) := by decide +kernel

/-! ### The debugger, stores and the whole module -/

/-- Access OWNER_OPEN; cord 3 in this state. -/
def opened (run : Run) (kn : Option Knot) : State :=
  (withMemory.put SEC_STAT.ACCESS 1).setCord 3 { core0 with run := run, knot := kn, cache := [{ val := 7, home := 0, attr := .cached }], brks := [(2, 0x40)] }

theorem test_witness_DebugCommands :
    (∀ r ∈ [Run.running, .waitEvent, .debug], let s := opened r none
     1 ≤ s.get SEC_STAT.ACCESS ∧ 3 < s.cordCount ∧ s.stopped = false ∧ (s.cord 3).run = r ∧ (s.cord 3).knot = none
       ∧ (s.cord 3).answers = [] ∧ (s.cord 3).paused = false)
    ∧ (let kn : Knot := { handler := 0x40, home := hm 0, sp := 0, cache := [], opened := 0, reads := [], writes := [], bytes := [] }
       ((opened .running (some kn)).cord 3).knot = some kn)
    ∧ (((opened .debug none).cord 3).cache[0]? = some { val := 7, home := 0, attr := .cached }) ∧ ¬ 1 ≤ withMemory.get SEC_STAT.ACCESS
    ∧ (33#64).toNat > 32 ∧ (32#64).toNat ≤ 32 := by decide +kernel

theorem test_witness_DebugReads :
    (let s := opened .debug none
     1 ≤ s.get SEC_STAT.ACCESS ∧ 3 < s.cordCount ∧ s.stopped = false ∧ (s.cord 3).cache[0]? = some { val := 7, home := 0, attr := .cached } ∧ (s.cord 3).cache.length ≤ 1
       ∧ mget? (s.cord 3).brks 2 = some 0x40 ∧ mget? (s.cord 3).brks 5 = none ∧ (crValue s (.cord 3) 0).isSome = true)
    ∧ ¬ 1 ≤ withMemory.get SEC_STAT.ACCESS := by decide +kernel

theorem test_witness_EmptyQueueIdles :
    State.reset.pending = [] ∧ ((∀ c, (State.reset.cord c).sbuf = []) ∧ State.reset.tlbi = [] ∧ State.reset.loom.flushes = []
      ∧ (∀ h, (State.reset.ctl h).merge = []) ∧ (∀ p, (State.reset.port p).outs = []) ∧ State.reset.chs.writes = []) ∧ State.reset.time.loom = false
    ∧ (let s := { withMemory with time := { withMemory.time with loom := true } }
       s.time.now + 1 < s.time.pickStart + 200 * (s.beat + 1)) := by
  refine ⟨rfl, ⟨fun _ => rfl, rfl, rfl, fun _ => rfl, fun _ => rfl, rfl⟩, rfl, by decide +kernel⟩

theorem test_witness_StepsKeepMemoryCanonical :
    ∃ s t : State, s.mem.wf = true ∧ Sys2Proof.Machine.step s = .next t := ⟨State.reset, _, by decide +kernel, rfl⟩

theorem test_witness_DecodeEncodeAgree :
    (∃ i a c, conditionOf i = some (a, c)) ∧ ∃ a w i, insnOf a w = some i :=
  ⟨⟨_, .cord 0, 0, (rfl : conditionOf (.push (.cord 0) { cond := 0, s := false, imm := 0x3F9 }) = some (.cord 0, 0))⟩,
    ⟨.cord 0, 0x008003F9, _, rfl⟩⟩

theorem test_witness_DefinedWordsRefused : ∃ i, insnOf (.cord 0) 0x008003F9 = some i := ⟨_, rfl⟩

/-! ### The package (16) -/

/-- The example of R402: the TX lane 2 pair of channel port 29. -/
theorem test_land_of_port_29 :
    landAt 29 85 = some (.port 29 { transmit := true, lane := 2, positive := true })
      ∧ landAt 29 86 = some (.port 29 { transmit := true, lane := 2, positive := false }) := by decide

/-- R396, R403: the corner land carries the reference clock; 015/001 is not connected; there is no land 089/001. -/
theorem test_land_of_corner :
    landAt 1 1 = some (.control (.refclk true)) ∧ landAt 15 1 = some .nc ∧ landAt 89 1 = none := by decide

end Sys2Proof.Tests
end

section
/-! SUPPORT. Offsets that are assigned to no register (R6): what a host read of one answers, and why no write reaches
one. Only the doorbells of a page have a meaning beside `hostWrite` there, and each of them is an assigned register. -/

namespace Sys2Proof.Machine

/-! ### The doorbell pages -/

theorem pageVi_isSome (off : Nat) : (pageVi off).isSome = true ↔ 0x8000000 ≤ off ∧ off < 0x9000000 := by
  simp [pageVi]

/-- The rows of the doorbell pages are those of the block VI. -/
theorem rowsAt_of_pageVi {off : Nat} (h : (pageVi off).isSome = true) : rowsAt off = rows.vi := by
  obtain ⟨hlo, hhi⟩ := (pageVi_isSome off).mp h
  have hb : 0x80 ≤ off / 0x100000 ∧ off / 0x100000 < 0x90 := by omega
  obtain ⟨b, hoff⟩ : ∃ b, off / 0x100000 = b := ⟨_, rfl⟩
  rw [hoff] at hb
  obtain ⟨hblo, hbhi⟩ := hb
  unfold rowsAt
  rw [hoff]
  interval_cases b <;> rfl

/-- Every doorbell of every page is an assigned register (R207). -/
theorem rowAt_doorbell_ne_none {off : Nat} (hpage : (pageVi off).isSome = true) (hslot : off % 0x1000 < 0x400)
    (halign : off % 0x1000 % 0x10 = 0) : rowAt off ≠ none := by
  intro hnone
  rw [rowAt, rowsAt_of_pageVi hpage] at hnone
  obtain ⟨hlo, hhi⟩ := (pageVi_isSome off).mp hpage
  refine List.find?_eq_none.mp hnone _ (.head _) ?_
  simp only [RegRow.holds, Bool.and_eq_true, decide_eq_true_eq, beq_iff_eq]
  omega

/-! ### Reads -/

theorem readReg_unassigned (s : State) {off : Nat} (h : rowAt off = none) : readReg s off = 0 := by
  simp [readReg, h]

theorem readClears_unassigned (s : State) {off : Nat} (h : rowAt off = none) : readClears s off = s := by
  simp [readClears, h]

/-- A host read of no register answers the word 0 and clears nothing. -/
theorem hostRead_unassigned (s : State) {off : Nat} (h : rowAt off = none) : hostRead s off = { s with resp := [0] } := by
  rw [hostRead, readClears_unassigned s h, readReg_unassigned s h]
  rfl

/-! ### Writes -/

/-- Without a register there is no field to take, refuse or lock. -/
theorem writeFields_unassigned (s : State) {off : Nat} (w : Nat) (h : rowAt off = none) :
    writeFields s off w = { word := s.rd off, taken := 0, refused := [], locked := [] } := by
  simp [writeFields, h]

theorem hostWrite_unassigned (s : State) {off : Nat} (v : Word) (h : rowAt off = none) : hostWrite s off v = s := by
  simp [hostWrite, writeFields_unassigned s _ h, h, cfgErr]

/-- In a page, open or not, a write beside its registers is ignored: it is at no doorbell. -/
theorem pageWrite_unassigned (s : State) (who : Who) {off : Nat} (v : Word) (hpage : (pageVi off).isSome = true)
    (h : rowAt off = none) : pageWrite s who off v = s := by
  have hdoor : ¬ (off % 0x1000 < 0x400 ∧ off % 0x1000 % 0x10 = 0) :=
    fun ⟨hslot, halign⟩ => rowAt_doorbell_ne_none hpage hslot halign h
  unfold pageWrite
  simp only [if_neg hdoor, hostWrite_unassigned s v h, ite_self]

theorem plainWrite_unassigned (s : State) (who : Who) {off : Nat} (v : Word) (h : rowAt off = none) :
    plainWrite s who off v = s := by
  unfold plainWrite
  split
  case isTrue hpage => exact pageWrite_unassigned s who v hpage h
  case isFalse => simp only [h]

theorem rowAt_modRst_ne_none : rowAt MOD_RST.off ≠ none := by decide

/-- A write by anyone at no register is ignored: the one register that `plainWrite` leaves to another is assigned. -/
theorem regWrite_unassigned (s : State) (who : Who) {off : Nat} (v : Word) (h : rowAt off = none) :
    regWrite s who off v = s := by
  have hrst : off ≠ MOD_RST.off := by
    rintro rfl
    exact rowAt_modRst_ne_none h
  rw [regWrite, if_neg hrst, plainWrite_unassigned s who v h]

/-- A write that is alone in its fclk meets no ordering around MOD_CFGERR (R12). -/
theorem doRegisterWrite_single (off : Nat) (v : Word) (s : State) : doRegisterWrite off v [] s = regWrite s host off v := by
  by_cases h : off = MOD_CFGERR.off <;> simp [doRegisterWrite, h]

theorem exec_registerWrite (off : Nat) (v : Word) (same : List RegWrite) (s : State) :
    exec (.registerWrite off v same) s = .next (doRegisterWrite off v same s) := by
  rfl

/-- REGISTER_WRITE with one write is the host's write of that register. -/
theorem completes_registerWrite_single (off : Nat) (v : Word) (s : State) :
    Completes (.registerWrite off v []) s (· = regWrite s host off v) :=
  ⟨_, exec_registerWrite off v [] s, doRegisterWrite_single off v s⟩

/-! ### R6 -/

/-- Settles O29: no part of a read or a write finds a register at the offset, and no doorbell stands there. -/
theorem unassignedOffsetsReadZero : Obligations.UnassignedOffsetsReadZero := by
  intro s off h
  refine ⟨readReg_unassigned s h, hostRead_unassigned s h, fun v => ?_, fun who v => regWrite_unassigned s who v h⟩
  simpa only [regWrite_unassigned s host v h] using completes_registerWrite_single off v s

end Sys2Proof.Machine
end

section
/-! SUPPORT. The voter's choice of a suspect strand after a persistent no-majority, and what fencing it leaves (R45, R47). A
rule of R47 narrows the strands still in question: `narrow` says how, and the choice is two such steps and the latest letter. -/

namespace Sys2Proof.Machine

/-! ### The greatest of a list -/

theorem max?_eq_foldl_max {q : List Nat} (h : q ≠ []) : q.max? = some (q.foldl max 0) := by
  cases q with
  | nil => exact absurd rfl h
  | cons a q => rw [List.max?_cons', List.foldl_cons, Nat.zero_max]

/-- The greatest count of a list of strands is that of one of them, and none has more. -/
theorem foldl_max_count {q : List Nat} (n : Nat → Nat) (h : q ≠ []) :
    (∃ k ∈ q, n k = q.foldl (fun m k => max m (n k)) 0) ∧ ∀ k ∈ q, n k ≤ q.foldl (fun m k => max m (n k)) 0 := by
  have hmax := max?_eq_foldl_max (mt List.map_eq_nil_iff.mp h : q.map n ≠ [])
  rw [List.foldl_map] at hmax
  obtain ⟨hmem, hle⟩ := List.max?_eq_some_iff.mp hmax
  exact ⟨List.mem_map.mp hmem, fun k hk => hle _ (List.mem_map_of_mem hk)⟩

/-! ### The rules of R47 -/

/-- A rule keeps the strands that it names; one that names none of them leaves the set unchanged. -/
def narrow (q : List Nat) (p : Nat → Bool) : List Nat := if (q.filter p).isEmpty then q else q.filter p

theorem mem_narrow {q : List Nat} {p : Nat → Bool} {k : Nat} : k ∈ narrow q p ↔ k ∈ q ∧ ∀ j ∈ q, p j = true → p k = true := by
  unfold narrow
  split
  case isTrue hnone =>
    have hno : ∀ j ∈ q, ¬ p j = true := List.filter_eq_nil_iff.mp (List.isEmpty_iff.mp hnone)
    exact ⟨fun hk => ⟨hk, fun j hj hp => absurd hp (hno j hj)⟩, And.left⟩
  case isFalse hsome =>
    obtain ⟨j, hj⟩ := List.exists_mem_of_ne_nil _ (mt List.isEmpty_iff.mpr hsome)
    obtain ⟨hjq, hjp⟩ := List.mem_filter.mp hj
    rw [List.mem_filter]
    exact and_congr_right fun _ => ⟨fun hp _ _ _ => hp, fun hp => hp j hjq hjp⟩

theorem narrow_ne_nil {q : List Nat} (p : Nat → Bool) (h : q ≠ []) : narrow q p ≠ [] := by
  unfold narrow
  split
  case isTrue => exact h
  case isFalse hsome => exact mt List.isEmpty_iff.mpr hsome

/-- Rule 1: the strands that a detection named. -/
def detectedStrands (seen : List Nat) : List Nat := narrow [0, 1, 2] (fun k => seen.contains k)

/-- Rule 2: those with the most resynchronisations among the strands in question. -/
def mostCounted (n : Nat → Nat) (q : List Nat) : List Nat := narrow q (fun k => n k == q.foldl (fun m k => max m (n k)) 0)

/-- Rule 3 takes the latest letter of what rules 1 and 2 leave. -/
theorem suspect_eq (s : State) (t : Nat) (seen : List Nat) :
    suspect s t seen = (mostCounted (fun k => mget (s.triad t).counts k 0) (detectedStrands seen)).foldl max 0 := rfl

theorem mem_detectedStrands {seen : List Nat} {k : Nat} :
    k ∈ detectedStrands seen ↔ k < 3 ∧ ∀ j, j < 3 → j ∈ seen → k ∈ seen := by
  have hthree : ∀ j, j ∈ [0, 1, 2] ↔ j < 3 := fun j => by simp only [List.mem_cons, List.not_mem_nil, or_false]; omega
  simp only [detectedStrands, mem_narrow, hthree, List.contains_iff_mem]

theorem detectedStrands_ne_nil (seen : List Nat) : detectedStrands seen ≠ [] := narrow_ne_nil _ (List.cons_ne_nil _ _)

theorem mem_mostCounted {n : Nat → Nat} {q : List Nat} {k : Nat} : k ∈ mostCounted n q ↔ k ∈ q ∧ ∀ j ∈ q, n j ≤ n k := by
  simp only [mostCounted, mem_narrow, beq_iff_eq]
  refine and_congr_right fun hk => ?_
  obtain ⟨⟨m, hm, hmost⟩, hle⟩ := foldl_max_count n (List.ne_nil_of_mem hk)
  constructor
  · intro h j hj
    exact (h m hm hmost).symm ▸ hle j hj
  · intro h j _ _
    exact Nat.le_antisymm (hle k hk) (hmost ▸ h m hm)

theorem mostCounted_ne_nil (n : Nat → Nat) {q : List Nat} (h : q ≠ []) : mostCounted n q ≠ [] := narrow_ne_nil _ h

/-- The suspect is among the strands that rules 1 and 2 leave, and of those it has the latest letter. -/
theorem suspect_spec (s : State) (t : Nat) (seen : List Nat) :
    let left := mostCounted (fun k => mget (s.triad t).counts k 0) (detectedStrands seen)
    suspect s t seen ∈ left ∧ ∀ k ∈ left, k ≤ suspect s t seen := by
  rw [suspect_eq]
  exact List.max?_eq_some_iff.mp (max?_eq_foldl_max (mostCounted_ne_nil _ (detectedStrands_ne_nil seen)))

theorem suspect_mem_detectedStrands (s : State) (t : Nat) (seen : List Nat) : suspect s t seen ∈ detectedStrands seen :=
  (mem_mostCounted.mp (suspect_spec s t seen).1).1

theorem suspect_lt (s : State) (t : Nat) (seen : List Nat) : suspect s t seen < 3 :=
  (mem_detectedStrands.mp (suspect_mem_detectedStrands s t seen)).1

/-- A detection names the suspect where it names any strand. -/
theorem suspect_mem_of_mem (s : State) (t : Nat) {seen : List Nat} {k : Nat} (hk : k < 3) (hseen : k ∈ seen) :
    suspect s t seen ∈ seen :=
  (mem_detectedStrands.mp (suspect_mem_detectedStrands s t seen)).2 k hk hseen

/-- No strand as much named as the suspect has more resynchronisations, and one with as many has an earlier letter. -/
theorem counts_le_suspect (s : State) (t : Nat) {seen : List Nat} {k : Nat} (hk : k < 3) (hne : k ≠ suspect s t seen)
    (hseen : k ∈ seen ↔ suspect s t seen ∈ seen) :
    let n (j : Nat) : Nat := mget (s.triad t).counts j 0
    n k < n (suspect s t seen) ∨ (n k = n (suspect s t seen) ∧ k < suspect s t seen) := by
  intro n
  obtain ⟨hleft, hlast⟩ := suspect_spec s t seen
  obtain ⟨hq, hmost⟩ := mem_mostCounted.mp hleft
  have hkq : k ∈ detectedStrands seen :=
    mem_detectedStrands.mpr ⟨hk, fun j hj hjs => hseen.mpr (suspect_mem_of_mem s t hj hjs)⟩
  have hle : n k ≤ n (suspect s t seen) := hmost k hkq
  rcases Nat.lt_or_eq_of_le hle with hlt | heq
  · exact .inl hlt
  · have hkleft : k ∈ mostCounted n (detectedStrands seen) := mem_mostCounted.mpr ⟨hkq, fun j hj => heq ▸ hmost j hj⟩
    exact .inr ⟨heq, Nat.lt_of_le_of_ne (hlast k hkleft) hne⟩

/-! ### What fencing a strand leaves -/

theorem State.flag_putFlag_same (s : State) (f : Fld) (b : Bool) (hf : f.lsb + f.w ≤ 64) (hw : f.w = 1) :
    (s.putFlag f b).flag f = b := by
  rw [State.flag, State.putFlag, State.get_put_same s f _ hf, hw]
  cases b <;> rfl

theorem State.flag_put_reg (s : State) (f g : Fld) (v : Nat) (h : g.off ≠ f.off) : (s.put f v).flag g = s.flag g := by
  rw [State.flag, State.flag, State.get_put_reg s f g v h]

theorem State.flag_put_bits (s : State) (f g : Fld) (v : Nat) (hf : f.lsb + f.w ≤ 64)
    (h : g.lsb + g.w ≤ f.lsb ∨ f.lsb + f.w ≤ g.lsb) : (s.put f v).flag g = s.flag g := by
  rw [State.flag, State.flag, State.get_put_bits s f g v hf h]

/-- The registers of the triads lie above those of the power domains. -/
theorem triStat_off_ne_pwrDom_off (t : Nat) {d : Nat} (hd : d < 144) : TRI_STAT.off t ≠ PWR_DOM.off d := by
  unfold TRI_STAT.off PWR_DOM.off
  omega

section
variable {t k : Nat}

theorem dom_strand_lt (ht : t < 48) (hk : k < 3) : dom.strand t k < 144 := by
  unfold dom.strand
  omega

/-- A strand's domain set: its state, and the strand's ON bit of its triad. -/
theorem setDom_strand (s : State) (cur : Nat) (ht : t < 48) (hk : k < 3) :
    setDom s (dom.strand t k) cur
      = (s.put (PWR_DOM.CUR (dom.strand t k)) cur).putFlag (TRI_STAT.on t k) (cur == pst.ON) := by
  have htri : dom.strand t k / 3 = t := by unfold dom.strand; omega
  have hplace : dom.strand t k % 3 = k := by unfold dom.strand; omega
  simp only [setDom, if_pos (dom_strand_lt ht hk), htri, hplace]

theorem flag_fenced_fenceStrand (s : State) (ht : t < 48) (hk : k < 3) :
    (fenceStrand s t k).flag (TRI_STAT.fenced t k) = true := by
  have hwidth : 3 + k + 1 ≤ 64 := by omega
  have hon : 6 + k + 1 ≤ 64 := by omega
  have hbelow : 3 + k + 1 ≤ 6 + k := by omega
  rw [fenceStrand, setDom_strand _ _ ht hk, State.putFlag, State.flag_put_bits _ _ _ _ hon (.inl hbelow),
    State.flag_put_reg _ _ _ _ (triStat_off_ne_pwrDom_off t (dom_strand_lt ht hk)), State.flag_putFlag_same _ _ _ hwidth rfl]

theorem get_cur_fenceStrand (s : State) (ht : t < 48) (hk : k < 3) :
    (fenceStrand s t k).get (PWR_DOM.CUR (dom.strand t k)) = pst.OFF := by
  rw [fenceStrand, setDom_strand _ _ ht hk, State.putFlag,
    State.get_put_reg _ _ _ _ (triStat_off_ne_pwrDom_off t (dom_strand_lt ht hk)).symm,
    State.get_put_same _ (PWR_DOM.CUR _) _ (by decide : 2 + 2 ≤ 64)]
  rfl

/-- The triad's state, written once a strand is fenced, leaves it fenced and off. -/
theorem fenced_off_put_tstate (s : State) (v : Nat) (ht : t < 48) (hk : k < 3) :
    let u := (fenceStrand s t k).put (TRI_STAT.TSTATE t) v
    u.flag (TRI_STAT.fenced t k) = true ∧ u.get (PWR_DOM.CUR (dom.strand t k)) = pst.OFF := by
  have habove : 0 + 3 ≤ 3 + k := Nat.le_add_right 3 k
  constructor
  · rw [State.flag_put_bits _ _ _ _ (by decide : 0 + 3 ≤ 64) (.inr habove), flag_fenced_fenceStrand s ht hk]
  · rw [State.get_put_reg _ _ _ _ (triStat_off_ne_pwrDom_off t (dom_strand_lt ht hk)).symm, get_cur_fenceStrand s ht hk]

end

/-! ### A comparison without a majority -/

/-- The strands that the detections of the failed attempts name, those of this comparison with them. -/
def seenWith (s : State) (t : Nat) (cmp : Comparison) : List Nat :=
  let old := mget (s.triad t).detected 0 []
  old ++ cmp.detected.filter (fun x => x < 3 && !old.contains x)

/-- After the second retry: the loss is recorded and counted, the cord halts and its retries are forgotten (R45). -/
def haltUnresolved (s : State) (t diff : Nat) (cmp : Comparison) : State :=
  (haltCord ((lastDis s t 0 diff (cmpCode cmp.kind) 2).bump (TRI_CNT.FAILRETRY t) 1) t 0).modTriad t
    (fun x => { x with detected := mdel x.detected 0, retries := mdel x.retries 0 })

/-- A triad of three strands that disagree after the second retry goes on as a pair, without the suspect (R45, R47). -/
theorem voteSplit_three (s : State) (t diff : Nat) (cmp : Comparison) (hthree : s.get (TRI_STAT.TSTATE t) = tst.VOTED3)
    (hretries : 2 ≤ retriesNow s t 0) :
    let h := haltUnresolved s t diff cmp
    voteSplit s t diff cmp
      = (fenceStrand h t (suspect h t (seenWith s t cmp))).put (TRI_STAT.TSTATE t) tst.DEGRADED := by
  have hvoted : (s.tstate t == tst.VOTED3) = true := beq_iff_eq.mpr hthree
  rw [voteSplit, if_neg (Nat.not_lt.mpr hretries)]
  simp only [hvoted, if_true]
  rfl

theorem vote_noMajority_three (s : State) (t : Nat) (cmp : Comparison) (hvoted : s.voted = true)
    (hthree : s.get (TRI_STAT.TSTATE t) = tst.VOTED3) (hlive : (s.cord t).run.live = true) (hpaused : (s.cord t).paused = false)
    (hsafe : s.fcu.safe = none) (hresult : cmp.result = .noMajority) :
    vote s t cmp = voteSplit s t (diffBits (strandsInUse s t)) cmp := by
  simp [vote, State.tstate, hvoted, hthree, hlive, hpaused, hsafe, hresult]

theorem exec_retireGroupVote (s : State) (t : Nat) (cmp : Comparison) :
    exec (.retireGroupVote t cmp) s = .next (if t < 48 then vote s t cmp else s) := by
  rfl

/-! ### R47 -/

/-- Settles O58: the three rules leave one strand, the suspect, and RETIRE_GROUP_VOTE fences it and turns its domain off. -/
theorem suspectStrandFenced : Obligations.SuspectStrandFenced := by
  constructor
  · intro s t seen
    exact ⟨suspect_lt s t seen, fun k hk hne =>
      ⟨suspect_mem_of_mem s t hk, counts_le_suspect s t hk hne⟩⟩
  · intro s t cmp ht hvoted hthree hlive hpaused hsafe hresult hretries
    refine ⟨_, exec_retireGroupVote s t cmp, haltUnresolved s t (diffBits (strandsInUse s t)) cmp, ?_⟩
    rw [if_pos ht, vote_noMajority_three s t cmp hvoted hthree hlive hpaused hsafe hresult, voteSplit_three s t _ cmp hthree hretries]
    exact ⟨rfl, fenced_off_put_tstate _ _ ht (suspect_lt _ t _)⟩

end Sys2Proof.Machine
end

section
/-! SUPPORT. Divides and remainders by zero (R102): what an instruction with a failed condition leaves, and what one whose work on the
stack ends in a trap leaves. -/

namespace Sys2Proof.Machine

/-! ### A failed condition -/

/-- An instruction that has changed nothing before its retirement leaves its core but for what retirement counts (R78). -/
theorem retire_unchanged {s : State} {a : Agent} {n : Nat} (hq : Quiet s a n) (before : Core) (next : Option Word) (r : Word) :
    RetiresTo s a (next.getD ((s.core a).pc + 4)) (s.core a) (retireFrom before s a next r) := by
  cases a with
  | cord c =>
    obtain ⟨_, _, _, hplain⟩ := hq
    exact ⟨_, retire_cord hplain before next r, rfl, rfl, rfl⟩
  | shuttle m =>
    obtain ⟨_, _, hempty, _⟩ := hq
    obtain ⟨k', ht, hk'⟩ := retire_shuttle hempty before next r
    exact ⟨k', ht, by rw [hk'], by rw [hk'], by rw [hk']; rfl⟩

/-- Whatever its body does, an instruction whose condition fails retires (R78). -/
theorem runInsn_condFails {s s1 : State} {a : Agent} {i : Instr} {cond : BitVec 3} {n : Nat} (lvl : Level) (kr : KnotRule)
    (body : InsnWord → State → State × Got Done) (h : Fetched s s1 a i) (hcond : condHolds (s1.core a).fl cond = false)
    (hq : Quiet s1 a n) : RetiresTo s1 a ((s1.core a).pc + 4) (s1.core a) (runInsn a i cond lvl kr body s) := by
  have ⟨_, hwants, _⟩ := hq
  have htry : tryInsn a i cond lvl kr body (makeRoom s a) = retire s1 a none 0 := by
    simp [tryInsn, frontEnd, h.noBreak, h.fetched, andThen, h.wellFormed, hcond]
  have hretires : RetiresTo s1 a ((s1.core a).pc + 4) (s1.core a) (retire s1 a none 0) := retire_unchanged hq _ none 0
  have hrun : runInsn a i cond lvl kr body s = retire s1 a none 0 := by
    simp only [runInsn, h.ready, orWait, htry, wanting_settled (hretires.settled hwants)]
    rfl
  rw [hrun]
  exact hretires

/-! ### A trap of the running instruction -/

theorem EntersLevel.ne_U {s : State} {a : Agent} {cause : Nat} {lvl l : Level} {nested : Bool}
    (h : EntersLevel s a cause lvl l nested) : l ≠ .U := by
  obtain ⟨_, _, rfl, _⟩ | ⟨_, _, _, rfl, _⟩ | ⟨_, _, rfl, _⟩ := h <;> decide

/-- A trap taken at H stays at H (R93). -/
theorem EntersLevel.eq_H {s : State} {a : Agent} {cause : Nat} {l : Level} {nested : Bool}
    (h : EntersLevel s a cause .H l nested) : l = .H := by
  have hroute : routeOf cause .H (s.agentTenant a) ≠ .S := by simp [routeOf]
  obtain ⟨hS, _⟩ | ⟨hS, _⟩ | ⟨_, _, rfl, _⟩ := h
  · exact absurd hS hroute
  · exact absurd hS hroute
  · rfl

theorem Core.setTr_sbuf (k : Core) (l : Level) (r : TrapRegs) : (k.setTr l r).sbuf = k.sbuf := by
  cases l <;> rfl

/-- An entry that stays at its level spills nothing. -/
theorem Core.entered_sbuf (k : Core) (tenant : Nat) (t : Trap) (epc : Word) (nested : Bool) :
    (k.entered tenant t epc k.lvl nested).sbuf = k.sbuf := by
  simp only [Core.entered, if_pos, Core.setTr_sbuf]

/-- Nothing is performed of a Shuttle's empty store buffer. -/
theorem settle_setCore {s : State} {a : Agent} {k : Core} (h : ∀ n, a = .shuttle n → k.sbuf = []) :
    settle (s.setCore a k) a = s.setCore a k := by
  cases a with
  | cord c => rfl
  | shuttle n =>
    have hempty : k.sbuf = [] := h n rfl
    have hsame : ({ k with sbuf := [] } : Core) = k := by rw [← hempty]
    simp [settle, drainShuttle, State.setCore, State.modShut, hempty, hsame]

theorem endInsn_trap {s0 s : State} {a : Agent} (t : Trap) (h : (s0.core a).knot = none) :
    endInsn s0 a (s, .trap t) = settle (trapNow s a t) a := by
  simp [endInsn, Core.inKnot, h]

/-- A precise trap of an agent with no open knot: EPC is PC, and the level it is routed from is the current one (R93). -/
theorem trapNow_precise {s : State} {a : Agent} (cause : Nat) (eval : Word) (h : (s.core a).knot = none) :
    trapNow s a { cause := cause, eval := eval } = takeTrap s a { cause := cause, eval := eval } (s.core a).pc (s.core a).lvl := by
  simp [trapNow, trapFrom, Core.inKnot, h]

/-- The causes of traps that enter no journal (R381) and push or clear nothing beyond R94. -/
abbrev Unrecorded (cause : Nat) : Prop :=
  cause ≠ trap.BUS_DARK ∧ cause ≠ trap.POISON ∧ cause ≠ trap.MACHINE_CHECK ∧ cause ≠ trap.STORE_BOUNCED ∧ cause ≠ trap.FP_IMPRECISE

/-- A precise trap with a cause that no journal records changes the agent's core as R94 says, and nothing else. -/
theorem settle_trapNow {s : State} {a : Agent} {cause : Nat} {l : Level} {nested : Bool} (eval : Word)
    (hcause : Unrecorded cause) (hclean : CleanTrap s a) (hl : EntersLevel s a cause (s.core a).lvl l nested) :
    TrapsTo s a cause eval (s.core a).pc l nested (settle (trapNow s a { cause := cause, eval := eval }) a) := by
  obtain ⟨hknot, _, hagent⟩ := hclean
  refine ⟨_, ?_, Core.entered_core (s.core a) (s.agentTenant a) { cause := cause, eval := eval } _ l nested hl.ne_U⟩
  rw [trapNow_precise cause eval hknot, takeTrap_eq hcause hl]
  refine settle_setCore fun n hn => ?_
  subst hn
  obtain ⟨hH, hempty⟩ := hagent
  have hlvl : l = (s.core (.shuttle n)).lvl := by
    rw [hH] at hl ⊢
    exact hl.eq_H
  rw [hlvl, Core.entered_sbuf, hempty]

theorem TrapsTo.settled {s t : State} {a : Agent} {cause : Nat} {eval epc : Word} {l : Level} {nested : Bool}
    (h : TrapsTo s a cause eval epc l nested t) (hw : s.wants = []) : t.wants = [] := by
  obtain ⟨k', ht, _⟩ := h
  cases a <;> rw [ht] <;> exact hw

/-- An instruction whose work on the entries it read ends in such a trap takes it before anything is popped or pushed. -/
theorem stackOp_traps {s s1 s2 : State} {a : Agent} {i : Instr} {cond : BitVec 3} {lvl l : Level} {kr : KnotRule}
    {reads pops pushes cause : Nat} {eval : Word} {nested : Bool} {f : Core → List Word → Got Out} {st : Stk} (h : Begins s s1 a i cond lvl)
    (hs : stackStep s1 a (opWord i) reads pops pushes = (s2, .ok st)) (hf : f (s2.core a) st.ins = .trap { cause := cause, eval := eval })
    (hcause : Unrecorded cause) (hclean : CleanTrap s2 a) (hl : EntersLevel s2 a cause (s2.core a).lvl l nested) :
    TrapsTo s2 a cause eval (s2.core a).pc l nested (runInsn a i cond lvl kr (stackOp a reads pops pushes f) s) := by
  have ⟨_, hwants, _⟩ := hclean
  have hbody : stackOp a reads pops pushes f (opWord i) s1 = (s2, .trap { cause := cause, eval := eval }) := by
    simp only [stackOp, hs, andThen, hf]
  have hend : endInsn (makeRoom s a) a (stackOp a reads pops pushes f (opWord i) s1)
      = settle (trapNow s2 a { cause := cause, eval := eval }) a := by
    rw [hbody, endInsn_trap _ h.noKnot]
  have htraps := settle_trapNow eval hcause hclean hl
  rw [← hend] at htraps
  have hrun := runInsn_begins kr (stackOp a reads pops pushes f) h (htraps.settled hwants)
  rw [hrun]
  exact htraps

/-! ### R102 -/

/-- The divides and remainders share one body; they differ in their results and FLAGS. -/
theorem exec_divide {mk : Agent → FO → Instr} (hmk : mk ∈ [Instr.divs, Instr.divu, Instr.rems, Instr.remu]) :
    ∃ quiet op, ∀ a f s, exec (mk a f) s = .next (runInsn a (mk a f) f.cond .U .runs (divOp a f.s quiet op) s) := by
  simp only [List.mem_cons, List.not_mem_nil, or_false] at hmk
  obtain rfl | rfl | rfl | rfl := hmk <;> exact ⟨_, _, fun _ _ _ => rfl⟩

/-- Settles O9: the body traps before it pops, and is not reached when the condition fails. -/
theorem divideByZeroTraps : Obligations.DivideByZeroTraps := by
  intro mk hmk s s1 a f
  obtain ⟨quiet, op, hexec⟩ := exec_divide hmk
  constructor
  · intro s2 x home hbegins hstack l nested hclean hl
    exact ⟨_, hexec a f s, stackOp_traps hbegins hstack (if_pos rfl) (by decide) hclean hl⟩
  · intro hfetched hcond hquiet
    exact ⟨_, hexec a f s, runInsn_condFails _ _ _ hfetched hcond hquiet⟩

end Sys2Proof.Machine
end

section
/-! SUPPORT. The floating-point compares and FCLASS (R111): the relation of two operands as FLAGS, the flags of an operation in FCSR, and
the class mask read off sign, exponent and fraction. -/

namespace Sys2Proof.Machine

/-! ### Compares -/

/-- Only the architected rest of the core matters to what an instruction retires to. -/
theorem RetiresTo.congr {s t : State} {a : Agent} {next : Word} {k k' : Core} (h : RetiresTo s a next k t) (hrest : k.rest = k'.rest) :
    RetiresTo s a next k' t := by
  obtain ⟨k'', ht, hpc, hretire, hrest'⟩ := h
  exact ⟨k'', ht, hpc, hretire, hrest'.trans hrest⟩

/-- Flags raised change FCSR, and the counts to a delivery, which retirement changes as well (R112, R113). -/
theorem Core.rest_raiseFp (k : Core) (flags : Nat) : (k.raiseFp flags).rest = { k with fcsr := raisedFcsr k.fcsr flags }.rest := rfl

theorem light_compare (fl : Flags) (flags : Nat) : Light (fun k => (k.setFl fl).raiseFp flags) :=
  ⟨fun _ => rfl, fun _ => rfl, fun _ => rfl, fun _ => rfl⟩

/-- FLAGS of the relation of two operands, case by case (R111). -/
theorem Fmt.flags_rel (f : Fmt) (x y : Nat) :
    (f.rel x y).flags =
      if f.isNaN x || f.isNaN y then { n := false, z := false, c := true, v := true }
      else if f.key x < f.key y then { n := true, z := false, c := false, v := false }
      else if f.key x = f.key y then { n := false, z := true, c := true, v := false }
      else { n := false, z := false, c := true, v := false } := by
  unfold Fmt.rel
  split_ifs <;> rfl

/-- NV of a compare: `any` says whether a quiet NaN raises it too (R111). -/
def compareNv (f : Fmt) (any : Bool) (x y : Nat) : Bool := if any then f.isNaN x || f.isNaN y else f.isSNaN x || f.isSNaN y

/-- What a compare makes of its operands: no entry, FLAGS by their relation, and NV. -/
def compareOut (f : Fmt) (any : Bool) (x y : Nat) : Out :=
  { vals := [], upd := fun k => (k.setFl (f.rel x y).flags).raiseFp (if compareNv f any x y then fl.NV else 0), next := none }

/-- A compare pops its operands, sets FLAGS by their relation and raises NV. -/
theorem fpCompare_retires {s s1 s2 : State} {a : Agent} {i : Instr} {cond : BitVec 3} {lvl : Level} {kr : KnotRule} {f : FF} {x y : Word}
    (any : Bool) (h : Begins s s1 a i cond lvl) (hs : stackStep s1 a (opWord i) 2 2 0 = (s2, .ok { ins := [y, x], homes := [] }))
    (hq : Quiet s2 a 0) :
    let k := s2.core a
    let g := Fmt.of f.p
    RetiresTo s2 a (k.pc + 4)
      { k.popN 2 with flags := (g.rel x.toNat y.toNat).flags.word
                      fcsr := raisedFcsr k.fcsr (if compareNv g any x.toNat y.toNat then fl.NV else 0) }
      (runInsn a i cond lvl kr (fpCompare a f any) s) := by
  intro k g
  have hretires : RetiresTo s2 a (k.pc + 4) ((compareOut g any x.toNat y.toNat).upd (k.popN 2))
      (runInsn a i cond lvl kr (fpCompare a f any) s) :=
    stackOp_retires (o := compareOut g any x.toNat y.toNat) h hs rfl hq (Nat.zero_le _) (light_compare _ _)
  have hfcsr : (k.popN 2).fcsr = k.fcsr := by rw [k.popN_sameBut 2]
  rw [← hfcsr]
  exact hretires.congr (Core.rest_raiseFp _ _)

/-! ### FCLASS -/

section
variable {b ex fr top : Nat}

/-- Of numbers of two digits to the base b the one with the lower upper digit is less. -/
theorem digits_lt_mul (hfr : fr < b) (hlt : ex < top) : ex * b + fr < top * b :=
  calc ex * b + fr < (ex + 1) * b := by rw [Nat.succ_mul]; omega
    _ ≤ top * b := Nat.mul_le_mul_right b hlt

theorem mul_lt_digits_iff (hfr : fr < b) (hex : ex ≤ top) : top * b < ex * b + fr ↔ ex = top ∧ fr ≠ 0 := by
  rcases hex.eq_or_lt with rfl | hlt
  · omega
  · have hbelow := digits_lt_mul hfr hlt
    omega

theorem digits_eq_mul_iff (hfr : fr < b) (hex : ex ≤ top) : ex * b + fr = top * b ↔ ex = top ∧ fr = 0 := by
  rcases hex.eq_or_lt with rfl | hlt
  · omega
  · have hbelow := digits_lt_mul hfr hlt
    omega

theorem digits_lt_base_iff (hfr : fr < b) : ex * b + fr < b ↔ ex = 0 := by
  rcases Nat.eq_zero_or_pos ex with rfl | hpos
  · omega
  · have hone : 1 * b ≤ ex * b := Nat.mul_le_mul_right b hpos
    omega

end

/-- The exponent field of an operand. -/
def Fmt.expField (f : Fmt) (x : Nat) : Nat := x % 2 ^ (f.ebits + f.p - 1) / 2 ^ (f.p - 1)

/-- The fraction field of an operand. -/
def Fmt.fracField (f : Fmt) (x : Nat) : Nat := x % 2 ^ (f.p - 1)

/-- The class of an operand with a sign and these fields, as a bit of the mask of R111: from −∞ at 0 to +∞ at 7, then the signalling and
the quiet NaNs. -/
def Fmt.classBit (f : Fmt) (neg : Bool) (ex fr : Nat) : Nat :=
  if ex = 2 ^ f.ebits - 1 then
    (if fr = 0 then (if neg then 0 else 7) else if fr / 2 ^ (f.p - 2) = 0 then 8 else 9)
  else if ex = 0 then (if fr = 0 then (if neg then 3 else 4) else if neg then 2 else 5)
  else if neg then 1 else 6

section
variable {f : Fmt} (hp : 2 ≤ f.p)
include hp

theorem Fmt.trim_mod_signBit (x : Nat) : f.trim x % f.signBit = f.expField x * 2 ^ (f.p - 1) + f.fracField x := by
  have hdvd : 2 ^ (f.p - 1) ∣ 2 ^ (f.ebits + f.p - 1) := Nat.pow_dvd_pow 2 (by omega)
  have htrim : f.trim x % f.signBit = x % 2 ^ (f.ebits + f.p - 1) := Nat.mod_mod_of_dvd x (Nat.pow_dvd_pow 2 (by omega))
  rw [htrim, Fmt.expField, Fmt.fracField, ← Nat.mod_mod_of_dvd x hdvd, Nat.div_add_mod']

theorem Fmt.expField_le (x : Nat) : f.expField x ≤ 2 ^ f.ebits - 1 := by
  have hsplit : 2 ^ (f.ebits + f.p - 1) = 2 ^ (f.p - 1) * 2 ^ f.ebits := by
    rw [← pow_add]
    congr 1
    omega
  have hlt : f.expField x < 2 ^ f.ebits :=
    Nat.div_lt_of_lt_mul (hsplit ▸ Nat.mod_lt x (Nat.two_pow_pos _))
  omega

theorem Fmt.signBit_le_trim (x : Nat) : decide (f.signBit ≤ f.trim x) = x.testBit (f.ebits + f.p - 1) := by
  have hwidth : 2 ^ (f.ebits + f.p) = f.signBit * 2 := by
    rw [Fmt.signBit, ← pow_succ]
    congr 1
    omega
  have hbits : f.trim x = x % f.signBit + f.signBit * (x / f.signBit % 2) := by rw [Fmt.trim, hwidth, Nat.mod_mul]
  have hrest : x % f.signBit < f.signBit := Nat.mod_lt x (Nat.two_pow_pos _)
  rw [Nat.testBit_eq_decide_div_mod_eq, ← Fmt.signBit, hbits, decide_eq_decide]
  rcases Nat.mod_two_eq_zero_or_one (x / f.signBit) with h | h
  · simpa [h] using hrest
  · simp [h]

/-- The quiet bit is the top bit of the fraction. -/
theorem Fmt.quiet_trim (x : Nat) : f.trim x / f.quiet % 2 = f.fracField x / f.quiet := by
  have htrim : 2 ^ (f.ebits + f.p) = f.quiet * 2 ^ (f.ebits + 2) := by
    rw [Fmt.quiet, ← pow_add]
    congr 1
    omega
  have hfrac : 2 ^ (f.p - 1) = f.quiet * 2 := by
    rw [Fmt.quiet, ← pow_succ]
    congr 1
    omega
  rw [Fmt.trim, Fmt.fracField, htrim, hfrac, Nat.mod_mul_right_div_self, Nat.mod_mul_right_div_self,
    Nat.mod_mod_of_dvd _ (Dvd.intro_left (2 ^ (f.ebits + 1)) (by ring))]

/-- The class is read off the fields: the magnitude is below that of infinity but where the exponent is all ones. -/
theorem Fmt.classMask_eq (x : Nat) :
    f.classMask x = 2 ^ f.classBit (x.testBit (f.ebits + f.p - 1)) (f.expField x) (f.fracField x) := by
  have hex := Fmt.expField_le hp x
  have hfr : f.fracField x < 2 ^ (f.p - 1) := Nat.mod_lt x (Nat.two_pow_pos _)
  have hsign := Fmt.signBit_le_trim hp x
  simp only [Fmt.classMask, Fmt.isSNaN, Fmt.quiet_trim hp, Fmt.trim_mod_signBit hp, Fmt.inf, Fmt.classBit, ← hsign]
  have hzero : f.expField x * 2 ^ (f.p - 1) + f.fracField x = 0 ↔ f.expField x = 0 ∧ f.fracField x = 0 := by simp
  simp only [gt_iff_lt, mul_lt_digits_iff hfr hex, digits_eq_mul_iff hfr hex, digits_lt_base_iff hfr, hzero]
  by_cases htop : f.expField x = 2 ^ f.ebits - 1
  · by_cases hfrac : f.fracField x = 0
    · simp [htop, hfrac]
    · simp [htop, hfrac, Fmt.quiet]
  · simp only [htop, false_and, if_false]
    by_cases hexp : f.expField x = 0
    · by_cases hfrac : f.fracField x = 0 <;> simp [hexp, hfrac]
    · simp [hexp]

end

/-- The class mask of the operand of either format (R111). -/
theorem Fmt.classMask_of (p : Bool) (x : Nat) :
    let f := Fmt.of p
    f.classMask x = 2 ^ f.classBit (x.testBit (f.ebits + f.p - 1)) (f.expField x) (f.fracField x) :=
  Fmt.classMask_eq (by cases p <;> decide) x

/-- The compares share one body. -/
theorem exec_compare {b : (Agent → FF → Instr) × Bool} (hb : b ∈ [(Instr.fcmp, false), (Instr.fcmpe, true)]) (a : Agent) (f : FF)
    (s : State) : exec (b.1 a f) s = .next (runInsn a (b.1 a f) f.cond .U .runs (fpCompare a f b.2) s) := by
  simp only [List.mem_cons, List.not_mem_nil, or_false] at hb
  obtain rfl | rfl := hb <;> rfl

/-- FCLASS replaces its operand by the class mask. -/
theorem fclass_retires {s s1 s2 : State} {a : Agent} {f : FF} {x : Word} {home : Home} (h : Begins s s1 a (.fclass a f) f.cond .U)
    (hs : stackStep s1 a (opWord (.fclass a f)) 1 1 1 = (s2, .ok { ins := [x], homes := [home] })) (hq : Quiet s2 a 1) :
    Completes (.fclass a f) s
      (RetiresTo s2 a ((s2.core a).pc + 4) (restack s2 a 1 [BitVec.ofNat 64 ((Fmt.of f.p).classMask x.toNat)] [home])) :=
  ⟨_, rfl, stackOp_retires (o := .push [BitVec.ofNat 64 ((Fmt.of f.p).classMask x.toNat)]) h hs rfl hq (Nat.le_refl 1) light_id⟩

/-! ### R111 -/

/-- Settles O25: a compare sets FLAGS by the relation, and FCLASS's mask is one bit, named by sign, exponent and fraction. -/
theorem floatingPointComparesSetFlags : Obligations.FloatingPointComparesSetFlags := by
  constructor
  · intro b hb s s1 s2 a f x y isNaN signals k nv fl hbegins hstack hquiet
    refine ⟨_, exec_compare hb a f s, ?_⟩
    have hfl : fl = ((Fmt.of f.p).rel x.toNat y.toNat).flags := (Fmt.flags_rel _ _ _).symm
    rw [hfl]
    exact fpCompare_retires b.2 hbegins hstack hquiet
  · intro s s1 s2 a f x home hbegins hstack hquiet width frac neg ex fr bit
    have hbit : (Fmt.of f.p).classMask x.toNat = 2 ^ bit := by
      rw [Fmt.classMask_of]
      obtain ⟨_, _, _, p, _⟩ := f
      cases p <;> rfl
    rw [← hbit]
    exact fclass_retires hbegins hstack hquiet

end Sys2Proof.Machine
end
